-- ==== Sys2Proof/Word.lean ====
section
/-! DEFINITION. The word types of the Ulvap 640 (0.6: a word is 16 bits) and the numbers of its heads, order slots, tube
records and pool blocks. -/

namespace Sys2Proof

/-- A word of exchange memory or of a port register: 16 bits (0.6). -/
abbrev Word := BitVec 16

/-- An ADC code, or a byte of the pyrometer line. -/
abbrev Byte := BitVec 8

/-- A head number, 0 to 3 (0.6). -/
abbrev Head := Fin 4

/-- An order slot number, 0 to 3 (9.1). -/
abbrev SlotNo := Fin 4

/-- A tube record number, 0 to 15 (8.2). -/
abbrev RecNo := Fin 16

/-- A pool block number, 0 to 951 (10.1). -/
abbrev BlockNo := Fin 952

end Sys2Proof
end

