-- ==== Sys2Proof/Syntax.lean ====
section
/-! DEFINITION. The commands and events of the Ulvap 640: one constructor per row of spec/opcode_table.json, with the operands
that the outside (the host, the input pins, the analogue front end) brings with the event. -/

namespace Sys2Proof

/-- A comparator of an echo channel, and a capture polarity (3.3). -/
inductive Polarity where
  | pos
  | neg
deriving DecidableEq, Repr

/-- The four port registers (Table 10-2). -/
inductive PortReg where
  | ident
  | control
  | attnCause
  | attnMask
deriving DecidableEq, Repr

/-- The orders in which the events that share the instant of a cycle start may be taken: the slot-end cut of slot 3 and the
application of an immediate amendment (R40), and, with a quiet gate of 0, the fire decision of slot 0 (R152). -/
inductive CycleOrder where
  /-- The slot-end cut, then the amendment; the fire decision comes later. -/
  | cutFirst
  /-- The amendment, then the slot-end cut; the fire decision comes later. -/
  | amendFirst
  /-- The slot-end cut, then (with q = 0) the fire decision of slot 0, then the amendment. -/
  | decisionFirst
deriving DecidableEq, Repr

/-- The line levels that the pyrometer receiver sampled for one frame (R57): `true` is mark, a 1. Bit `i` of `data` is the
sample at point `i + 1`. The set-up link format says which of the others count. -/
structure Frame where
  data : Byte
  parity : Bool
  stop1 : Bool
  stop2 : Bool
deriving DecidableEq, Repr

/-- One command or event, one constructor per row of spec/opcode_table.json.

The CONTROL rows (`softReset`, `run`, `stop`, `resume`, `clearHk`) carry the whole word written to CONTROL, because one write is
one command event that carries all its bits (R7); the row's own bit counts as written 1 whatever the operand holds. -/
inductive Instr where
  /-- FULL_RESET: power-on, or RESET goes active (R3). -/
  | fullReset
  /-- RESET_RELEASE: RESET goes inactive, or power-on ends (R3). -/
  | resetRelease
  /-- INIT_COMPLETE: the last word has been cleared (R6). -/
  | initComplete
  /-- SOFT_RESET: a CONTROL write with bit 3 set (R4). -/
  | softReset (w : Word)
  /-- RUN: a CONTROL write with bit 0 set (R8 to R10). -/
  | run (w : Word)
  /-- STOP: a CONTROL write with bit 1 set (R12 to R14). -/
  | stop (w : Word)
  /-- RESUME: a CONTROL write with bit 2 set (R33). -/
  | resume (w : Word)
  /-- CLEAR_HK: a CONTROL write with bit 4 + k set (R28). -/
  | clearHk (k : Head) (w : Word)
  /-- ATTN_CAUSE_WRITE: a host write to ATTN_CAUSE (R160). -/
  | attnCauseWrite (w : Word)
  /-- ATTN_MASK_WRITE: a host write to ATTN_MASK (R159). -/
  | attnMaskWrite (w : Word)
  /-- IGNORED_REGISTER_WRITE: a host write that the port ignores: to IDENT, or during INIT (R159, R5). -/
  | ignoredRegisterWrite (r : PortReg) (w : Word)
  /-- HOST_MEMORY_WRITE: a host write of `v` to the word at address `a` (R156). -/
  | hostMemoryWrite (a v : Word)
  /-- POST: the host writes POST into slot `j`'s request word (R141). -/
  | post (j : SlotNo)
  /-- CANCEL: the host writes CANCEL into slot `j`'s request word (R149). -/
  | cancel (j : SlotNo)
  /-- AMEND: the host writes AMEND into slot `j`'s request word (R150). -/
  | amend (j : SlotNo)
  /-- WITHDRAWAL: the host writes NONE into slot `j`'s request word (R153). -/
  | withdrawal (j : SlotNo)
  /-- BAD_REQUEST: the host writes `v`, no request code of a slot, into slot `j`'s request word (R140). -/
  | badRequest (j : SlotNo) (v : Word)
  /-- RELEASE: the host writes RELEASE into record `r`'s request word (R164). -/
  | release (r : RecNo)
  /-- RECORD_BAD_REQUEST: the host writes `v`, neither RELEASE nor NONE, into record `r`'s request word (R164). -/
  | recordBadRequest (r : RecNo) (v : Word)
  /-- CYCLE_START: the cycle timer begins a cycle (R16); `peak` is what the ADC reads if a slot-end cut samples (R49). -/
  | cycleStart (o : CycleOrder) (peak : Byte)
  /-- SLOT_START: the slot after the present one begins (R18); `peak` as for CYCLE_START. -/
  | slotStart (peak : Byte)
  /-- FIRE_DECISION: the quiet gate has ended (R19). -/
  | fireDecision
  /-- CONF_EDGE: an active edge on CONF_k (R23, R25). -/
  | confEdge (k : Head)
  /-- MISFIRE: the confirm window expires (R24). -/
  | misfire
  /-- END_OF_BLANKING: the blanking ends (R46). -/
  | endOfBlanking
  /-- CROSSING: comparator `c` of channel `k` goes active, `t` tu on the channel's time base (R43, R47). -/
  | crossing (k : Head) (c : Polarity) (t : Nat)
  /-- HOLD_OFF_END: a hold-off that ends at `t` tu ends (R47). -/
  | holdOffEnd (t : Nat)
  /-- AMPLITUDE_SAMPLE: the ADC reads the code `a` off the peak detector at e1 + peak_delay (R49). -/
  | amplitudeSample (a : Byte)
  /-- WINDOW_END: the echo window reaches its end (R51); `a` is what the ADC reads if it samples there. -/
  | windowEnd (a : Byte)
  /-- PERMIT_LOSS: PERMIT goes from active to inactive (R30). -/
  | permitLoss
  /-- LINE_SETTLED: the pyrometer line has rested at mark for one bit time (R56). -/
  | lineSettled
  /-- PYRO_FRAME: the last stop point of a frame, with all its samples (R58). -/
  | pyroFrame (f : Frame)
  /-- GAP_TIMER_EXPIRY: the gap timer expires (R61). -/
  | gapTimerExpiry
  /-- AGE_INCREASE: another 25,000 ct have passed since the last acceptance (R65). -/
  | ageIncrease
  /-- REAL_STEP: a filtered rising edge of ENC, `us` whole microseconds after the real step before it (R87, R88). -/
  | realStep (us : Nat)
  /-- STALL: the stall timer reaches its limit (R91). -/
  | stall
  /-- SYNTHETIC_STEP: another P_last µs of dead reckoning have passed (R92). -/
  | syntheticStep
  /-- HEAD_EVENT: a filtered rising edge of PRESENT, in ARMED (R123). -/
  | headEvent
  /-- TAIL_EVENT: a filtered falling edge of PRESENT, in MEASURING (R127). -/
  | tailEvent
  /-- PRESENCE_CLEAR: a filtered falling edge of PRESENT, in WAIT_CLEAR (R121). -/
  | presenceClear
  /-- PRESENCE_RECORDED: a filtered edge of PRESENT to the level `high`, in CLOSING (R121). -/
  | presenceRecorded (high : Bool)
  /-- CLOSING_SECTION_COMPLETION: a CLOSING section whose awaited shot has ended completes (R109). -/
  | closingSectionCompletion
  /-- CLOSE_COMPLETION: the close of a tube completes, no shot being in flight (R135). -/
  | closeCompletion
  /-- SCAN_START: the idle release scanner begins the record at the front of the release queue (R165). -/
  | scanStart
  /-- SCAN_STEP: the release scanner examines one owner-table entry (R166). -/
  | scanStep
  /-- SCAN_END: block 951 has been examined and the scan ends (R166). -/
  | scanEnd
  /-- PERMIT_ACTIVE: PERMIT goes from inactive to active (R30). -/
  | permitActive
  /-- START_EDGE: the first ct at space after a ct at mark, in READY (R56). -/
  | startEdge
  /-- MID_START_CHECK: the sample at t0 + H; `mark` is the line level found (R56). -/
  | midStartCheck (mark : Bool)
deriving DecidableEq, Repr

end Sys2Proof
end

