-- ==== Sys2Proof/Config.lean ====
section
/-! DEFINITION. What the part fixes once for all: the memory map (Tables 10-1, 11-2, 11-4, 11-7), the part's identity and the
limits that its rules name. The spec leaves no value open, so there is no free value here. -/

namespace Sys2Proof.Config

/-- The number of words of exchange memory (0.1, 10.1). -/
def memWords : Nat := 65536
/-- The first word of the setup block (Table 10-1). -/
def setupBase : Nat := 0x0100
/-- The first word after the setup block (Table 10-1). -/
def setupEnd : Nat := 0x0200
/-- The first word of order slot 0, and the words of a slot (9.1). -/
def slotBase : Nat := 0x0200
/-- The words of an order slot (9.1). -/
def slotWords : Nat := 512
/-- The first word of tube record 0 (8.2). -/
def recordBase : Nat := 0x0A00
/-- The words of a tube record (8.2). -/
def recordWords : Nat := 128
/-- The first word of pool block 0 (10.1). -/
def blockBase : Nat := 0x1200
/-- The words of a pool block (10.1). -/
def blockWords : Nat := 64
/-- The number of pool blocks (10.1). -/
def blocks : Nat := 952

/-- IDENT reads part code 0x064 and revision 1 (Table 11-1). -/
def ident : Word := 0x0641#16
/-- The "none" value of the fields that name a slot, a block, a section or an offset (R168). -/
def noneWord : Word := 0xFFFF#16

/-- The position at which z saturates, in µm (R96). -/
def zMax : Nat := 67108863
/-- The largest period the tracker's counter shows, in µs (R88). -/
def periodMax : Nat := 16777215
/-- The largest time of the echo time base, in tu (0.6, R45). -/
def tuMax : Nat := 262143
/-- 1 ct is 160 tu (0.6). -/
def tuPerCt : Nat := 160
/-- 25 ct are 1 µs (0.6). -/
def ctPerUs : Nat := 25
/-- 25,000 ct are 1 ms (R65, R120). -/
def ctPerMs : Nat := 25000
/-- The capacity of the holdback queue (R130). -/
def holdbackCapacity : Nat := 24
/-- The marker byte of a pyrometer telegram (4.3). -/
def marker : Byte := 0x5C#8

end Sys2Proof.Config
end

