-- ==== Sys2Proof/Machine/State.lean ====
section
/-! DEFINITION. The state of the Ulvap 640 as plain data: every register, queue, counter, mode and mark that the spec gives its
ten blocks, the exchange memory, the input pins, and the queue of waiting commands; the machine right after a full reset. -/

namespace Sys2Proof.Machine

/-! ### Enumerations (Table 11-11) -/

/-- The gauge state (R2). -/
inductive GaugeState where
  | init | halted | armed | measuring | closing | waitClear
deriving DecidableEq, Repr

/-- The tracking state (Table 6-2). -/
inductive TrackState where
  | idle | tracking | deadReckoning | lost
deriving DecidableEq, Repr

/-- The firing state (R29). -/
inductive FiringState where
  | suspended | permitted
deriving DecidableEq, Repr

/-- A head state (2.6). -/
inductive HeadState where
  | on | fault
deriving DecidableEq, Repr

/-- The source state of the held temperature (Table 4-4). -/
inductive TempSource where
  | none | live | stale
deriving DecidableEq, Repr

/-- The state of an order slot (Table 9-1). -/
inductive SlotState where
  | free | ready | active | spent | refused
deriving DecidableEq, Repr

/-- The state of a tube record (Table 8-1). -/
inductive RecState where
  | free | opened | complete | releasing
deriving DecidableEq, Repr

/-- The outcome of a tube (Table 8-3). -/
inductive TubeOutcome where
  | normal | aborted | overlength | noOrder
deriving DecidableEq, Repr

/-- The outcome of a shot that the thickness computer takes (Table 5-3). -/
inductive ShotOutcome where
  | valid | outOfBand | noPair | noEcho | noisy | misfire
deriving DecidableEq, Repr

/-- The twist sense of an order (R100). -/
inductive Twist where
  | cw | ccw
deriving DecidableEq, Repr

/-- The encoder filter settings (Table 6-1). -/
inductive EncFilter where
  | off | mhz10 | mhz2p5 | khz625
deriving DecidableEq, Repr

/-- The parity settings of the pyrometer line (Table 4-1). -/
inductive Parity where
  | none | even | odd
deriving DecidableEq, Repr

/-- The receiver states of the temperature link (Table 4-2). -/
inductive RxState where
  | off | settle | ready | start | data | parity | stop
deriving DecidableEq, Repr

/-! ### Exchange memory -/

/-- One word of exchange memory at a word address. -/
abbrev WordCell := Nat × Word

/-- Exchange memory (10.1): the words that are not 0, by rising word address. A word that is not listed reads 0, which is what the
INIT clearing leaves (before the clearing: DESIGN CHOICE, log 5). -/
abbrev Memory := List WordCell

/-- The canonical form: addresses in range and strictly rising, no listed word equal to 0. -/
abbrev Memory.wf (m : Memory) : Prop :=
  m.Pairwise (fun c d => c.1 < d.1) ∧ ∀ c ∈ m, c.1 < Config.memWords ∧ c.2 ≠ 0#16

/-! ### Setup and orders -/

/-- The internal copies of the setup block (Table 1-4). -/
structure Setup where
  cyclePeriod : Nat
  quietGate : Nat
  confWin : Nat
  misfireLimit : Nat
  autoRestart : Bool
  headAngle : Vector Nat 4
  encFilter : EncFilter
  encStep : Nat
  stallMin : Nat
  drMax : Nat
  debounce : Nat
  pyroDiv : Nat
  pyroParity : Parity
  pyroStop : Nat
  pyroInverted : Bool
  pyroMsbFirst : Bool
  gapLimit : Nat
  staleMs : Nat
  poolLow : Nat
deriving DecidableEq, Repr

/-- The recipe of an order (Table 9-3). -/
structure Recipe where
  tag : Vector Word 4
  lotCount : Nat
  headMask : BitVec 4
  threshold : Nat
  polarity : Polarity
  noiseLimit : Nat
  blanking : Nat
  window : Nat
  holdoff : Nat
  captureMax : Nat
  peakDelay : Nat
  gmin : Nat
  gmax : Nat
  g0 : Nat
  agcOn : Bool
  agcLo : Nat
  agcHi : Nat
  ctol : Nat
  fallbackT : Nat
  coreOffset : Int
  velocity : Vector Nat 17
  trim : Int
  tnom : Nat
  bandLo : Nat
  bandHi : Nat
  lSec : Nat
  pitch : Nat
  twist : Twist
  occMin : Nat
  headSkip : Nat
  tailSkip : Nat
  maxLen : Nat
deriving DecidableEq, Repr

/-- The internal snapshot of a posted order: its recipe, as amended since, and the window fit of R34 (R139). -/
structure Snapshot where
  recipe : Recipe
  wEff : Nat
  clamped : Bool
deriving DecidableEq, Repr

/-- A set of amendment fields (Table 9-4). -/
structure Amendment where
  threshold : Nat
  noiseLimit : Nat
  gmin : Nat
  gmax : Nat
  g0 : Nat
  agcOn : Bool
  agcLo : Nat
  agcHi : Nat
  ctol : Nat
  fallbackT : Nat
  coreOffset : Int
  trim : Int
  bandLo : Nat
  bandHi : Nat
  immediate : Bool
deriving DecidableEq, Repr

/-- What the order manager holds for one slot (R139). -/
structure OrderSlot where
  state : SlotState
  snapshot : Option Snapshot
  taken : Nat
  finalTube : Bool
  amendment : Option Amendment
  cancelPending : Bool
deriving DecidableEq, Repr

/-! ### Shot path -/

/-- The stamp of a shot (R99). -/
structure Stamp where
  z : Nat
  secIdx : Nat
  angle : Nat
  sector : Fin 32
  estimated : Bool
  unmapped : Bool
deriving DecidableEq, Repr

/-- The shot in flight (R22): its stamp and the order settings bound to it; its head is its slot's. `clampDue` marks the gain
clamp that its channel makes when the shot ends (R41). `firedAt` and `confAt` are the ct of its FIRE and of its confirm. -/
structure Shot where
  stamp : Stamp
  bound : Snapshot
  clampDue : Bool
  firedAt : Nat
  confAt : Nat
deriving DecidableEq, Repr

/-- The capture state of a channel in OPEN (3.6, 3.7): the time base, the echo times, the end of the running hold-off, the peak
detector and the amplitude sample. -/
structure Capture where
  tu : Nat
  echoes : List Nat
  holdOff : Option Nat
  peak : Byte
  sample : Option Byte
deriving DecidableEq, Repr

/-- The phase of the echo channel of the present slot, with the shot state it holds (R36). -/
inductive Phase where
  | idle
  | quiet (count : Nat)
  | awaitConf (shot : Shot)
  | blanking (shot : Shot)
  | opened (shot : Shot) (cap : Capture)
deriving DecidableEq, Repr

/-- The head slot of the cycle that is in progress (R16), the ct at which it began, and the phase of its channel. Every other
channel is IDLE (R36). -/
structure HeadSlot where
  head : Head
  startAt : Nat
  phase : Phase
deriving DecidableEq, Repr

/-- What the shot sequencer holds for one head (2.6, R25), with the model's count of the pulses driven on FIRE_k
(DESIGN CHOICE, log 19). -/
structure HeadUnit where
  state : HeadState
  misfires : Nat
  stray : Nat
  fires : Nat
deriving DecidableEq, Repr

/-- The standing state of an echo channel (3.1), and its two comparator outputs as the last ct left them (R43). -/
structure Channel where
  gain : Nat
  dac : Nat
  polarity : Polarity
  cmpPos : Bool
  cmpNeg : Bool
deriving DecidableEq, Repr

/-- The shot record (Table 5-4). -/
structure ShotRecord where
  head : Head
  sector : Fin 32
  secIdx : Nat
  outcome : ShotOutcome
  t : Nat
  shortTrain : Bool
  tEff : Nat
  tempFallback : Bool
  tempClamped : Bool
  estimated : Bool
  unmapped : Bool
  cut : Bool
deriving DecidableEq, Repr

/-! ### Position path -/

/-- The position tracker with its encoder filter (chapter 6). `fresh` says that a real step of this tube has been taken with
neither a stall expiry nor a change of tracking state since (R88). `stallLimit` is S of R91, in µs, while the stall timer runs. -/
structure Tracker where
  state : TrackState
  z : Nat
  pLast : Option Nat
  fresh : Bool
  episode : Nat
  stallLimit : Option Nat
  stallAt : Nat
  synthAt : Nat
  stepAt : Nat
  encLevel : Bool
  encRun : Nat
  encPhase : Nat
deriving DecidableEq, Repr

/-- The presence filter (R120). -/
structure Presence where
  level : Bool
  run : Nat
deriving DecidableEq, Repr

/-- A section accumulator (Table 7-1). Whether it is OPEN or CLOSING is the place in `Tube` that holds it. -/
structure Accum where
  index : Nat
  counts : Vector Nat 32
  sums : Vector Nat 32
  n : Nat
  sumT : Nat
  sumT2 : Nat
  range : Option (Nat × Nat)
  sumTEff : Nat
  noEcho : Nat
  noPair : Nat
  outOfBand : Nat
  noisy : Nat
  misfire : Nat
  shortTrain : Nat
  heads : Vector Nat 4
  flags : Word
deriving DecidableEq, Repr

/-- A section result (Table 7-3), with its exclusion marks among its flags. -/
structure SectionResult where
  index : Nat
  startZ : Nat
  endZ : Nat
  n : Nat
  sumT : Nat
  noEcho : Nat
  noPair : Nat
  outOfBand : Nat
  noisy : Nat
  misfire : Nat
  shortTrain : Nat
  heads : Vector Nat 4
  min : Nat
  max : Nat
  mean : Nat
  sd : Nat
  tMean : Nat
  means : Vector Nat 32
  occupied : Nat
  thin : Option Nat
  ecc : Nat
  flags : Word
deriving DecidableEq, Repr

/-- The tube totals (Table 8-2). -/
structure Totals where
  valid : Nat
  noEcho : Nat
  noPair : Nat
  outOfBand : Nat
  noisy : Nat
  misfire : Nat
  aborted : Nat
  unmapped : Nat
  late : Nat
  suspended : Nat
  deadReckoned : Nat
  headMisfires : Vector Nat 4
deriving DecidableEq, Repr

/-- The tube accumulators (R133). `best` is the greatest E with its section's index, once a section has been counted. -/
structure TubeAccum where
  sumN : Nat
  sumT : Nat
  range : Option (Nat × Nat)
  best : Option (Nat × Nat)
  count : Nat
deriving DecidableEq, Repr

/-- The open-tube context (R122) with the tube's section accumulators (R102) and its holdback queue (R130). `record` is none for a
missed tube; `order` is the slot of the tube's order, none for a tube without one. -/
structure Tube where
  record : Option RecNo
  order : Option SlotNo
  serial : Nat
  outcome : TubeOutcome
  flags : Word
  totals : Totals
  zTail : Option Nat
  lastBlock : Option BlockNo
  written : Nat
  lost : Nat
  accum : TubeAccum
  opened : Option Accum
  closing : Option Accum
  holdback : List SectionResult
deriving DecidableEq, Repr

/-! ### Block pool -/

/-- A release scan in progress: the record, the next block to examine, and the ct at which it began (R166). -/
structure Scan where
  record : RecNo
  next : Nat
  startAt : Nat
deriving DecidableEq, Repr

/-- The block pool manager (R161). -/
structure Pool where
  free : List BlockNo
  owner : Vector (Option RecNo) 952
  lowArmed : Bool
  releaseQueue : List RecNo
  scan : Option Scan
deriving DecidableEq, Repr

/-! ### Temperature link -/

/-- The pyrometer receiver (R55): its state, the ct t0 of the start edge, the samples gathered so far, the run of ct at mark in
SETTLE, and the line level of the ct before. -/
structure Receiver where
  state : RxState
  t0 : Nat
  bits : List Bool
  markRun : Nat
  prevMark : Bool
deriving DecidableEq, Repr

/-- The telegram assembler (R59), with the bytes taken since the marker. -/
inductive Assembler where
  | awaitMarker
  | collecting (bytes : List Byte)
deriving DecidableEq, Repr

/-- The seven link counters (Table 4-5). -/
structure LinkCounters where
  accepted : Nat
  framing : Nat
  parity : Nat
  checksum : Nat
  truncated : Nat
  rejected : Nat
  stray : Nat
deriving DecidableEq, Repr

/-- The temperature link (chapter 4). `gapAt` is the ct at which the running gap timer was started; `ageAt` is the ct of the last
acceptance. -/
structure Link where
  rx : Receiver
  asm : Assembler
  gapAt : Option Nat
  tSurf : Nat
  source : TempSource
  age : Nat
  ageAt : Nat
  counters : LinkCounters
deriving DecidableEq, Repr

/-! ### The outside -/

/-- The levels on the part's input pins (Table 0-2): `true` is active for PERMIT, high for the other digital ones; the standing level
of each receiver signal ECHOk is signed, on the scale of the ADC codes (R42). Their levels at reset are a DESIGN CHOICE (log 6). -/
structure Pins where
  permit : Bool
  present : Bool
  enc : Bool
  pyro : Bool
  echo : Vector Int 4
deriving DecidableEq, Repr

/-- A change of a receiver signal ECHOk: `at` tu into a ct, to the signed level `level` on the scale of the ADC codes (R42). -/
structure EchoPoint where
  head : Head
  offset : Nat
  level : Int
deriving DecidableEq, Repr

/-- What the outside puts on the sampled inputs during one ct (DESIGN CHOICE, log 7). -/
structure PinSample where
  present : Bool
  enc : Bool
  pyro : Bool
  echo : List EchoPoint
deriving DecidableEq, Repr

/-- The INIT clearing in progress (R3 to R5): whether it is the soft one, and the next word to clear. -/
structure Clearing where
  soft : Bool
  next : Nat
deriving DecidableEq, Repr

/-! ### The whole machine -/

/-- The state of the Ulvap 640. -/
structure State where
  /-- Gauge state (R2). -/
  gauge : GaugeState
  /-- RESET is active (R3). -/
  resetActive : Bool
  /-- The clearing of INIT (R3, R4). -/
  clearing : Clearing
  /-- Halt-pending mark (R2). -/
  haltPending : Bool
  /-- Exchange memory (10.1). -/
  mem : Memory
  /-- ATTN_CAUSE, its eight cause bits (R160). -/
  attnCause : BitVec 8
  /-- ATTN_MASK, its eight mask bits (R159). -/
  attnMask : BitVec 8
  /-- Setup internal copies, none in force after a reset (R11). -/
  setup : Option Setup
  /-- The input pins (Table 0-2). -/
  pins : Pins
  /-- The four order slots' internal state (R139). -/
  slots : Vector OrderSlot 4
  /-- Order queue, front first (R145). -/
  queue : List SlotNo
  /-- Current order (R145). -/
  current : Option SlotNo
  /-- Cycle timer's head slot, none while the timer is stopped (R16, R17). -/
  slot : Option HeadSlot
  /-- The ct at which the present cycle began (R16). -/
  cycleAt : Nat
  /-- Firing state (R29). -/
  firing : FiringState
  /-- Resume-pending mark (R29). -/
  resumePending : Bool
  /-- The four heads (R27, R25). -/
  heads : Vector HeadUnit 4
  /-- The four echo channels' standing state (3.1). -/
  chans : Vector Channel 4
  /-- The thickness computer's copies of the last-valid-thickness words (R85). -/
  lastValid : Vector Nat 4
  /-- Position tracker (R101). -/
  tracker : Tracker
  /-- Presence filter (R120). -/
  presence : Presence
  /-- Temperature link (R68). -/
  link : Link
  /-- Record states of the tube table (R122). -/
  records : Vector RecState 16
  /-- Tube serial counter (R122). -/
  serial : Nat
  /-- Next-search index (R122). -/
  nextSearch : RecNo
  /-- Tubes-completed count (R135). -/
  tubesCompleted : Nat
  /-- Tubes-missed count (R123). -/
  tubesMissed : Nat
  /-- Open-tube context (R122). -/
  tube : Option Tube
  /-- Block pool manager (R161). -/
  pool : Pool
  /-- The model's own: the ct that have passed (DESIGN CHOICE, log 1). -/
  now : Nat
  /-- The model's own: what the outside will put on the sampled inputs in the coming ct, the next first
  (DESIGN CHOICE, log 7). -/
  inputs : List PinSample
  /-- The model's own: the commands that wait, first in, first out. -/
  pending : List Instr
deriving DecidableEq, Repr

/-- The reasons for which the machine stops with a fault: none. No rule of the spec stops the part, and every command has an
outcome in every state, so this inductive has no constructor. -/
inductive Fault where
deriving DecidableEq, Repr

/-- The reasons for which the model refuses a command. -/
inductive Refusal where
  /-- Raised by exec's arm of a command that has no meaning yet; safe, since nothing is then claimed of it. No arm uses it. -/
  | notModelled (mnemonic : String)
deriving DecidableEq, Repr

/-- What a command answers. -/
abbrev Result := Host.Outcome State Fault Refusal

/-! ### Values after reset (Table 1-3 and the tables of R35, R53, R68, R101, R138, R154) -/

/-- A slot that holds no order. -/
def OrderSlot.free : OrderSlot :=
  { state := .free, snapshot := none, taken := 0, finalTube := false, amendment := none, cancelPending := false }

/-- A head after reset (R35). -/
def HeadUnit.reset : HeadUnit := { state := .on, misfires := 0, stray := 0, fires := 0 }

/-- An echo channel after reset (Table 3-4). -/
def Channel.reset : Channel := { gain := 0, dac := 255, polarity := .pos, cmpPos := false, cmpNeg := false }

/-- The position tracker after reset (Table 6-3). -/
def Tracker.reset : Tracker :=
  { state := .idle, z := 0, pLast := none, fresh := false, episode := 0, stallLimit := none, stallAt := 0, synthAt := 0,
    stepAt := 0, encLevel := false, encRun := 0, encPhase := 0 }

/-- The presence filter after reset (R120). -/
def Presence.reset : Presence := { level := false, run := 0 }

/-- The pyrometer receiver in OFF (R54). -/
def Receiver.off : Receiver := { state := .off, t0 := 0, bits := [], markRun := 0, prevMark := false }

/-- The seven link counters at 0. -/
def LinkCounters.zero : LinkCounters :=
  { accepted := 0, framing := 0, parity := 0, checksum := 0, truncated := 0, rejected := 0, stray := 0 }

/-- The temperature link after reset (Table 4-6). -/
def Link.reset : Link :=
  { rx := Receiver.off, asm := .awaitMarker, gapAt := none, tSurf := 0, source := .none, age := 0, ageAt := 0,
    counters := LinkCounters.zero }

/-- The block pool after reset (R161). -/
def Pool.reset : Pool :=
  { free := List.finRange 952, owner := Vector.replicate 952 none, lowArmed := false, releaseQueue := [], scan := none }

/-- The machine right after a full reset: RESET has just become inactive and the gauge is INIT with full clearing (R3), every block
in its reset state (Table 1-3), no word of memory listed, the input pins inactive and no command waiting. How a program of commands
comes to run from here: log 4. What the spec gives no reset value: DESIGN CHOICE, log 4 to log 7. -/
def State.reset : State :=
  { gauge := .init
    resetActive := false
    clearing := { soft := false, next := 0 }
    haltPending := false
    mem := []
    attnCause := 0#8
    attnMask := 0#8
    setup := none
    pins := { permit := false, present := false, enc := false, pyro := false, echo := Vector.replicate 4 0 }
    slots := Vector.replicate 4 OrderSlot.free
    queue := []
    current := none
    slot := none
    cycleAt := 0
    firing := .suspended
    resumePending := false
    heads := Vector.replicate 4 HeadUnit.reset
    chans := Vector.replicate 4 Channel.reset
    lastValid := Vector.replicate 4 0
    tracker := Tracker.reset
    presence := Presence.reset
    link := Link.reset
    records := Vector.replicate 16 .free
    serial := 0
    nextSearch := 0
    tubesCompleted := 0
    tubesMissed := 0
    tube := none
    pool := Pool.reset
    now := 0
    inputs := []
    pending := [] }

end Sys2Proof.Machine
end

