-- ==== Sys2Proof/Machine/Arith.lean ====
section
/-! DEFINITION. The arithmetic of the spec's rules: nearest, isqrt and saturation (R1), two's complement words (R168, R169), and the
update of one place of a fixed-length table. -/

namespace Sys2Proof.Machine

/-- The 16-bit word of a number. -/
def toWord (n : Nat) : Word := BitVec.ofNat 16 n

/-- The 16-bit two's complement word of a signed field (R168). -/
def intWord (i : Int) : Word := BitVec.ofInt 16 i

/-- A number published in one word, saturated at 65,535 (R168). -/
def satWord (n : Nat) : Word := toWord (min n 65535)

/-- An event counter of 16 bits, one event on (R1). -/
def sat16 (n : Nat) : Nat := min (n + 1) 65535

/-- An event counter of 32 bits, `k` events on (R1). -/
def sat32 (n k : Nat) : Nat := min (n + k) 4294967295

/-- The 32-bit fields are two words, low word first (R168). -/
def words32 (n : Nat) : List Word := [toWord n, toWord (n / 65536)]

/-- "Nearest" of the quotient `a / b` of natural numbers, halves upward (R1). -/
def nearestNat (a b : Nat) : Nat := (2 * a + b) / (2 * b)

/-- "Nearest" of the quotient `a / b`, halves away from zero (R1). -/
def nearestInt (a : Int) (b : Nat) : Int :=
  if 0 ≤ a then (nearestNat a.toNat b : Int) else -(nearestNat (-a).toNat b : Int)

/-- "Ceil" of the quotient `a / b` (R131). -/
def ceilDiv (a b : Nat) : Nat := (a + b - 1) / b

/-- The bits of the floor square root, from bit `k - 1` down, on top of the root `r` found so far. -/
def isqrtBits : Nat → Nat → Nat → Nat
  | 0, _, r => r
  | k + 1, n, r => isqrtBits k n (if (r + 2 ^ k) * (r + 2 ^ k) ≤ n then r + 2 ^ k else r)

/-- "isqrt": the floor of the square root (R1). -/
def isqrt (n : Nat) : Nat := isqrtBits (n.log2 / 2 + 1) n 0

/-- A table with place `i` set to `x`. -/
def vset {α : Type} {n : Nat} (v : Vector α n) (i : Fin n) (x : α) : Vector α n := v.set i.val x i.isLt

end Sys2Proof.Machine
end

