-- ==== Sys2Proof/Machine/Memory.lean ====
section
/-! DEFINITION. Exchange memory: reading a word, writing a word and clearing words, in the canonical form of `Memory.wf` (R155, R3,
R4). -/

namespace Sys2Proof.Machine

/-- What the word at an address holds (R155); an unlisted word holds 0 (DESIGN CHOICE, log 5). -/
def memRead (m : Memory) (a : Nat) : Word :=
  match m with
  | [] => 0#16
  | c :: cs => if c.1 = a then c.2 else memRead cs a

/-- The listed words with the one at `a` left out. -/
def memErase (m : Memory) (a : Nat) : Memory := m.filter (fun c => c.1 ≠ a)

/-- The listed words with `v`, not 0, at an address `a` that is not listed. -/
def memInsert (m : Memory) (a : Nat) (v : Word) : Memory :=
  match m with
  | [] => [(a, v)]
  | c :: cs => if a < c.1 then (a, v) :: c :: cs else c :: memInsert cs a v

/-- Write one word (R155). -/
def memWrite (m : Memory) (a : Word) (v : Word) : Memory :=
  if v = 0#16 then memErase m a.toNat else memInsert (memErase m a.toNat) a.toNat v

/-- Write words at consecutive addresses from `a` on. -/
def memWriteList (m : Memory) (a : Nat) (vs : List Word) : Memory :=
  match vs with
  | [] => m
  | v :: vs => memWriteList (memWrite m (toWord a) v) (a + 1) vs

/-- Whether the INIT clearing writes the word at `a`: every word, or every word but the setup block's (R3, R4). -/
def cleared (soft : Bool) (a : Nat) : Bool := !(soft && (Config.setupBase ≤ a && a < Config.setupEnd))

/-- Clear the word at `a` as the INIT clearing comes to it (R5). -/
def memClearOne (m : Memory) (soft : Bool) (a : Nat) : Memory := if cleared soft a then memErase m a else m

/-- Clear every word from address `a` on (R3, R4). -/
def memClearFrom (m : Memory) (soft : Bool) (a : Nat) : Memory := m.filter (fun c => !(a ≤ c.1 && cleared soft c.1))

end Sys2Proof.Machine
end

