-- ==== Sys2Proof/Machine/Flags.lean ====
section
/-! DEFINITION. The codes of the enumerations (Table 11-11), the bits of the flag words and of the attention registers
(Table 11-1, 11.6, 11.7) and the bits of CONTROL. -/

namespace Sys2Proof.Machine

/-! ### Enumeration codes (Table 11-11) -/

def gaugeCode : GaugeState → Word
  | .init => 0#16
  | .halted => 1#16
  | .armed => 2#16
  | .measuring => 3#16
  | .closing => 4#16
  | .waitClear => 5#16

def trackCode : TrackState → Word
  | .idle => 0#16
  | .tracking => 1#16
  | .deadReckoning => 2#16
  | .lost => 3#16

def firingCode : FiringState → Word
  | .suspended => 0#16
  | .permitted => 1#16

def headCode : HeadState → Word
  | .on => 0#16
  | .fault => 1#16

def sourceCode : TempSource → Word
  | .none => 0#16
  | .live => 1#16
  | .stale => 2#16

def slotCode : SlotState → Word
  | .free => 0#16
  | .ready => 1#16
  | .active => 2#16
  | .spent => 3#16
  | .refused => 4#16

def recCode : RecState → Word
  | .free => 0#16
  | .opened => 1#16
  | .complete => 2#16
  | .releasing => 3#16

def outcomeCode : TubeOutcome → Word
  | .normal => 0#16
  | .aborted => 1#16
  | .overlength => 2#16
  | .noOrder => 3#16

def polarityCode : Polarity → Word
  | .pos => 0#16
  | .neg => 1#16

def twistCode : Twist → Word
  | .cw => 0#16
  | .ccw => 1#16

def boolCode (b : Bool) : Word := if b then 1#16 else 0#16

/-- Command answers. -/
def ansCmdOk : Word := 1#16
def ansCmdSetupInvalid : Word := 2#16
def ansCmdIgnored : Word := 3#16
def ansCmdConflict : Word := 4#16

/-- Requests. -/
def reqNone : Word := 0#16
def reqPost : Word := 1#16
def reqCancel : Word := 2#16
def reqAmend : Word := 3#16
def reqRelease : Word := 4#16

/-- Answers of slots and records. -/
def ansNone : Word := 0#16
def ansOk : Word := 1#16
def ansBadState : Word := 2#16
def ansBadField : Word := 3#16
def ansBadRequest : Word := 4#16
def ansWithdrawn : Word := 5#16
def ansDropped : Word := 6#16

/-! ### Attention causes (Table 11-1) -/

def causeTube : BitVec 8 := 0x01#8
def causeSection : BitVec 8 := 0x02#8
def causeRequest : BitVec 8 := 0x04#8
def causePoolLow : BitVec 8 := 0x08#8
def causePermit : BitVec 8 := 0x10#8
def causeHead : BitVec 8 := 0x20#8
def causeTrack : BitVec 8 := 0x40#8
def causeSetup : BitVec 8 := 0x80#8

/-! ### Tube flags (11.6) -/

def tfWindowClamped : Word := 0x0001#16
def tfTempFallback : Word := 0x0002#16
def tfTempClamped : Word := 0x0004#16
def tfDeadReckoned : Word := 0x0008#16
def tfTrackingLost : Word := 0x0010#16
def tfPoolExhausted : Word := 0x0020#16
def tfPermitLost : Word := 0x0040#16
def tfHeadFault : Word := 0x0080#16
def tfAmended : Word := 0x0100#16
def tfLateShots : Word := 0x0200#16

/-! ### Section flags (11.7) -/

def sfEstimated : Word := 0x0001#16
def sfTempFallback : Word := 0x0002#16
def sfTempClamped : Word := 0x0004#16
def sfAmended : Word := 0x0008#16
def sfLate : Word := 0x0010#16
def sfPartial : Word := 0x0020#16
def sfNoData : Word := 0x0040#16
def sfLowCoverage : Word := 0x0080#16
def sfExcludedHead : Word := 0x0100#16
def sfExcludedTail : Word := 0x0200#16

/-- A flag if its condition holds, else no flag. -/
def flagIf (b : Bool) (f : Word) : Word := if b then f else 0#16

/-- A flag word with the flag `f` given if `b` holds. -/
def giveIf (b : Bool) (f w : Word) : Word := w ||| flagIf b f

/-- Whether a flag word carries the flag `f`. -/
def hasFlag (w f : Word) : Bool := w &&& f != 0#16

/-! ### CONTROL (Table 11-1) -/

def ctlRun : Word := 0x0001#16
def ctlStop : Word := 0x0002#16
def ctlResume : Word := 0x0004#16
def ctlSoftReset : Word := 0x0008#16
/-- The bit CLEAR_Hk. -/
def ctlClear (k : Head) : Word := 0x0010#16 <<< k.val

/-- Whether the order's head mask includes head `k` (R169). -/
def inMask (m : BitVec 4) (k : Head) : Bool := m.getLsbD k.val

end Sys2Proof.Machine
end

