-- ==== Sys2Proof/Machine/Ops.lean ====
section
/-! DEFINITION. The named operations over memory and registers that every meaning is made of: writing a word, publishing a status
word when its value changes, raising an attention cause, the gauge state, the heads, the gain codes, the tracking and firing
states, the open tube; and what the host reads and the outputs show. -/

namespace Sys2Proof.Machine

/-! ### Addresses (chapter 11) -/

def stGauge : Nat := 0x00
def stTracking : Nat := 0x01
def stFiring : Nat := 0x02
def stCommand : Nat := 0x03
def stSetupError : Nat := 0x04
def stFreeCount : Nat := 0x05
def stCurrent : Nat := 0x06
def stQueue : Nat := 0x07
def stCompleted : Nat := 0x0B
def stMissed : Nat := 0x0C
def stLastSerial : Nat := 0x0D
def stTSurf : Nat := 0x0E
def stSource : Nat := 0x0F
def stAge : Nat := 0x10
def stCounters : Nat := 0x11
def stSpeed : Nat := 0x18
def stPosition : Nat := 0x19
def stHeadState : Nat := 0x20
def stGain : Nat := 0x24
def stMisfires : Nat := 0x28
def stStray : Nat := 0x2C
def stLastValid : Nat := 0x30

/-- The address of the word at an offset of order slot `j` (9.1). -/
def slotAddr (j : SlotNo) (off : Nat) : Nat := Config.slotBase + Config.slotWords * j.val + off
/-- The address of the word at an offset of tube record `r` (8.2). -/
def recAddr (r : RecNo) (off : Nat) : Nat := Config.recordBase + Config.recordWords * r.val + off
/-- The address of the word at an offset of pool block `b` (10.1). -/
def blkAddr (b : BlockNo) (off : Nat) : Nat := Config.blockBase + Config.blockWords * b.val + off

/-! ### Memory and attention -/

/-- The part writes one word (R155). -/
def State.put (s : State) (a : Nat) (v : Word) : State := { s with mem := memWrite s.mem (toWord a) v }

/-- The part writes consecutive words (R155). -/
def State.putList (s : State) (a : Nat) (vs : List Word) : State := { s with mem := memWriteList s.mem a vs }

/-- The part rewrites a published word where its value changes, judged by the part's own copy (DEDUCED, log 18). -/
def State.putIf (s : State) (changed : Bool) (a : Nat) (v : Word) : State :=
  { s with mem := if changed then memWrite s.mem (toWord a) v else s.mem }

/-- Raise an attention cause (R160). -/
def State.raise (s : State) (c : BitVec 8) : State := { s with attnCause := s.attnCause ||| c }

/-- Write the command-answer word (R7). -/
def State.answerCmd (s : State) (a : Word) : State := s.put stCommand a

/-- A transition of the gauge state, with its word (R2). -/
def State.setGauge (s : State) (g : GaugeState) : State := ({ s with gauge := g } : State).put stGauge (gaugeCode g)

/-- Whether a gauge state runs the cycle timer and the temperature link (R2, R54). -/
def runs : GaugeState → Bool
  | .armed | .measuring | .closing | .waitClear => true
  | .init | .halted => false

/-! ### Setup in force -/

/-- The settings of a part that has no setup in force; no block that uses them runs then (DESIGN CHOICE, log 28). -/
def noSetup : Setup :=
  { cyclePeriod := 0, quietGate := 0, confWin := 0, misfireLimit := 0, autoRestart := false,
    headAngle := Vector.replicate 4 0, encFilter := .off, encStep := 0, stallMin := 0, drMax := 0, debounce := 0, pyroDiv := 0,
    pyroParity := .none, pyroStop := 0, pyroInverted := false, pyroMsbFirst := false, gapLimit := 0, staleMs := 0, poolLow := 0 }

/-- The internal setup copies in force (R11). -/
def State.cfg (s : State) : Setup := s.setup.getD noSetup

/-- The length of a cycle, in ct (R16). -/
def cycleCt (c : Setup) : Nat := Config.ctPerUs * c.cyclePeriod

/-- The length of slots 0, 1 and 2, in ct (R16). -/
def slotCt (c : Setup) : Nat := cycleCt c / 4

/-! ### Heads, channels, firing state -/

/-- Set a head's state, its word rewritten when it changes (R27). -/
def State.setHeadState (s : State) (k : Head) (h : HeadState) : State :=
  ({ s with heads := vset s.heads k { s.heads[k] with state := h } } : State).putIf
    (s.heads[k].state ≠ h) (stHeadState + k.val) (headCode h)

/-- Set a head's consecutive-misfire count, its word rewritten when it changes (R27). -/
def State.setMisfires (s : State) (k : Head) (n : Nat) : State :=
  ({ s with heads := vset s.heads k { s.heads[k] with misfires := n } } : State).putIf
    (s.heads[k].misfires ≠ n) (stMisfires + k.val) (toWord n)

/-- Set a head's stray-confirm count, its word rewritten when it changes (R25). -/
def State.setStray (s : State) (k : Head) (n : Nat) : State :=
  ({ s with heads := vset s.heads k { s.heads[k] with stray := n } } : State).putIf
    (s.heads[k].stray ≠ n) (stStray + k.val) (toWord n)

/-- One pulse on FIRE_k (R22). -/
def State.pulse (s : State) (k : Head) : State :=
  { s with heads := vset s.heads k { s.heads[k] with fires := s.heads[k].fires + 1 } }

/-- Set a channel's gain code, its word rewritten when it changes (R37). -/
def State.setGain (s : State) (k : Head) (g : Nat) : State :=
  ({ s with chans := vset s.chans k { s.chans[k] with gain := g } } : State).putIf
    (s.chans[k].gain ≠ g) (stGain + k.val) (toWord g)

/-- Load a channel's threshold DAC code (R42). The comparator outputs settle at it at the beginning of the coming ct, `State.standing`
(R43; DEDUCED, log 33). -/
def State.setDac (s : State) (k : Head) (c : Nat) : State :=
  { s with chans := vset s.chans k { s.chans[k] with dac := c } }

/-- Load a channel's capture polarity (R42). -/
def State.setPolarity (s : State) (k : Head) (p : Polarity) : State :=
  { s with chans := vset s.chans k { s.chans[k] with polarity := p } }

/-- Set the firing state, its word rewritten when it changes (R29). -/
def State.setFiring (s : State) (f : FiringState) : State :=
  ({ s with firing := f } : State).putIf (s.firing ≠ f) stFiring (firingCode f)

/-- Set the phase of the present slot's channel (R36). -/
def State.setPhase (s : State) (p : Phase) : State :=
  { s with slot := s.slot.map (fun h => { h with phase := p }) }

/-- The shot that a phase holds. -/
def phaseShot : Phase → Option Shot
  | .awaitConf sh | .blanking sh | .opened sh _ => some sh
  | .idle | .quiet _ => none

/-- The shot in flight, with its head (R22). -/
def State.inFlight (s : State) : Option (Head × Shot) :=
  s.slot.bind (fun h => (phaseShot h.phase).map (fun sh => (h.head, sh)))

/-! ### Tracker -/

/-- Set the tracking state, its word rewritten when it changes (R89). -/
def State.setTrack (s : State) (t : TrackState) : State :=
  ({ s with tracker := { s.tracker with state := t } } : State).putIf (s.tracker.state ≠ t) stTracking (trackCode t)

/-- The position word: z in whole mm (R89). -/
def positionOf (z : Nat) : Nat := min (z / 1000) 65535

/-- The speed word for a held period (R89). -/
def speedOf (encStep : Nat) : Option Nat → Nat
  | none => 0
  | some p => min (encStep * 1000 / p) 65535

/-- Set z, the position word rewritten when it changes (R89). -/
def State.setZ (s : State) (z : Nat) : State :=
  ({ s with tracker := { s.tracker with z := z } } : State).putIf
    (positionOf s.tracker.z ≠ positionOf z) stPosition (toWord (positionOf z))

/-- Set the held period, the speed word rewritten when it changes (R88, R89). -/
def State.setPLast (s : State) (p : Option Nat) : State :=
  ({ s with tracker := { s.tracker with pLast := p } } : State).putIf
    (speedOf s.cfg.encStep s.tracker.pLast ≠ speedOf s.cfg.encStep p) stSpeed (toWord (speedOf s.cfg.encStep p))

/-! ### The open tube -/

/-- Change the open-tube context, if there is one. -/
def State.modTube (s : State) (f : Tube → Tube) : State := { s with tube := s.tube.map f }

/-- Change the open-tube context of a tube that has a record; a missed tube keeps no trace (R126). -/
def State.modOpen (s : State) (f : Tube → Tube) : State :=
  s.modTube (fun t => if t.record.isSome then f t else t)

/-- Give the open tube a flag (R126). -/
def State.giveFlag (s : State) (f : Word) : State := s.modOpen (fun t => { t with flags := t.flags ||| f })

/-- Add to the open tube's totals (R126). -/
def State.addTotals (s : State) (f : Totals → Totals) : State := s.modOpen (fun t => { t with totals := f t.totals })

/-- The slot of the open tube's order: the order in use (R147). -/
def State.orderInUse (s : State) : Option SlotNo := s.tube.bind Tube.order

/-- The order snapshot of the open tube, as it now stands. -/
def State.tubeOrder (s : State) : Option Snapshot := s.orderInUse.bind (fun j => s.slots[j].snapshot)

/-! ### What the outside sees -/

/-- What a host read of an exchange memory word returns (R155, R3, R5). A read has no row and no effect (log 31). -/
def State.readMem (s : State) (a : Word) : Word :=
  if s.gauge = .init ∨ s.resetActive then 0#16 else memRead s.mem a.toNat

/-- What a host read of a port register returns (R159, R3, R5; log 31). -/
def State.readReg (s : State) (r : PortReg) : Word :=
  if s.resetActive then 0#16
  else match r with
    | .ident => Config.ident
    | .control => if s.gauge = .init then 0x8000#16 else 0#16
    | .attnCause => if s.gauge = .init then 0#16 else s.attnCause.setWidth 16
    | .attnMask => if s.gauge = .init then 0#16 else s.attnMask.setWidth 16

/-- The ATTN output (R160, R3, R5). -/
def State.attnLine (s : State) : Bool :=
  !s.resetActive && s.gauge != .init && s.attnCause &&& s.attnMask != 0#8

/-- The GAINk outputs (R37). -/
def State.gainLines (s : State) (k : Head) : BitVec 4 := BitVec.ofNat 4 s.chans[k].gain

/-- The phase of echo channel `k` (R36): that of the head slot for its own head, IDLE for every other. -/
def State.channelPhase (s : State) (k : Head) : Phase :=
  match s.slot with
  | some h => if h.head = k then h.phase else .idle
  | none => .idle

end Sys2Proof.Machine
end

