-- ==== Sys2Proof/Machine/Operands.lean ====
section
/-! DEFINITION. What the part reads from the host's words (R169): the setup block (Tables 1-4, 11-3), a recipe area (Tables 9-3,
11-5) with the window fit (R34) and the holdback bound (R131), an amendment area (Tables 9-4, 11-6); their checks in word order,
and the words in which the part shows an order's settings (Table 11-8). -/

namespace Sys2Proof.Machine

/-- A word read as an unsigned number. -/
def fieldAt (m : Memory) (a : Nat) : Nat := (memRead m a).toNat

/-- A word read as two's complement (R169). -/
def signedAt (m : Memory) (a : Nat) : Int := (memRead m a).toInt

/-- A 32-bit field, low word first (R168). -/
def field32At (m : Memory) (a : Nat) : Nat := fieldAt m a + 65536 * fieldAt m (a + 1)

/-- A number within a range, both ends included. -/
def within (lo hi x : Nat) : Bool := lo ≤ x && x ≤ hi

/-! ### Setup block -/

/-- The valid range of each setup field, in ascending word offset from 0 (Tables 1-4, 11-3). -/
def setupRanges : List (Nat × Nat) :=
  [(250, 10000), (0, 250), (5, 100), (1, 15), (0, 1), (0, 65535), (0, 65535), (0, 65535), (0, 65535), (0, 3), (10, 5000),
   (1, 1000), (1, 4095), (0, 100), (20, 65535), (0, 2), (1, 2), (0, 1), (0, 1), (2, 255), (10, 10000), (0, 951)]

/-- The offset of the first setup field, from offset `i` on, that lies outside its range (R9). -/
def firstBadSetup (m : Memory) : List (Nat × Nat) → Nat → Option Nat
  | [], _ => none
  | r :: rs, i => if within r.1 r.2 (fieldAt m (Config.setupBase + i)) then firstBadSetup m rs (i + 1) else some i

/-- The offset of the first invalid setup field (R9). -/
def setupError (m : Memory) : Option Nat := firstBadSetup m setupRanges 0

/-- The encoder filter setting of a code (Table 11-11). -/
def encFilterOf : Nat → EncFilter
  | 0 => .off
  | 1 => .mhz10
  | 2 => .mhz2p5
  | _ => .khz625

/-- The parity setting of a code (Table 11-11). -/
def parityOf : Nat → Parity
  | 0 => .none
  | 1 => .even
  | _ => .odd

/-- The fields of the setup block (Table 11-3). -/
def setupOf (m : Memory) : Setup :=
  let f := fun i => fieldAt m (Config.setupBase + i)
  { cyclePeriod := f 0, quietGate := f 1, confWin := f 2, misfireLimit := f 3, autoRestart := f 4 = 1,
    headAngle := #v[f 5, f 6, f 7, f 8], encFilter := encFilterOf (f 9), encStep := f 10, stallMin := f 11, drMax := f 12,
    debounce := f 13, pyroDiv := f 14, pyroParity := parityOf (f 15), pyroStop := f 16, pyroInverted := f 17 = 1,
    pyroMsbFirst := f 18 = 1, gapLimit := f 19, staleMs := f 20, poolLow := f 21 }

/-! ### Window fit (R34) -/

/-- The room for the echo window in a slot, in ct (R34). -/
def fitRoom (c : Setup) (b : Nat) : Int := (slotCt c : Int) - c.quietGate - c.confWin - b

/-- The echo window after the fit, in ct (R34). -/
def fitWindow (c : Setup) (b w : Nat) : Nat := (min (w : Int) (fitRoom c b)).toNat

/-- Whether the window fit accepts blanking `b` and window `w` under the setup in force (R34). -/
def fitOk (setup : Option Setup) (b w : Nat) : Bool :=
  match setup with
  | none => false
  | some c => 25 ≤ min (w : Int) (fitRoom c b) && b + w ≤ 1630

/-! ### Recipe area -/

/-- The 17 velocity points of a recipe area whose slot begins at `a`. -/
def velocityOf (m : Memory) (a : Nat) : Vector Nat 17 := Vector.ofFn (fun i => fieldAt m (a + 39 + i.val))

/-- The fields of a recipe area whose slot begins at address `a` (Table 11-5). -/
def recipeOf (m : Memory) (a : Nat) : Recipe :=
  let f := fun i => fieldAt m (a + i)
  { tag := Vector.ofFn (fun i => memRead m (a + 16 + i.val)), lotCount := f 20, headMask := BitVec.ofNat 4 (f 21),
    threshold := f 22, polarity := if f 23 = 1 then .neg else .pos, noiseLimit := f 24, blanking := f 25, window := f 26,
    holdoff := f 27, captureMax := f 28, peakDelay := f 29, gmin := f 30, gmax := f 31, g0 := f 32, agcOn := f 33 = 1,
    agcLo := f 34, agcHi := f 35, ctol := f 36, fallbackT := f 37, coreOffset := signedAt m (a + 38),
    velocity := velocityOf m a, trim := signedAt m (a + 56), tnom := f 57, bandLo := f 58, bandHi := f 59,
    lSec := field32At m (a + 60), pitch := field32At m (a + 62), twist := if f 64 = 1 then .ccw else .cw, occMin := f 65,
    headSkip := field32At m (a + 66), tailSkip := field32At m (a + 68), maxLen := field32At m (a + 70) }

/-- The check of each recipe field, by ascending word offset (Table 9-3): its offset and whether it is valid. -/
def recipeChecks (m : Memory) (setup : Option Setup) (a : Nat) : List (Nat × Bool) :=
  let f := fun i => fieldAt m (a + i)
  let r := recipeOf m a
  [(20, true), (21, within 1 15 (f 21)), (22, within 1 255 r.threshold), (23, within 0 1 (f 23)), (24, within 0 255 r.noiseLimit),
   (25, within 0 1500 r.blanking), (26, within 1 1630 r.window && fitOk setup r.blanking r.window), (27, within 5 500 r.holdoff),
   (28, within 2 6 r.captureMax), (29, within 1 50 r.peakDelay), (30, within 0 15 r.gmin), (31, within r.gmin 15 r.gmax),
   (32, within r.gmin r.gmax r.g0), (33, within 0 1 (f 33)), (34, within 0 254 r.agcLo), (35, within (r.agcLo + 1) 255 r.agcHi),
   (36, within 1 64 r.ctol), (37, within 6000 14000 r.fallbackT), (38, -500 ≤ r.coreOffset && r.coreOffset ≤ 2000)]
  ++ (List.range 17).map (fun i => (39 + i, within 3000 6500 (f (39 + i))))
  ++ [(56, -256 ≤ r.trim && r.trim ≤ 255), (57, within 1000 60000 r.tnom), (58, within 100 (r.tnom - 1) r.bandLo),
   (59, within 100 30000 r.bandHi && r.tnom + r.bandHi ≤ 65535), (60, within 20000 500000 r.lSec),
   (62, within 20000 2000000 r.pitch), (64, within 0 1 (f 64)), (65, within 8 32 r.occMin), (66, within 0 2000000 r.headSkip),
   (68, within 0 1000000 r.tailSkip && ceilDiv r.tailSkip r.lSec ≤ 22), (70, within 1000000 60000000 r.maxLen)]

/-- The offset of the first field of a list of checks that fails. -/
def firstBad : List (Nat × Bool) → Option Nat
  | [] => none
  | c :: cs => if c.2 then firstBad cs else some c.1

/-- The offset within slot `j` of the first invalid recipe field (R141, R142). -/
def recipeError (m : Memory) (setup : Option Setup) (j : SlotNo) : Option Nat :=
  firstBad (recipeChecks m setup (slotAddr j 0))

/-- The snapshot of an accepted POST (R143, R34). -/
def snapshotOf (m : Memory) (c : Setup) (j : SlotNo) : Snapshot :=
  let r := recipeOf m (slotAddr j 0)
  { recipe := r, wEff := fitWindow c r.blanking r.window, clamped := fitWindow c r.blanking r.window < r.window }

/-! ### Amendment area -/

/-- The fields of an amendment area whose slot begins at address `a` (Table 11-6). -/
def amendmentOf (m : Memory) (a : Nat) : Amendment :=
  let f := fun i => fieldAt m (a + i)
  { threshold := f 128, noiseLimit := f 129, gmin := f 130, gmax := f 131, g0 := f 132, agcOn := f 133 = 1, agcLo := f 134,
    agcHi := f 135, ctol := f 136, fallbackT := f 137, coreOffset := signedAt m (a + 138), trim := signedAt m (a + 139),
    bandLo := f 140, bandHi := f 141, immediate := f 142 = 1 }

/-- The check of each amendment field, by ascending word offset (Table 9-4), with the snapshot's tnom. -/
def amendChecks (m : Memory) (tnom a : Nat) : List (Nat × Bool) :=
  let f := fun i => fieldAt m (a + i)
  let x := amendmentOf m a
  [(128, within 1 255 x.threshold), (129, within 0 255 x.noiseLimit), (130, within 0 15 x.gmin), (131, within x.gmin 15 x.gmax),
   (132, within x.gmin x.gmax x.g0), (133, within 0 1 (f 133)), (134, within 0 254 x.agcLo), (135, within (x.agcLo + 1) 255 x.agcHi),
   (136, within 1 64 x.ctol), (137, within 6000 14000 x.fallbackT), (138, -500 ≤ x.coreOffset && x.coreOffset ≤ 2000),
   (139, -256 ≤ x.trim && x.trim ≤ 255), (140, within 100 (tnom - 1) x.bandLo),
   (141, within 100 30000 x.bandHi && tnom + x.bandHi ≤ 65535), (142, within 0 1 (f 142))]

/-- The offset within slot `j` of the first invalid amendment field (R150). -/
def amendError (m : Memory) (tnom : Nat) (j : SlotNo) : Option Nat := firstBad (amendChecks m tnom (slotAddr j 0))

/-- Replace the amendable fields of a recipe (R152). -/
def amendRecipe (r : Recipe) (x : Amendment) : Recipe :=
  { r with threshold := x.threshold, noiseLimit := x.noiseLimit, gmin := x.gmin, gmax := x.gmax, g0 := x.g0, agcOn := x.agcOn,
           agcLo := x.agcLo, agcHi := x.agcHi, ctol := x.ctol, fallbackT := x.fallbackT, coreOffset := x.coreOffset,
           trim := x.trim, bandLo := x.bandLo, bandHi := x.bandHi }

/-- Apply an amendment to a snapshot (R152). -/
def amendSnapshot (n : Snapshot) (x : Amendment) : Snapshot := { n with recipe := amendRecipe n.recipe x }

/-! ### Settings as the part shows them -/

/-- The order settings of a tube record, words 54 to 87 (Table 11-8). -/
def settingsWords (n : Snapshot) : List Word :=
  let r := n.recipe
  [r.headMask.setWidth 16, toWord r.threshold, polarityCode r.polarity, toWord r.noiseLimit, toWord r.blanking, toWord n.wEff,
   toWord r.holdoff, toWord r.captureMax, toWord r.peakDelay, toWord r.gmin, toWord r.gmax, toWord r.g0, boolCode r.agcOn,
   toWord r.agcLo, toWord r.agcHi, toWord r.ctol, toWord r.fallbackT, intWord r.coreOffset, intWord r.trim, toWord r.tnom,
   toWord r.bandLo, toWord r.bandHi]
  ++ words32 r.lSec ++ words32 r.pitch ++ [twistCode r.twist, toWord r.occMin] ++ words32 r.headSkip ++ words32 r.tailSkip
  ++ words32 r.maxLen

end Sys2Proof.Machine
end

