-- ==== Sys2Proof/Machine/Pool.lean ====
section
/-! DEFINITION. The block pool manager (10.5, 10.6): allocation, the POOL_LOW judgement, requests to tube records, the release queue
and the release scanner; the meanings of SCAN_START, SCAN_STEP and SCAN_END. -/

namespace Sys2Proof.Machine

/-- Set a tube record's state, with its word (8.2). -/
def State.setRecState (s : State) (r : RecNo) (x : RecState) : State :=
  ({ s with records := vset s.records r x } : State).put (recAddr r 0) (recCode x)

/-- Write the free-block count word (R161). -/
def State.putFreeCount (s : State) : State := s.put stFreeCount (toWord s.pool.free.length)

/-- Whether the free-block count stands below the pool_low in force (R163). -/
def State.poolIsLow (s : State) : Bool := s.pool.free.length < s.cfg.poolLow

/-- The POOL_LOW judgement after an allocation (R163). -/
def State.judgeLow (s : State) : State :=
  if s.setup.isSome && s.pool.lowArmed && s.poolIsLow then
    ({ s with pool := { s.pool with lowArmed := false } } : State).raise causePoolLow
  else s

/-- The POOL_LOW judgement after a scan step returned a block (R163). -/
def State.rearmLow (s : State) : State :=
  if s.setup.isSome && !s.pool.lowArmed && !s.poolIsLow then { s with pool := { s.pool with lowArmed := true } } else s

/-- The POOL_LOW judgement of a successful RUN (R163; its place in R10's steps: DEDUCED, log 29). -/
def State.judgeLowAtRun (s : State) : State :=
  if s.poolIsLow then ({ s with pool := { s.pool with lowArmed := false } } : State).raise causePoolLow
  else { s with pool := { s.pool with lowArmed := true } }

/-- Take block `b`, the front of the free list, for record `r`; `rest` is the list behind it (R162). -/
def State.takeBlock (s : State) (r : RecNo) (b : BlockNo) (rest : List BlockNo) : State :=
  ({ s with pool := { s.pool with free := rest, owner := vset s.pool.owner b (some r) } } : State).putFreeCount.judgeLow

/-- Return block `b` to the tail of the free list (R166). -/
def State.returnBlock (s : State) (b : BlockNo) : State :=
  ({ s with pool := { s.pool with free := s.pool.free ++ [b], owner := vset s.pool.owner b none } } : State).putFreeCount.rearmLow

/-- With the scanner idle, begin the scan of the record at the front of the release queue, if there is one (R165). -/
def State.serveQueue (s : State) : State :=
  match s.pool.scan, s.pool.releaseQueue with
  | none, r :: rest =>
    { s with pool := { s.pool with releaseQueue := rest, scan := some { record := r, next := 0, startAt := s.now } } }
  | _, _ => s

/-- Examine one owner-table entry (R166). -/
def State.scanOne (s : State) : State :=
  match s.pool.scan with
  | none => s
  | some c =>
    if h : c.next < 952 then
      let s' : State := { s with pool := { s.pool with scan := some { c with next := c.next + 1 } } }
      if s.pool.owner[c.next] = some c.record then s'.returnBlock ⟨c.next, h⟩ else s'
    else s

/-- End the scan when every entry has been examined, and begin the next one (R166, R165). -/
def State.scanFinish (s : State) : State :=
  match s.pool.scan with
  | none => s
  | some c =>
    if c.next < 952 then s
    else
      ((((({ s with pool := { s.pool with scan := none } } : State).put (recAddr c.record 2) ansOk).setRecState c.record .free).put
        (recAddr c.record 1) reqNone).raise causeRequest).serveQueue

/-- The request word of record `r` as an answer writes it back (R164). -/
def State.recWriteBack (s : State) (r : RecNo) : Word := if s.records[r] = .releasing then reqRelease else reqNone

/-- Answer a request of record `r` (R164). -/
def State.answerRec (s : State) (r : RecNo) (a : Word) : State :=
  ((s.put (recAddr r 2) a).put (recAddr r 1) (s.recWriteBack r)).raise causeRequest

/-- Take the request event of record `r` that carries the value `v` (R164). -/
def State.recRequest (s : State) (r : RecNo) (v : Word) : State :=
  if v = reqNone then s
  else if v = reqRelease then
    if s.records[r] = .complete then
      let s1 := s.setRecState r .releasing
      ({ s1 with pool := { s1.pool with releaseQueue := s1.pool.releaseQueue ++ [r] } } : State).serveQueue
    else s.answerRec r ansBadState
  else s.answerRec r ansBadRequest

/-- SCAN_START (R165). -/
def execScanStart (s : State) : Result := .next s.serveQueue

/-- SCAN_STEP (R166). -/
def execScanStep (s : State) : Result := .next s.scanOne

/-- SCAN_END (R166). -/
def execScanEnd (s : State) : Result := .next s.scanFinish

end Sys2Proof.Machine
end

