-- ==== Sys2Proof/Machine/Thickness.lean ====
section
/-! DEFINITION. The thickness computer (chapter 5): from echo times, held temperature, bound settings and stamp to a shot record. -/

namespace Sys2Proof.Machine

/-- What an echo channel hands over at a window close (R51). -/
structure EchoResult where
  echoes : List Nat
  cut : Bool
deriving DecidableEq, Repr

/-- The intervals between successive echo times (R73). -/
def intervals : List Nat → List Nat
  | e :: e' :: es => (e' - e) :: intervals (e' :: es)
  | _ => []

/-- Whether an interval lies within the tolerance of the reference interval (R73). -/
def keeps (dRef tol d : Nat) : Bool := (d - dRef) + (dRef - d) ≤ tol

/-- The tolerance of a train (R73). -/
def tolerance (dRef ctol : Nat) : Nat := dRef * ctol / 256

/-- The train length m: the number of echo times kept (R73). -/
def trainLength (ctol : Nat) (echoes : List Nat) : Nat :=
  match intervals echoes with
  | [] => echoes.length
  | d :: ds => 2 + (ds.takeWhile (keeps d (tolerance d ctol))).length

/-- The train span Δ of the first `m` echo times (R79). -/
def trainSpan (echoes : List Nat) (m : Nat) : Nat := echoes.getD (m - 1) 0 - echoes.getD 0 0

/-- The effective temperature with its flags (R75, R76). -/
structure EffTemp where
  tEff : Nat
  fallback : Bool
  clamped : Bool
deriving DecidableEq, Repr

/-- The base temperature (R75). -/
def baseTemp (source : TempSource) (tSurf fallbackT : Nat) : Nat := if source = .live then tSurf else fallbackT

/-- The effective temperature of a take (R75, R76). -/
def effTemp (source : TempSource) (tSurf : Nat) (r : Recipe) : EffTemp :=
  let t : Int := (baseTemp source tSurf r.fallbackT : Int) + r.coreOffset
  { tEff := (max 6000 (min t 14000)).toNat, fallback := source ≠ .live, clamped := t < 6000 || 14000 < t }

/-- Velocity point `k` of an order, in m/s (R70). -/
def velocityAt (r : Recipe) (k : Nat) : Nat := r.velocity.toList.getD k 0

/-- The interpolated sound velocity, in m/s (R77). -/
def velocityOfTemp (r : Recipe) (tEff : Nat) : Int :=
  let k := min 15 ((tEff - 6000) / 500)
  (velocityAt r k : Int)
    + nearestInt (((velocityAt r (k + 1) : Int) - velocityAt r k) * ((tEff : Int) - (6000 + 500 * (k : Int)))) 500

/-- The trimmed velocity, in m/s (R78). -/
def trimVelocity (v trim : Int) : Int := nearestInt (v * (4096 + trim)) 4096

/-- The thickness in full width, in µm, of a train of `m` echoes over `span` tu (R79). -/
def thickness (vEff : Int) (span m : Nat) : Int := nearestInt (vEff * span) (8000 * (m - 1))

/-- Whether a thickness lies in the plausibility band (R80). -/
def inBand (r : Recipe) (t : Int) : Bool := (r.tnom : Int) - r.bandLo ≤ t && t ≤ (r.tnom : Int) + r.bandHi

/-- A shot record without a thickness (R71, R72, R81). -/
def bareRecord (k : Head) (sh : Shot) (e : EffTemp) (o : ShotOutcome) (cut : Bool) : ShotRecord :=
  { head := k, sector := sh.stamp.sector, secIdx := sh.stamp.secIdx, outcome := o, t := 0, shortTrain := false, tEff := e.tEff,
    tempFallback := e.fallback, tempClamped := e.clamped, estimated := sh.stamp.estimated, unmapped := sh.stamp.unmapped,
    cut := cut }

/-- The record of a confirmed shot with at least two echoes (R73 to R80). -/
def measuredRecord (k : Head) (sh : Shot) (e : EffTemp) (x : EchoResult) : ShotRecord :=
  let r := sh.bound.recipe
  let m := trainLength r.ctol x.echoes
  let t := thickness (trimVelocity (velocityOfTemp r e.tEff) r.trim) (trainSpan x.echoes m) m
  let b := bareRecord k sh e (if inBand r t then .valid else .outOfBand) x.cut
  { b with t := if inBand r t then t.toNat else 0, shortTrain := m < x.echoes.length }

/-- The record of a confirmed shot (R72). -/
def confirmedRecord (k : Head) (sh : Shot) (e : EffTemp) (x : EchoResult) : ShotRecord :=
  match x.echoes with
  | [] => bareRecord k sh e .noEcho x.cut
  | [_] => bareRecord k sh e .noPair x.cut
  | _ => measuredRecord k sh e x

/-- The effective temperature of a shot taken now (R66, R75, R76). -/
def State.tempFor (s : State) (sh : Shot) : EffTemp := effTemp s.link.source s.link.tSurf sh.bound.recipe

/-- Write the last-valid-thickness word of a VALID record's head (R84). -/
def State.noteValid (s : State) (r : ShotRecord) : State :=
  if r.outcome = .valid then
    ({ s with lastValid := vset s.lastValid r.head r.t } : State).put (stLastValid + r.head.val) (toWord r.t)
  else s

end Sys2Proof.Machine
end

