-- ==== Sys2Proof/Machine/Sections.lean ====
section
/-! DEFINITION. Section maps (chapter 7) and the writing of sections (8.6 to 8.8): taking shot records, completing a section with its
statistics and eccentricity, boundary crossings, the holdback queue with its release passes, section blocks and the tube
accumulators; the meaning of CLOSING_SECTION_COMPLETION. -/

namespace Sys2Proof.Machine

/-! ### Accumulators -/

/-- A new accumulator for section `i` (R103). -/
def newAccum (i : Nat) (flags : Word) : Accum :=
  { index := i, counts := Vector.replicate 32 0, sums := Vector.replicate 32 0, n := 0, sumT := 0, sumT2 := 0, range := none,
    sumTEff := 0, noEcho := 0, noPair := 0, outOfBand := 0, noisy := 0, misfire := 0, shortTrain := 0,
    heads := Vector.replicate 4 0, flags := flags }

/-- Widen a least and a greatest value (R105, R133). -/
def widen (range : Option (Nat × Nat)) (lo hi : Nat) : Option (Nat × Nat) :=
  match range with
  | none => some (lo, hi)
  | some (a, b) => some (min a lo, max b hi)

/-- Count a thickness in its sector (R105, step 5). -/
def addSector (a : Accum) (i : Fin 32) (t : Nat) : Accum :=
  if a.counts[i] < 65535 then
    { a with counts := vset a.counts i (a.counts[i] + 1), sums := vset a.sums i (a.sums[i] + t) }
  else a

/-- Add a VALID record (R105). -/
def addValid (a : Accum) (r : ShotRecord) : Accum :=
  if a.n < 4294967295 then
    { addSector a r.sector r.t with
      n := a.n + 1, sumT := a.sumT + r.t, sumT2 := a.sumT2 + r.t * r.t, range := widen a.range r.t r.t,
      sumTEff := a.sumTEff + r.tEff, heads := vset a.heads r.head (sat16 a.heads[r.head]) }
  else a

/-- Add a record by its outcome (Table 7-2). -/
def addOutcome (a : Accum) (r : ShotRecord) : Accum :=
  match r.outcome with
  | .valid => addValid a r
  | .outOfBand => { a with outOfBand := sat16 a.outOfBand }
  | .noPair => { a with noPair := sat16 a.noPair }
  | .noEcho => { a with noEcho := sat16 a.noEcho }
  | .noisy => { a with noisy := sat16 a.noisy }
  | .misfire => { a with misfire := sat16 a.misfire }

/-- Take a record into an accumulator (R104, R106). -/
def takeInto (a : Accum) (r : ShotRecord) : Accum :=
  let b := addOutcome a r
  { b with
    shortTrain := if r.shortTrain then sat16 b.shortTrain else b.shortTrain
    flags := giveIf r.tempClamped sfTempClamped (giveIf r.tempFallback sfTempFallback (giveIf r.estimated sfEstimated b.flags)) }

/-! ### Completing a section -/

/-- The cosine and sine weights of the 32 sectors (Table 7-4). -/
def weights : List (Int × Int) :=
  [(16305, 1606), (15679, 4756), (14449, 7723), (12665, 10394), (10394, 12665), (7723, 14449), (4756, 15679), (1606, 16305),
   (-1606, 16305), (-4756, 15679), (-7723, 14449), (-10394, 12665), (-12665, 10394), (-14449, 7723), (-15679, 4756), (-16305, 1606),
   (-16305, -1606), (-15679, -4756), (-14449, -7723), (-12665, -10394), (-10394, -12665), (-7723, -14449), (-4756, -15679),
   (-1606, -16305), (1606, -16305), (4756, -15679), (7723, -14449), (10394, -12665), (12665, -10394), (14449, -7723),
   (15679, -4756), (16305, -1606)]

/-- The sector means, 0 in a sector without a count (R116). -/
def sectorMeans (a : Accum) : Vector Nat 32 :=
  Vector.ofFn (fun i => if a.counts[i] = 0 then 0 else nearestNat a.sums[i] a.counts[i])

/-- The number of occupied sectors (R116). -/
def occupiedOf (a : Accum) : Nat := (a.counts.toList.filter (fun c => c ≠ 0)).length

/-- The occupied sectors' numbers with their means, by rising number, from sector `i` on. -/
def occupiedMeans : List Nat → List Nat → Nat → List (Nat × Nat)
  | c :: cs, m :: ms, i => if c = 0 then occupiedMeans cs ms (i + 1) else (i, m) :: occupiedMeans cs ms (i + 1)
  | _, _, _ => []

/-- The first place of the smallest mean (R116). -/
def thinnest : List (Nat × Nat) → Option (Nat × Nat)
  | [] => none
  | x :: xs =>
    match thinnest xs with
    | none => some x
    | some y => if y.2 < x.2 then some y else some x

/-- The sum of means times weights over the occupied sectors (R117, step 2). Unoccupied sectors have the mean 0. -/
def weighted (ms : List Nat) (ws : List Int) : Int :=
  match ms, ws with
  | m :: ms, w :: ws => (m : Int) * w + weighted ms ws
  | _, _ => 0

/-- The eccentricity in per mille from the sector means of `occ` occupied sectors (R117). -/
def eccentricity (ms : List Nat) (occ : Nat) : Nat :=
  let mean := nearestNat ms.sum occ
  let cr := nearestInt (weighted ms (weights.map Prod.fst)) 16384
  let sr := nearestInt (weighted ms (weights.map Prod.snd)) 16384
  let amp := nearestNat (2 * isqrt (cr * cr + sr * sr).toNat) occ
  min 1000 (nearestNat (1000 * amp) mean)

/-- The section result of an accumulator that ends at `endZ`, under section length `lSec` and occupancy limit `occMin`
(R113 to R118). -/
def completeAccum (lSec occMin : Nat) (a : Accum) (endZ : Nat) (flags : Word) : SectionResult :=
  let base : SectionResult :=
    { index := a.index, startZ := a.index * lSec, endZ := endZ, n := a.n, sumT := a.sumT, noEcho := a.noEcho, noPair := a.noPair,
      outOfBand := a.outOfBand, noisy := a.noisy, misfire := a.misfire, shortTrain := a.shortTrain, heads := a.heads,
      min := 0, max := 0, mean := 0, sd := 0, tMean := 0, means := Vector.replicate 32 0, occupied := 0, thin := none, ecc := 0,
      flags := a.flags ||| flags }
  if a.n = 0 then { base with flags := base.flags ||| sfNoData }
  else
    let occ := occupiedOf a
    let ms := sectorMeans a
    { base with
      min := (a.range.getD (0, 0)).1
      max := (a.range.getD (0, 0)).2
      mean := nearestNat a.sumT a.n
      sd := isqrt (a.n * a.sumT2 - a.sumT * a.sumT) / a.n
      tMean := nearestNat a.sumTEff a.n
      means := ms
      occupied := occ
      thin := (thinnest (occupiedMeans a.counts.toList ms.toList 0)).map Prod.fst
      ecc := if occ < occMin then 0 else eccentricity ms.toList occ
      flags := giveIf (occ < occMin) sfLowCoverage base.flags }

/-! ### Writing sections -/

/-- The 64 words of a section block (Table 11-9), the link word none. -/
def blockWordsOf (x : SectionResult) : List Word :=
  [Config.noneWord, toWord x.index] ++ words32 x.startZ ++ [x.flags, satWord x.n, toWord x.noEcho, toWord x.noPair,
    toWord x.outOfBand, toWord x.noisy, toWord x.misfire, toWord x.shortTrain, toWord x.min, toWord x.max, toWord x.mean,
    toWord x.sd, toWord x.ecc, (x.thin.map toWord).getD Config.noneWord, toWord x.occupied, toWord x.tMean]
  ++ x.heads.toList.map toWord ++ x.means.toList.map toWord ++ words32 x.endZ ++ List.replicate 6 0#16

/-- Whether a section is counted in the tube summary: included and not NO_DATA (R133). -/
def countsInSummary (x : SectionResult) : Bool :=
  !(hasFlag x.flags sfExcludedHead || hasFlag x.flags sfExcludedTail || hasFlag x.flags sfNoData)

/-- Offer a section to the tube accumulators (R133). -/
def offer (a : TubeAccum) (x : SectionResult) : TubeAccum :=
  if countsInSummary x then
    { sumN := a.sumN + x.n, sumT := a.sumT + x.sumT, range := widen a.range x.min x.max,
      best := match a.best with
        | none => some (x.ecc, x.index)
        | some b => if b.1 < x.ecc then some (x.ecc, x.index) else some b
      count := a.count + 1 }
  else a

/-- Offer a section to the open tube (R132, step 6). -/
def State.offerSection (s : State) (x : SectionResult) : State := s.modTube (fun t => { t with accum := offer t.accum x })

/-- A section that finds no free block is lost (R132, step 1). -/
def State.loseSection (s : State) (r : RecNo) (t : Tube) (x : SectionResult) : State :=
  ((s.modTube (fun u => { u with lost := sat16 u.lost, flags := u.flags ||| tfPoolExhausted })).putIf
    (t.lost ≠ sat16 t.lost) (recAddr r 12) (toWord (sat16 t.lost))).offerSection x

/-- Publish a section in the allocated block `b` (R132, steps 3 to 6). -/
def State.publishSection (s : State) (r : RecNo) (t : Tube) (b : BlockNo) (x : SectionResult) : State :=
  let s1 := s.putList (blkAddr b 0) (blockWordsOf x)
  let s2 := match t.lastBlock with
    | some p => s1.put (blkAddr p 0) (toWord b.val)
    | none => s1.put (recAddr r 10) (toWord b.val)
  let s3 := s2.modTube (fun u => { u with lastBlock := some b, written := sat16 u.written })
  ((s3.put (recAddr r 11) (toWord (sat16 t.written))).raise causeSection).offerSection x

/-- Write a section that leaves the holdback queue (R132, R162). -/
def State.writeSection (s : State) (x : SectionResult) : State :=
  match s.tube with
  | none => s
  | some t =>
    match t.record with
    | none => s
    | some r =>
      match s.pool.free with
      | [] => s.loseSection r t x
      | b :: rest => (s.takeBlock r b rest).publishSection r t b x

/-- Write sections in order. -/
def State.writeSections (s : State) : List SectionResult → State
  | [] => s
  | x :: xs => (s.writeSection x).writeSections xs

/-! ### Holdback queue (R130) -/

/-- The settings of the open tube's order, or none of consequence where there is no order. -/
def State.lSec (s : State) : Nat := (s.tubeOrder.map (fun n => n.recipe.lSec)).getD 0
/-- The tail_skip of the open tube's order. -/
def State.tailSkip (s : State) : Nat := (s.tubeOrder.map (fun n => n.recipe.tailSkip)).getD 0
/-- The head_skip of the open tube's order. -/
def State.headSkip (s : State) : Nat := (s.tubeOrder.map (fun n => n.recipe.headSkip)).getD 0
/-- The occ_min of the open tube's order. -/
def State.occMin (s : State) : Nat := (s.tubeOrder.map (fun n => n.recipe.occMin)).getD 0

/-- The z that release passes use: the present z, or z_tail once measuring has ended (R130). -/
def State.passZ (s : State) : Nat := ((s.tube.bind Tube.zTail)).getD s.tracker.z

/-- The sections in the holdback queue. -/
def State.held (s : State) : List SectionResult := (s.tube.map Tube.holdback).getD []

/-- A release pass: the front sections whose end lies tail_skip or more behind z leave the queue and are written (R130). -/
def State.releasePass (s : State) : State :=
  let leaves := fun (x : SectionResult) => decide (x.endZ + s.tailSkip ≤ s.passZ)
  (s.modTube (fun t => { t with holdback := t.holdback.dropWhile leaves })).writeSections (s.held.takeWhile leaves)

/-- A section result with its head-zone mark (R129). -/
def markHead (lSec headSkip : Nat) (x : SectionResult) : SectionResult :=
  { x with flags := giveIf (x.index * lSec < headSkip) sfExcludedHead x.flags }

/-- A section result with its tail-zone mark (R129). -/
def markTail (tailSkip zTail : Nat) (x : SectionResult) : SectionResult :=
  { x with flags := giveIf (zTail < x.endZ + tailSkip) sfExcludedTail x.flags }

/-- Append a section result to the holdback queue, with its head-zone mark (R130). -/
def State.appendHeld (s : State) (x : SectionResult) : State :=
  s.modTube (fun t => { t with holdback := t.holdback ++ [markHead s.lSec s.headSkip x] })

/-- Complete an accumulator and hand its result on: append, then a release pass (R113, R130). -/
def State.completeSection (s : State) (a : Accum) (flags : Word) : State :=
  (s.appendHeld (completeAccum s.lSec s.occMin a ((a.index + 1) * s.lSec) flags)).releasePass

/-! ### Crossings (R108 to R111) -/

/-- Whether the shot in flight is stamped for section `i` (R108). -/
def State.flightFor (s : State) (i : Nat) : Bool :=
  match s.inFlight with
  | some p => p.2.stamp.secIdx == i
  | none => false

/-- Complete the CLOSING section, if there is one, with the flag LATE if its awaited shot is still in flight (R110). -/
def State.forceClosing (s : State) : State :=
  match s.tube.bind Tube.closing with
  | none => s
  | some c => (s.modTube (fun t => { t with closing := none })).completeSection c (flagIf (s.flightFor c.index) sfLate)

/-- The crossing of the end of the OPEN section `a` (R108, R110); `mark` is ESTIMATED in a synthetic change (R111). -/
def State.crossOne (s : State) (a : Accum) (mark : Word) : State :=
  let s1 := s.forceClosing
  let c := { a with flags := a.flags ||| mark }
  let s2 := s1.modTube (fun t => { t with opened := some (newAccum (a.index + 1) mark) })
  if s1.flightFor a.index then s2.modTube (fun t => { t with closing := some c })
  else s2.completeSection c 0#16

/-- The crossings of a position change from `before` to `after`, at most `fuel` of them, in ascending order (R111). -/
def State.crossings (s : State) (mark : Word) (before after : Nat) : Nat → State
  | 0 => s
  | fuel + 1 =>
    match s.tube.bind Tube.opened with
    | none => s
    | some a =>
      if before < (a.index + 1) * s.lSec ∧ (a.index + 1) * s.lSec ≤ after then
        (s.crossOne a mark).crossings mark before after fuel
      else s

/-- What the section accumulator and the holdback queue do with a position change (R97, R111, R130). -/
def State.takeChange (s : State) (synthetic : Bool) (before after : Nat) : State :=
  (s.crossings (flagIf synthetic sfEstimated) before after (after / s.lSec - before / s.lSec)).releasePass

/-! ### Shot records (R104, R107, R126) -/

/-- The totals after a shot record (Table 8-2). -/
def addRecordTotals (late : Bool) (r : ShotRecord) (t : Totals) : Totals :=
  let u := match r.outcome with
    | .valid => { t with valid := sat32 t.valid 1 }
    | .noEcho => { t with noEcho := sat32 t.noEcho 1 }
    | .noPair => { t with noPair := sat32 t.noPair 1 }
    | .outOfBand => { t with outOfBand := sat32 t.outOfBand 1 }
    | .noisy => { t with noisy := sat32 t.noisy 1 }
    | .misfire => { t with misfire := sat32 t.misfire 1 }
  { u with unmapped := if r.unmapped then sat32 u.unmapped 1 else u.unmapped, late := if late then sat32 u.late 1 else u.late }

/-- Whether a record is a late shot of the tube (a record above every index cannot arise and goes nowhere: log 30): not UNMAPPED, and
lower than the index of every accumulator present (R104, R107). -/
def isLate (t : Tube) (r : ShotRecord) : Bool :=
  !r.unmapped && (t.opened.toList ++ t.closing.toList).all (fun a => r.secIdx < a.index)

/-- Route a record to the accumulator its index names (R104). -/
def routeTo (r : ShotRecord) (a : Accum) : Accum := if !r.unmapped && a.index == r.secIdx then takeInto a r else a

/-- The open tube after a shot record (R83, R104, R126). -/
def tubeTakes (r : ShotRecord) (t : Tube) : Tube :=
  { t with
    totals := addRecordTotals (isLate t r) r t.totals
    flags := giveIf (isLate t r) tfLateShots (giveIf r.cut tfWindowClamped (giveIf r.tempClamped tfTempClamped
      (giveIf r.tempFallback tfTempFallback t.flags)))
    opened := t.opened.map (routeTo r)
    closing := t.closing.map (routeTo r) }

/-- The tube sequencer receives a shot record (R83, R84). -/
def State.takeRecord (s : State) (r : ShotRecord) : State := (s.noteValid r).modOpen (tubeTakes r)

/-- A CLOSING section whose awaited shot has ended completes (R109). -/
def State.settleClosing (s : State) : State :=
  match s.tube.bind Tube.closing with
  | none => s
  | some c =>
    if s.flightFor c.index then s
    else (s.modTube (fun t => { t with closing := none })).completeSection c 0#16

/-- CLOSING_SECTION_COMPLETION (R109). -/
def execClosingSectionCompletion (s : State) : Result := .next s.settleClosing

end Sys2Proof.Machine
end

