-- ==== Sys2Proof/Machine/Orders.lean ====
section
/-! DEFINITION. Receiver gain at an order's settings (R38, R41), and the order manager (chapter 9): answers, POST, CANCEL, AMEND,
withdrawal, the order queue, the selection of an order at a head event, the application of an amendment and lot accounting. -/

namespace Sys2Proof.Machine

/-! ### Channels under an order -/

/-- Do something for the four heads in ascending order. -/
def forHeads (f : State → Head → State) (s : State) : State := f (f (f (f s 0) 1) 2) 3

/-- A gain code brought into a range (R41). -/
def clampGain (lo hi g : Nat) : Nat := if g < lo then lo else if hi < g then hi else g

/-- Clamp the gain code of channel `k` into the range of a recipe (R41). -/
def State.clampChannel (s : State) (r : Recipe) (k : Head) : State := s.setGain k (clampGain r.gmin r.gmax s.chans[k].gain)

/-- The channels at a head event with an order: gain g0, threshold and polarity (R38, R42). -/
def State.loadChannels (s : State) (r : Recipe) : State :=
  forHeads (fun s k => ((s.setGain k r.g0).setDac k r.threshold).setPolarity k r.polarity) s

/-- The channels at the application of an amendment: gain clamp but for channel `skip`, and threshold (R41). -/
def State.amendChannels (s : State) (r : Recipe) (skip : Option Head) : State :=
  forHeads (fun s k => (if skip = some k then s else s.clampChannel r k).setDac k r.threshold) s

/-! ### Slots -/

/-- Change the internal state of slot `j`. -/
def State.setSlot (s : State) (j : SlotNo) (x : OrderSlot) : State := { s with slots := vset s.slots j x }

/-- Write the state word of slot `j` (R139). -/
def State.putSlotState (s : State) (j : SlotNo) : State := s.put (slotAddr j 0) (slotCode s.slots[j].state)

/-- Write the tubes-taken word of slot `j` (R144). -/
def State.putTaken (s : State) (j : SlotNo) : State := s.put (slotAddr j 4) (toWord s.slots[j].taken)

/-- The word of a slot number, or none (R168). -/
def slotWord (j : Option SlotNo) : Word := (j.map (fun i => toWord i.val)).getD Config.noneWord

/-- Write the four order-queue words (R145). -/
def State.putQueue (s : State) : State :=
  s.putList stQueue [slotWord s.queue[0]?, slotWord s.queue[1]?, slotWord s.queue[2]?, slotWord s.queue[3]?]

/-- Write the current-order word (R145). -/
def State.putCurrent (s : State) : State := s.put stCurrent (slotWord s.current)

/-- Answer a request of slot `j`: the answer word, the request word written back, ATTN REQUEST (R140). -/
def State.answerSlot (s : State) (j : SlotNo) (a : Word) : State :=
  ((s.put (slotAddr j 2) a).put (slotAddr j 1) (if s.slots[j].amendment.isSome then reqAmend else reqNone)).raise causeRequest

/-- What a slot holds once its order has gone: the tubes-taken count alone (R139). -/
def emptied (x : OrderSlot) (st : SlotState) : OrderSlot :=
  { state := st, snapshot := none, taken := x.taken, finalTube := false, amendment := none, cancelPending := false }

/-- The current order's slot `j` becomes SPENT; a pending amendment is dropped (R148, R153). -/
def State.spendSlot (s : State) (j : SlotNo) : State :=
  let s1 := ({ (s.setSlot j (emptied s.slots[j] .spent)).putSlotState j with current := none } : State).putCurrent
  if s.slots[j].amendment.isSome then s1.answerSlot j ansDropped else s1

/-! ### POST -/

/-- Accept a POST (R143). -/
def State.acceptPost (s : State) (j : SlotNo) : State :=
  let x : OrderSlot :=
    { state := .ready, snapshot := some (snapshotOf s.mem s.cfg j), taken := 0, finalTube := false, amendment := none,
      cancelPending := false }
  let s1 := (({ (s.setSlot j x) with queue := s.queue ++ [j] } : State).putTaken j).putSlotState j
  (s1.putQueue.put (slotAddr j 3) Config.noneWord).answerSlot j ansOk

/-- Refuse a POST at the field at offset `off` (R142). -/
def State.refusePost (s : State) (j : SlotNo) (off : Nat) : State :=
  (((s.setSlot j { s.slots[j] with state := .refused }).putSlotState j).put (slotAddr j 3) (toWord off)).answerSlot j ansBadField

/-- Take a POST (R141). -/
def State.takePost (s : State) (j : SlotNo) : State :=
  match s.slots[j].state with
  | .ready | .active => s.answerSlot j ansBadState
  | .free | .spent | .refused =>
    match recipeError s.mem s.setup j with
    | some off => s.refusePost j off
    | none => s.acceptPost j

/-! ### CANCEL -/

/-- Take a CANCEL (R149). -/
def State.takeCancel (s : State) (j : SlotNo) : State :=
  match s.slots[j].state with
  | .ready =>
    let s1 : State := { s.setSlot j (emptied s.slots[j] .free) with queue := s.queue.filter (fun i => i ≠ j) }
    (s1.putQueue.putSlotState j).answerSlot j ansOk
  | .active =>
    if s.slots[j].cancelPending then s.answerSlot j ansOk
    else if s.orderInUse = some j then
      (s.setSlot j { s.slots[j] with cancelPending := true, amendment := none }).answerSlot j ansOk
    else ((s.setSlot j { s.slots[j] with amendment := none }).spendSlot j).answerSlot j ansOk
  | .free | .spent | .refused => s.answerSlot j ansBadState

/-! ### AMEND -/

/-- The tnom of a slot's snapshot. -/
def slotTnom (x : OrderSlot) : Nat := (x.snapshot.map (fun n => n.recipe.tnom)).getD 0

/-- A slot whose snapshot has been amended, with nothing pending (R152). -/
def amendedSlot (x : OrderSlot) (y : Amendment) : OrderSlot :=
  { x with snapshot := x.snapshot.map (fun n => amendSnapshot n y), amendment := none }

/-- A valid or invalid amendment of slot `j` is copied, checked and taken (R150, R151). -/
def State.checkAmend (s : State) (j : SlotNo) : State :=
  match amendError s.mem (slotTnom s.slots[j]) j with
  | some off => (s.put (slotAddr j 3) (toWord off)).answerSlot j ansBadField
  | none =>
    let y := amendmentOf s.mem (slotAddr j 0)
    if s.slots[j].state = .ready then
      ((s.setSlot j (amendedSlot s.slots[j] y)).put (slotAddr j 3) Config.noneWord).answerSlot j ansOk
    else (s.setSlot j { s.slots[j] with amendment := some y }).put (slotAddr j 3) Config.noneWord

/-- Take an AMEND (R150). -/
def State.takeAmend (s : State) (j : SlotNo) : State :=
  match s.slots[j].state with
  | .ready => s.checkAmend j
  | .active => if s.slots[j].cancelPending then s.answerSlot j ansBadState else s.checkAmend j
  | .free | .spent | .refused => s.answerSlot j ansBadState

/-- Take a NONE: withdraw a pending amendment, if there is one (R153, R140). -/
def State.takeNone (s : State) (j : SlotNo) : State :=
  if s.slots[j].amendment.isSome then
    (s.setSlot j { s.slots[j] with amendment := none }).answerSlot j ansWithdrawn
  else s

/-- Take the request event of slot `j` that carries the value `v` (R140). -/
def State.slotRequest (s : State) (j : SlotNo) (v : Word) : State :=
  if v = reqPost then s.takePost j
  else if v = reqCancel then s.takeCancel j
  else if v = reqAmend then s.takeAmend j
  else if v = reqNone then s.takeNone j
  else s.answerSlot j ansBadRequest

/-! ### Application of an amendment (R152) -/

/-- Mark the shot in flight so that its channel makes the gain clamp when the shot ends (R41). -/
def State.deferClamp (s : State) : State :=
  { s with slot := s.slot.map (fun h => { h with phase := match h.phase with
      | .awaitConf sh => .awaitConf { sh with clampDue := true }
      | .blanking sh => .blanking { sh with clampDue := true }
      | .opened sh c => .opened { sh with clampDue := true } c
      | p => p }) }

/-- Give the OPEN section and the tube AMENDED (R106, R126). -/
def State.markAmended (s : State) : State :=
  (s.modTube (fun t => { t with opened := t.opened.map (fun a => { a with flags := a.flags ||| sfAmended }) })).giveFlag tfAmended

/-- The four heads, the OPEN section and the tube go over to the amended settings of the order in use (R152). `fired`: the shot in
flight was fired at this instant, so its channel's gain clamp waits for the shot's end (R41). -/
def State.amendUse (s : State) (r : Recipe) (fired : Bool) : State :=
  let skip := if fired then s.inFlight.map Prod.fst else none
  ((if fired then s.deferClamp else s).amendChannels r skip).markAmended

/-- Apply the pending amendment `y` of slot `j` at a cycle start (R152). -/
def State.applyAtCycle (s : State) (j : SlotNo) (y : Amendment) (fired : Bool) : State :=
  let x := amendedSlot s.slots[j] y
  let s1 := s.setSlot j x
  (match x.snapshot, decide (s.orderInUse = some j) with
    | some n, true => s1.amendUse n.recipe fired
    | _, _ => s1).answerSlot j ansOk

/-- The amendment that is due at a cycle start, with its slot (R151). -/
def State.dueAmendment (s : State) : Option (SlotNo × Amendment) :=
  s.current.bind (fun j => (s.slots[j].amendment.filter Amendment.immediate).map (fun y => (j, y)))

/-- Apply the amendment that is due at a cycle start, if there is one (R151, R152). -/
def State.cycleAmend (s : State) (fired : Bool) : State :=
  match s.dueAmendment with
  | some (j, y) => s.applyAtCycle j y fired
  | none => s

/-! ### Selection at a head event (R146) -/

/-- Whether the current order is an open lot. -/
def State.openLot (s : State) (j : SlotNo) : Bool := (s.slots[j].snapshot.map (fun n => n.recipe.lotCount)).getD 0 == 0

/-- Step 1 of R146: an open lot yields to a waiting order. -/
def State.yieldLot (s : State) : State :=
  match s.current with
  | some j => if s.openLot j && !s.queue.isEmpty then s.spendSlot j else s
  | none => s

/-- Step 2 of R146: the front of the queue becomes the current order. -/
def State.promote (s : State) : State :=
  match s.current, s.queue with
  | none, j :: rest =>
    ((({ s.setSlot j { s.slots[j] with state := .active } with queue := rest, current := some j } : State).putSlotState
      j).putQueue).putCurrent
  | _, _ => s

/-- The amendment of the current order that is due at a head event (R146, step 3). -/
def State.headAmendment (s : State) : Option (SlotNo × Amendment) :=
  s.current.bind (fun j => s.slots[j].amendment.map (fun y => (j, y)))

/-- Step 3 of R146: a pending amendment is applied to the snapshot and answered. -/
def State.headAmend (s : State) : State :=
  match s.headAmendment with
  | some (j, y) => (s.setSlot j (amendedSlot s.slots[j] y)).answerSlot j ansOk
  | none => s

/-- A slot with one tube more (R146, step 4). -/
def takeTube (x : OrderSlot) : OrderSlot :=
  let lot := (x.snapshot.map (fun n => n.recipe.lotCount)).getD 0
  { x with taken := sat16 x.taken, finalTube := x.finalTube || (decide (0 < lot) && sat16 x.taken == lot) }

/-- Step 4 of R146: the tube uses the current order. -/
def State.useOrder (s : State) : State :=
  match s.current with
  | some j =>
    (s.setSlot j (takeTube s.slots[j])).putIf (s.slots[j].taken ≠ sat16 s.slots[j].taken) (slotAddr j 4)
      (toWord (sat16 s.slots[j].taken))
  | none => s

/-- The state in which step 3 of R146 finds the order manager. -/
def State.selected (s : State) : State := s.yieldLot.promote

/-- The order manager answers a head event (R146); the answer is the current order afterwards. -/
def State.selectOrder (s : State) : State := s.selected.headAmend.useOrder

/-- Whether step 3 of R146 applies an amendment. -/
def State.amendsAtHead (s : State) : Bool := s.selected.headAmendment.isSome

/-! ### Lot accounting (R148) -/

/-- Lot accounting at the completion of the close of a tube with an order (R148). -/
def State.lotAccounting (s : State) : State :=
  match s.orderInUse with
  | some j => if s.slots[j].finalTube || s.slots[j].cancelPending then s.spendSlot j else s
  | none => s

end Sys2Proof.Machine
end

