-- ==== Sys2Proof/Machine/Close.lean ====
section
/-! DEFINITION. Closing a tube (8.9) and entering HALTED (R15); the meaning of CLOSE_COMPLETION. -/

namespace Sys2Proof.Machine

/-! ### Entering HALTED (R15) -/

/-- The tracker as it stands in HALTED but for its state word (R90, R101, R86). -/
def haltTracker (t : Tracker) : Tracker :=
  { t with stallLimit := none, episode := 0, fresh := false, encLevel := false, encRun := 0, encPhase := 0 }

/-- Stop the temperature link (R54). -/
def State.stopLink (s : State) : State :=
  ({ s with link := { s.link with rx := Receiver.off, asm := .awaitMarker, gapAt := none, source := .none } } : State).put stSource
    (sourceCode .none)

/-- The gauge enters HALTED (R15). -/
def State.enterHalted (s : State) : State :=
  let s1 : State := { s with slot := none, resumePending := false, haltPending := false, tracker := haltTracker s.tracker }
  ((s1.setTrack .idle).stopLink).setGauge .halted

/-! ### Completing the close (R135 to R137) -/

/-- z_tail of the open tube (R135). -/
def State.zTail (s : State) : Nat := (s.tube.bind Tube.zTail).getD s.tracker.z

/-- Step 1 of R135: the OPEN section is closed as the PARTIAL section, or discarded at zero length (R112). -/
def State.closeLast (s : State) : State :=
  match s.tube.bind Tube.opened with
  | none => s
  | some a =>
    let s1 := s.modTube (fun t => { t with opened := none })
    if a.index * s.lSec < s.zTail then s1.appendHeld (completeAccum s.lSec s.occMin a s.zTail sfPartial) else s1

/-- Steps 2 and 3 of R135: every held section is judged against the tail zone and written, in order. -/
def State.writeHeld (s : State) : State :=
  (s.modTube (fun t => { t with holdback := [] })).writeSections (s.held.map (markTail s.tailSkip s.zTail))

/-- The six words of the tube summary (R136, Table 11-7). -/
def summaryWords (a : TubeAccum) : List Word :=
  if a.count = 0 then [0#16, 0#16, 0#16, 0#16, Config.noneWord, 0#16]
  else
    [toWord (a.range.getD (0, 0)).1, toWord (a.range.getD (0, 0)).2, toWord (nearestNat a.sumT a.sumN),
     toWord (a.best.getD (0, 0)).1, toWord (a.best.getD (0, 0)).2, satWord a.count]

/-- The totals at 0. -/
def noTotals : Totals :=
  { valid := 0, noEcho := 0, noPair := 0, outOfBand := 0, noisy := 0, misfire := 0, aborted := 0, unmapped := 0, late := 0,
    suspended := 0, deadReckoned := 0, headMisfires := Vector.replicate 4 0 }

/-- The totals that the close writes: those of the tube, and 0 for a tube without an order. R125 says the latter of a NO_ORDER tube,
against R92 and Table 8-2, which count its dead-reckoned steps (DEDUCED, log 34). -/
def closingTotals (t : Tube) : Totals := if t.order.isSome then t.totals else noTotals

/-- The words 13 to 53 of a completed record (Table 11-7). -/
def completionWords (t : Tube) (zTail : Nat) : List Word :=
  let u := closingTotals t
  [outcomeCode t.outcome, t.flags, 0#16] ++ words32 zTail
  ++ ([u.valid, u.noEcho, u.noPair, u.outOfBand, u.noisy, u.misfire, u.aborted, u.unmapped, u.late, u.suspended, u.deadReckoned]
      ++ u.headMisfires.toList).flatMap words32
  ++ summaryWords t.accum

/-- Steps 4 and 5 of R135: the record is written, its state word last; which words: DEDUCED, log 17. -/
def State.completeRecord (s : State) (r : RecNo) (t : Tube) : State :=
  ((s.putList (recAddr r 13) (completionWords t s.zTail)).putList (recAddr r 88) (List.replicate 40 0#16)).setRecState r .complete

/-- Steps 6 and 7 of R135: the status words and ATTN TUBE. -/
def State.closeStatus (s : State) (t : Tube) : State :=
  ((({ s with tubesCompleted := sat16 s.tubesCompleted } : State).put stLastSerial (toWord t.serial)).putIf
    (s.tubesCompleted ≠ sat16 s.tubesCompleted) stCompleted (toWord (sat16 s.tubesCompleted))).raise causeTube

/-- Write the record of the open tube after its last section (R135, steps 4 to 7). -/
def State.closeRecord (s : State) : State :=
  match s.tube with
  | none => s
  | some t =>
    match t.record with
    | none => s
    | some r => (s.completeRecord r t).closeStatus t

/-- The open-tube context is discarded and the gauge leaves CLOSING (R137). -/
def State.leaveClosing (s : State) : State :=
  let s1 : State := { s with tube := none }
  if s.haltPending then s1.enterHalted else s1.setGauge (if s.presence.level then .waitClear else .armed)

/-- Whether the open tube has a record. -/
def State.hasRecord (s : State) : Bool := (s.tube.bind Tube.record).isSome

/-- The close completes (R135, R137, R125). -/
def State.closeTube (s : State) : State :=
  if s.hasRecord then ((s.closeLast.writeHeld.closeRecord).lotAccounting).leaveClosing else s.leaveClosing

/-- In CLOSING with no shot in flight, the close completes (R134). -/
def State.closeIfDrained (s : State) : State :=
  if s.gauge = .closing ∧ s.inFlight = none then s.closeTube else s

/-- CLOSE_COMPLETION (R135). -/
def execCloseCompletion (s : State) : Result := .next s.closeIfDrained

end Sys2Proof.Machine
end

