-- ==== Sys2Proof/Machine/Shot.lean ====
section
/-! DEFINITION. The shot sequencer and the echo channels (chapters 2 and 3): the stamp, the fire decision, confirm and misfire, the
capture, the window close with its gain step, PERMIT, and the meanings of the commands of one shot. -/

namespace Sys2Proof.Machine

/-! ### Stamp (R99, R100) -/

/-- The helix angle before the twist sense, in angle units (R100, step 1). -/
def rawAngle (z pitch : Nat) : Nat := z % pitch * 65536 / pitch

/-- The helix angle with the twist sense (R100, step 2). -/
def twistAngle (w : Twist) (raw : Nat) : Nat :=
  match w with
  | .cw => raw
  | .ccw => (65536 - raw) % 65536

/-- The angle of a struck point (R100). -/
def stampAngle (r : Recipe) (headAngle z : Nat) : Nat := (twistAngle r.twist (rawAngle z r.pitch) + headAngle) % 65536

/-- The stamp of a shot of head `k` under the settings `n`, taken now (R99). -/
def State.stampFor (s : State) (k : Head) (n : Snapshot) : Stamp :=
  let a := stampAngle n.recipe s.cfg.headAngle[k] s.tracker.z
  { z := s.tracker.z, secIdx := s.tracker.z / n.recipe.lSec, angle := a, sector := Fin.ofNat 32 (a / 2048),
    estimated := s.tracker.state = .deadReckoning, unmapped := s.tracker.state = .lost }

/-- The shot that head `k` fires, or hands over as NOISY, now (R20, R22). -/
def State.newShot (s : State) (k : Head) (n : Snapshot) : Shot :=
  { stamp := s.stampFor k n, bound := n, clampDue := false, firedAt := s.now, confAt := s.now }

/-! ### Gain decision and step (R39, R40) -/

/-- A gain decision (R39). -/
inductive GainMove where
  | hold | lower | raise
deriving DecidableEq, Repr

/-- The gain decision after a confirmed shot (Table 3-3); `a1` is none when no echo was captured. -/
def gainMove (r : Recipe) (a1 : Option Byte) : GainMove :=
  if !r.agcOn then .hold
  else match a1 with
    | none => .raise
    | some a => if r.agcHi ≤ a.toNat then .lower else if a.toNat < r.agcLo then .raise else .hold

/-- A gain code after a decision, bounded by the range in force (R40). -/
def movedGain (lo hi g : Nat) : GainMove → Nat
  | .hold => g
  | .lower => if g ≤ lo then lo else g - 1
  | .raise => if hi ≤ g then hi else g + 1

/-- The settings that bound a gain step of a shot bound to `n`: the order in force for the tube as it now stands (R40). -/
def State.gainRange (s : State) (n : Snapshot) : Recipe := (s.tubeOrder.getD n).recipe

/-- The gain step of channel `k` (R40). -/
def State.gainStep (s : State) (k : Head) (n : Snapshot) (a1 : Option Byte) : State :=
  s.setGain k (movedGain (s.gainRange n).gmin (s.gainRange n).gmax s.chans[k].gain (gainMove n.recipe a1))

/-- The gain clamp that channel `k` deferred to the end of its shot (R41). -/
def State.lateClamp (s : State) (k : Head) (sh : Shot) : State :=
  if sh.clampDue then s.clampChannel (s.gainRange sh.bound) k else s

/-! ### The end of a shot -/

/-- Hand a shot record to the tube sequencer; a section that waited for the shot completes (R83, R109). -/
def State.handOver (s : State) (r : ShotRecord) : State := (s.takeRecord r).settleClosing

/-- The amplitude a1 of a window close: the sample taken, or the reading `a` taken now; none without an echo (R49, R50). The reading
is the command's operand (DESIGN CHOICE, log 11). -/
def amplitudeOf (c : Capture) (a : Byte) : Option Byte := if c.echoes.isEmpty then none else some (c.sample.getD a)

/-- The window close of head `k`'s shot: hand-off, gain decision, end of the shot (R51, R52). The close of a tube that waited for
the shot completes last (R134; the gain step comes before it: DEDUCED, log 26). -/
def State.closeShot (s : State) (k : Head) (sh : Shot) (echoes : List Nat) (a1 : Option Byte) (cut : Bool) : State :=
  let r := confirmedRecord k sh (s.tempFor sh) { echoes := echoes, cut := cut }
  ((((s.setPhase .idle).handOver r).gainStep k sh.bound a1).lateClamp k sh).closeIfDrained

/-- The slot-end cut of the present slot (R26, R52); `a` is what the ADC reads. -/
def State.cutSlot (s : State) (a : Byte) : State :=
  match s.slot with
  | none => s
  | some h =>
    match h.phase with
    | .blanking sh => s.closeShot h.head sh [] none true
    | .opened sh c => s.closeShot h.head sh c.echoes (amplitudeOf c a) true
    | .idle | .quiet _ | .awaitConf _ => s

/-- Whether the present slot waits for a confirm, which always ends before the slot does (2.2); a slot or cycle start then cannot
arise (DESIGN CHOICE, log 24). -/
def State.awaiting (s : State) : Bool :=
  match s.slot with
  | some h => match h.phase with
    | .awaitConf _ => true
    | _ => false
  | none => false

/-! ### Fire decision (R19 to R22) -/

/-- The settings of the tube's order, if head `k` is in its mask (R19, condition 2). -/
def State.maskedOrder (s : State) (k : Head) : Option Snapshot := s.tubeOrder.filter (fun n => inMask n.recipe.headMask k)

/-- Conditions 1, 3 and 4 of R19 for head `k`. -/
def State.mayFire (s : State) (k : Head) : Bool :=
  s.gauge == .measuring && s.firing == .permitted && s.heads[k].state == .on

/-- The quiet-gate count that the decision sees (R18, R44). -/
def State.gateCount (s : State) (count : Nat) : Nat := if s.cfg.quietGate = 0 then 0 else count

/-- FIRE of head `k` under the settings `n` (R22). -/
def State.fire (s : State) (k : Head) (n : Snapshot) : State := (s.setPhase (.awaitConf (s.newShot k n))).pulse k

/-- A NOISY slot of head `k` (R20). -/
def State.noisySlot (s : State) (k : Head) (n : Snapshot) : State :=
  (s.setPhase .idle).handOver (bareRecord k (s.newShot k n) (s.tempFor (s.newShot k n)) .noisy false)

/-- A dry slot of head `k`: a suspended slot where R21's conditions hold. -/
def State.drySlot (s : State) (k : Head) : State :=
  let s1 := s.setPhase .idle
  if s.gauge == .measuring && s.firing == .suspended && s.hasRecord && (s.maskedOrder k).isSome then
    s1.addTotals (fun t => { t with suspended := sat32 t.suspended 1 })
  else s1

/-- The fire decision of head `k` at a quiet-gate count (R19). -/
def State.takeDecision (s : State) (k : Head) (count : Nat) : State :=
  match s.maskedOrder k with
  | none => s.drySlot k
  | some n =>
    if s.mayFire k then
      if s.gateCount count ≤ n.recipe.noiseLimit then s.fire k n else s.noisySlot k n
    else s.drySlot k

/-- The fire decision of the present slot, if it has not been taken (R18). -/
def State.fireDecision (s : State) : State :=
  match s.slot with
  | some h => match h.phase with
    | .quiet c => s.takeDecision h.head c
    | _ => s
  | none => s

/-! ### Confirm and misfire (R23 to R27) -/

/-- A capture that has just been opened (R46). -/
def emptyCapture (b : Nat) : Capture :=
  { tu := Config.tuPerCt * b, echoes := [], holdOff := none, peak := 0#8, sample := none }

/-- The phase that follows the confirm of a shot (R23, R46). -/
def confirmedPhase (sh : Shot) (now : Nat) : Phase :=
  let sh := { sh with confAt := now }
  if sh.bound.recipe.blanking = 0 then .opened sh (emptyCapture 0) else .blanking sh

/-- The shot of head `k` that awaits its confirm. -/
def State.awaitingShot (s : State) (k : Head) : Option Shot :=
  match s.channelPhase k with
  | .awaitConf sh => some sh
  | _ => none

/-- An active edge of CONF_k (R23, R25). -/
def State.confEdge (s : State) (k : Head) : State :=
  if s.gauge = .init then s
  else match s.awaitingShot k with
    | some sh => (s.setMisfires k 0).setPhase (confirmedPhase sh s.now)
    | none => s.setStray k (sat16 s.heads[k].stray)

/-- Head `k` enters FAULT (R27). -/
def State.enterFault (s : State) (k : Head) : State :=
  let s1 := (s.setHeadState k .fault).raise causeHead
  if (s.maskedOrder k).isSome then s1.giveFlag tfHeadFault else s1

/-- The misfire totals after a misfire of head `k` (R24, step 3). -/
def countMisfire (k : Head) (t : Totals) : Totals := { t with headMisfires := vset t.headMisfires k (sat32 t.headMisfires[k] 1) }

/-- The misfire of head `k`'s shot (R24). -/
def State.misfireShot (s : State) (k : Head) (sh : Shot) : State :=
  let n := sat16 s.heads[k].misfires
  let s1 := s.setMisfires k n
  let s2 := if s.cfg.misfireLimit ≤ n then s1.enterFault k else s1
  let s3 := (s2.addTotals (countMisfire k)).setPhase .idle
  ((s3.handOver (bareRecord k sh (s.tempFor sh) .misfire false)).lateClamp k sh).closeIfDrained

/-! ### Capture (R44 to R49) -/

/-- The window end of a shot on its time base, in tu (R46). -/
def windowEndTu (n : Snapshot) : Nat := Config.tuPerCt * (n.recipe.blanking + n.wEff)

/-- Whether a crossing at `t` tu is captured (R47). A time before the time base's own is none that can arise (DESIGN CHOICE,
log 12). -/
def captures (n : Snapshot) (c : Capture) (t : Nat) : Bool :=
  c.tu ≤ t && t < windowEndTu n && c.echoes.length < n.recipe.captureMax
    && (match c.holdOff with
        | none => true
        | some e => e ≤ t)

/-- A capture after a crossing of the capture polarity at `t` tu (R47). -/
def crossed (n : Snapshot) (c : Capture) (t : Nat) : Capture :=
  if captures n c t then
    { c with tu := t, echoes := c.echoes ++ [t], holdOff := some (t + Config.tuPerCt * n.recipe.holdoff) }
  else { c with tu := max c.tu t }

/-- Whether capture is complete and the amplitude sample has been taken (R48, R51). -/
def captureDone (n : Snapshot) (c : Capture) : Bool := n.recipe.captureMax ≤ c.echoes.length && c.sample.isSome

/-- Put a capture back, and close the window once capture and sample are both done (R48, R51). -/
def State.afterCapture (s : State) (k : Head) (sh : Shot) (c : Capture) : State :=
  if captureDone sh.bound c then s.closeShot k sh c.echoes c.sample false else s.setPhase (.opened sh c)

/-- A crossing of comparator `p` of channel `k` at `t` tu (R44, R47). -/
def State.crossing (s : State) (k : Head) (p : Polarity) (t : Nat) : State :=
  match s.channelPhase k with
  | .quiet c => s.setPhase (.quiet (min (c + 1) 255))
  | .opened sh c => if p = sh.bound.recipe.polarity then s.afterCapture k sh (crossed sh.bound c t) else s
  | .idle | .awaitConf _ | .blanking _ => s

/-- A hold-off that ends at `t` tu or before ends (R47). -/
def endHoldOff (c : Capture) (t : Nat) : Capture :=
  { c with tu := max c.tu t, holdOff := c.holdOff.filter (fun e => decide (t < e)) }

/-- The end of a hold-off (R47). -/
def State.holdOffEnd (s : State) (t : Nat) : State :=
  match s.slot with
  | some h => match h.phase with
    | .opened sh c => s.setPhase (.opened sh (endHoldOff c t))
    | _ => s
  | none => s

/-- The amplitude sample (R49, R50). -/
def State.sampleAmplitude (s : State) (a : Byte) : State :=
  match s.slot with
  | some h => match h.phase with
    | .opened sh c =>
      if c.echoes.isEmpty || c.sample.isSome then s else s.afterCapture h.head sh { c with sample := some a }
    | _ => s
  | none => s

/-- The end of blanking (R46). -/
def State.endBlanking (s : State) : State :=
  match s.slot with
  | some h => match h.phase with
    | .blanking sh => s.setPhase (.opened sh (emptyCapture sh.bound.recipe.blanking))
    | _ => s
  | none => s

/-- The window end (R51). -/
def State.windowEnd (s : State) (a : Byte) : State :=
  match s.slot with
  | some h => match h.phase with
    | .opened sh c => s.closeShot h.head sh c.echoes (amplitudeOf c a) false
    | _ => s
  | none => s

/-- The misfire of the present slot's shot (R24). -/
def State.misfire (s : State) : State :=
  match s.slot with
  | some h => match h.phase with
    | .awaitConf sh => s.misfireShot h.head sh
    | _ => s
  | none => s

/-! ### PERMIT (R30, R31) -/

/-- The abort of the shot in flight (R31, R52). -/
def State.abortShot (s : State) : State :=
  match s.inFlight with
  | none => s
  | some (k, sh) =>
    let s1 := (s.setPhase .idle).addTotals (fun t => { t with aborted := sat32 t.aborted 1 })
    ((s1.settleClosing).lateClamp k sh).closeIfDrained

/-- A PERMIT loss (R30), taken at its word whatever the pin's level was (DESIGN CHOICE, log 23). -/
def State.losePermit (s : State) : State :=
  let s1 : State := { s with pins := { s.pins with permit := false } }
  if s.gauge = .init then s1
  else ((({ s1.setFiring .suspended with resumePending := false } : State).raise causePermit).giveFlag tfPermitLost).abortShot

/-- PERMIT becomes active (R30). -/
def State.gainPermit (s : State) : State := { s with pins := { s.pins with permit := true } }

/-! ### Slots and cycles (R16 to R18, R32) -/

/-- Begin the slot of head `k` with its quiet gate (R18). -/
def State.openSlot (s : State) (k : Head) : State := { s with slot := some { head := k, startAt := s.now, phase := .quiet 0 } }

/-- Go on while the cycle timer runs: a slot-end cut that completes the close of a tube may have led to HALTED, where the timer
stops at once (R17). -/
def State.ifRunning (s : State) (f : State → State) : State := if runs s.gauge then f s else s

/-- The slot after the present one begins; a shot that its slot's end finds is cut (R18, R26). -/
def State.nextSlot (s : State) (a : Byte) : State :=
  match s.slot with
  | some h =>
    if s.awaiting then s
    else if h.head = 3 then s
    else (s.cutSlot a).ifRunning (fun s => s.openSlot (h.head + 1))
  | none => s

/-- The return of firing at a cycle start (R32, R33). -/
def State.restartFiring (s : State) : State :=
  if s.pins.permit && s.firing == .suspended && (s.cfg.autoRestart || s.resumePending) then
    { s.setFiring .permitted with resumePending := false }
  else s

/-- Begin a cycle with the slot of head 0 (R16, R18). -/
def State.openCycle (s : State) : State := ({ s with cycleAt := s.now } : State).openSlot 0

/-- A cycle start with no shot in flight: firing restarts, a due amendment is applied, the slot of head 0 begins (R16, R32, R33,
R151). -/
def State.freshCycle (s : State) : State := ((s.restartFiring).cycleAmend false).openCycle

/-- A cycle start whose fire decision, with a quiet gate of 0, is taken before the amendment (R152). -/
def State.decidedCycle (s : State) : State :=
  if s.cfg.quietGate = 0 then
    let s1 := (s.restartFiring).openCycle.fireDecision
    s1.cycleAmend s1.awaiting
  else s.freshCycle

/-- The events that share the instant of a cycle start, in one of the orders the spec allows (R16, R26, R32, R33, R40,
R152; DESIGN CHOICE, log 10). -/
def State.beginCycle (s : State) (o : CycleOrder) (a : Byte) : State :=
  match o with
  | .cutFirst => (s.cutSlot a).ifRunning State.freshCycle
  | .amendFirst => (((s.restartFiring).cycleAmend false).cutSlot a).ifRunning State.openCycle
  | .decisionFirst => (s.cutSlot a).ifRunning State.decidedCycle

/-- A cycle start while the cycle timer runs (R17). -/
def State.cycleStart (s : State) (o : CycleOrder) (a : Byte) : State :=
  if runs s.gauge && !s.awaiting then s.beginCycle o a else s

/-! ### Meanings -/

/-- CYCLE_START (R16). -/
def execCycleStart (o : CycleOrder) (peak : Byte) (s : State) : Result := .next (s.cycleStart o peak)

/-- SLOT_START (R18). -/
def execSlotStart (peak : Byte) (s : State) : Result := .next (s.nextSlot peak)

/-- FIRE_DECISION (R19). -/
def execFireDecision (s : State) : Result := .next s.fireDecision

/-- CONF_EDGE (R23, R25). -/
def execConfEdge (k : Head) (s : State) : Result := .next (s.confEdge k)

/-- MISFIRE (R24). -/
def execMisfire (s : State) : Result := .next s.misfire

/-- END_OF_BLANKING (R46). -/
def execEndOfBlanking (s : State) : Result := .next s.endBlanking

/-- CROSSING (R44, R47). -/
def execCrossing (k : Head) (c : Polarity) (t : Nat) (s : State) : Result := .next (s.crossing k c t)

/-- HOLD_OFF_END (R47). -/
def execHoldOffEnd (t : Nat) (s : State) : Result := .next (s.holdOffEnd t)

/-- AMPLITUDE_SAMPLE (R49). -/
def execAmplitudeSample (a : Byte) (s : State) : Result := .next (s.sampleAmplitude a)

/-- WINDOW_END (R51). -/
def execWindowEnd (a : Byte) (s : State) : Result := .next (s.windowEnd a)

/-- PERMIT_LOSS (R30). -/
def execPermitLoss (s : State) : Result := .next s.losePermit

/-- PERMIT_ACTIVE (R30). -/
def execPermitActive (s : State) : Result := .next s.gainPermit

end Sys2Proof.Machine
end

