-- ==== Sys2Proof/Machine/Tracking.lean ====
section
/-! DEFINITION. The position tracker (chapter 6): real steps, the held period, stalls, dead reckoning, position changes, overlength,
and the end of measuring; the meanings of REAL_STEP, STALL and SYNTHETIC_STEP. -/

namespace Sys2Proof.Machine

/-! ### The end of measuring (8.5) -/

/-- z is frozen as z_tail, the tracker enters IDLE and the gauge CLOSING; the outcome changes where one is given
(R90, R127, R128, R13). -/
def State.endMeasuring (s : State) (o : Option TubeOutcome) : State :=
  let s1 := s.modTube (fun t => { t with zTail := some s.tracker.z, outcome := o.getD t.outcome })
  let s2 : State := { s1 with tracker := { s1.tracker with stallLimit := none, episode := 0, fresh := false } }
  (s2.setTrack .idle).setGauge .closing

/-- Whether the tube being measured is overlength (R128). -/
def State.overlong (s : State) : Bool :=
  s.gauge == .measuring && (s.tubeOrder.map (fun n => decide (n.recipe.maxLen ≤ s.tracker.z))).getD false

/-- The overlength judgement of a position change (R128). -/
def State.judgeLength (s : State) : State :=
  if s.overlong then (s.endMeasuring (some .overlength)).closeIfDrained else s

/-! ### LOST and position changes (R95 to R98) -/

/-- The tracker enters LOST (R95, R98). -/
def State.enterLost (s : State) : State :=
  let s1 : State := { s with tracker := { s.tracker with stallLimit := none, fresh := false } }
  ((s1.setTrack .lost).raise causeTrack).giveFlag tfTrackingLost

/-- z after `n` steps from `z`, saturated (R96). -/
def advanced (z n encStep : Nat) : Nat := min (z + n * encStep) Config.zMax

/-- A position change of `n` steps (R90, R96, R97). Where it also ends measuring, the tracker is IDLE and does not enter LOST
(DEDUCED, log 15). -/
def State.positionChange (s : State) (n : Nat) (synthetic : Bool) : State :=
  let before := s.tracker.z
  let after := advanced before n s.cfg.encStep
  let s1 := ((s.setZ after).takeChange synthetic before after).judgeLength
  if after = Config.zMax ∧ s1.gauge = .measuring then s1.enterLost else s1

/-! ### Real steps (R87, R88, R93) -/

/-- The period that a real step stores, `us` µs after the one before it (R88). -/
def periodOf (us : Nat) : Nat := max 1 (min us Config.periodMax)

/-- The period measurement of a real step (R88), before the step moves z (DEDUCED, log 25). -/
def State.measure (s : State) (us : Nat) : State :=
  let s1 := if s.tracker.fresh then s.setPLast (some (periodOf us)) else s
  { s1 with tracker := { s1.tracker with fresh := true, stepAt := s.now } }

/-- The stall limit S, in µs (R91). -/
def stallLimitOf (stallMin : Nat) (pLast : Option Nat) : Nat :=
  match pLast with
  | some p => max (2 * p) (1000 * stallMin)
  | none => 1000 * stallMin

/-- Restart the stall timer from now (R91). -/
def State.restartStall (s : State) : State :=
  { s with tracker := { s.tracker with
      stallLimit := some (stallLimitOf s.cfg.stallMin s.tracker.pLast), stallAt := s.now } }

/-- The end of a dead-reckoning episode by a real step, but for the advance of z (R93). -/
def State.endEpisode (s : State) : State :=
  let s1 : State := { s with tracker := { s.tracker with episode := 0, fresh := true, stepAt := s.now } }
  (s1.setTrack .tracking).restartStall

/-- A real step, `us` µs after the real step before it (R87). Given as a command, it leaves the encoder filter's level and run count
and the ENC pin as they stood (R86; DESIGN CHOICE, log 36). -/
def State.realStep (s : State) (us : Nat) : State :=
  match s.tracker.state with
  | .idle => s
  | .tracking => ((s.measure us).restartStall).positionChange 1 false
  | .deadReckoning => s.endEpisode.positionChange 1 false
  | .lost => s.measure us

/-! ### Stall and dead reckoning (R91, R92, R94) -/

/-- Count `n` synthetic steps in the episode and in the open tube (R92, R126), all of them where z saturates (DEDUCED, log 16). They
count in every tube with a record, also where its close will write totals of 0 (R125; DEDUCED, log 34). -/
def State.countSynthetic (s : State) (n : Nat) : State :=
  ({ s with tracker := { s.tracker with episode := s.tracker.episode + n } } : State).addTotals
    (fun t => { t with deadReckoned := sat32 t.deadReckoned n })

/-- An episode that has reached dr_max ends in LOST (R94). -/
def State.endIfSpent (s : State) (episode : Nat) : State :=
  if s.cfg.drMax ≤ episode ∧ s.tracker.state = .deadReckoning then s.enterLost else s

/-- The tracker enters DEAD_RECKONING (R91, R98). -/
def State.enterReckoning (s : State) : State :=
  let s1 : State := { s with tracker := { s.tracker with
    episode := 0, fresh := false, stallLimit := none, synthAt := s.now } }
  ((s1.setTrack .deadReckoning).raise causeTrack).giveFlag tfDeadReckoned

/-- The number of steps of a catch-up (R92, R94). -/
def catchUp (limit p drMax : Nat) : Nat := min (limit / p) drMax

/-- A stall (R91). -/
def State.stall (s : State) : State :=
  if s.tracker.state = .tracking then
    match s.tracker.pLast with
    | none => s.enterLost
    | some p =>
      let n := catchUp (s.tracker.stallLimit.getD (stallLimitOf s.cfg.stallMin (some p))) p s.cfg.drMax
      (((s.enterReckoning).countSynthetic n).positionChange n true).endIfSpent n
  else s

/-- A synthetic step (R92, R94). -/
def State.syntheticStep (s : State) : State :=
  if s.tracker.state = .deadReckoning then
    let s1 : State := { s with tracker := { s.tracker with
      synthAt := s.tracker.synthAt + Config.ctPerUs * s.tracker.pLast.getD 0 } }
    ((s1.countSynthetic 1).positionChange 1 true).endIfSpent (s.tracker.episode + 1)
  else s

/-- REAL_STEP (R87). -/
def execRealStep (us : Nat) (s : State) : Result := .next (s.realStep us)

/-- STALL (R91). -/
def execStall (s : State) : Result := .next s.stall

/-- SYNTHETIC_STEP (R92). -/
def execSyntheticStep (s : State) : Result := .next s.syntheticStep

end Sys2Proof.Machine
end

