-- ==== Sys2Proof/Machine/Tubes.lean ====
section
/-! DEFINITION. The head event, the tail event and the other filtered edges of PRESENT (8.1 to 8.5); the meanings of HEAD_EVENT,
TAIL_EVENT, PRESENCE_CLEAR and PRESENCE_RECORDED. -/

namespace Sys2Proof.Machine

/-- The serial after `n` (R122). -/
def nextSerial (n : Nat) : Nat := if n < 65535 then n + 1 else 1

/-- The first FREE record from the next-search index upward, passing from 15 to 0 (R123). -/
def State.findRecord (s : State) : Option RecNo :=
  ((List.finRange 16).map (fun i => s.nextSearch + i)).find? (fun r => decide (s.records[r] = .free))

/-- The tube accumulators, cleared (R133). -/
def noAccum : TubeAccum := { sumN := 0, sumT := 0, range := none, best := none, count := 0 }

/-- The context of a tube at its head event (R122). -/
def newTube (record : Option RecNo) (order : Option SlotNo) (serial : Nat) (outcome : TubeOutcome) (flags : Word)
    (opened : Option Accum) : Tube :=
  { record := record, order := order, serial := serial, outcome := outcome, flags := flags, totals := noTotals, zTail := none,
    lastBlock := none, written := 0, lost := 0, accum := noAccum, opened := opened, closing := none, holdback := [] }

/-- The tracker enters TRACKING with z = 0 and P_last unknown, its three words rewritten (R90). -/
def State.startTracking (s : State) : State :=
  let s1 : State := { s with tracker := { s.tracker with
    state := .tracking, z := 0, pLast := none, fresh := false, episode := 0,
    stallLimit := some (stallLimitOf s.cfg.stallMin none), stallAt := s.now } }
  ((s1.put stPosition 0#16).put stSpeed 0#16).put stTracking (trackCode .tracking)

/-- A tube for which no record is FREE (R123). -/
def State.missTube (s : State) : State :=
  let s1 := (({ s with tubesMissed := sat16 s.tubesMissed } : State).putIf (s.tubesMissed ≠ sat16 s.tubesMissed) stMissed
    (toWord (sat16 s.tubesMissed))).raise causeTube
  (({ s1 with tube := some (newTube none none s.serial .noOrder 0#16 none) } : State).setGauge .measuring).startTracking

/-- Step 1 of R124: every word of record `r` but the request word. -/
def State.clearRecord (s : State) (r : RecNo) : State :=
  (s.put (recAddr r 0) 0#16).putList (recAddr r 2)
    ([ansNone, toWord s.serial] ++ List.replicate 6 0#16 ++ [Config.noneWord] ++ List.replicate 117 0#16)

/-- Whether a head in a mask is in FAULT (R27). -/
def State.faultIn (s : State) (m : BitVec 4) : Bool :=
  (List.finRange 4).any (fun k => inMask m k && s.heads[k].state == .fault)

/-- Step 3 of R124 for a tube whose order is slot `j` with snapshot `n`, and step 4; `amended` as R146 says. -/
def State.openWith (s : State) (r : RecNo) (j : SlotNo) (n : Snapshot) (amended : Bool) : State :=
  let s1 := (s.putList (recAddr r 4) ([toWord j.val, toWord s.slots[j].taken] ++ n.recipe.tag.toList)).putList (recAddr r 54)
    (settingsWords n)
  let s2 := s1.loadChannels n.recipe
  let flags := flagIf n.clamped tfWindowClamped ||| flagIf (s.faultIn n.recipe.headMask) tfHeadFault
    ||| flagIf (s.firing = .suspended) tfPermitLost ||| flagIf amended tfAmended
  { s2 with tube := some (newTube (some r) (some j) s.serial .normal flags (some (newAccum 0 (flagIf amended sfAmended)))) }

/-- Step 3 of R124 for a tube without an order, and step 4. -/
def State.openWithout (s : State) (r : RecNo) : State :=
  let s1 := s.put (recAddr r 4) Config.noneWord
  { s1 with tube := some (newTube (some r) none s.serial .noOrder (flagIf (s.firing = .suspended) tfPermitLost) none) }

/-- The settings of the current order, with its slot. -/
def State.currentOrder (s : State) : Option (SlotNo × Snapshot) :=
  s.current.bind (fun j => s.slots[j].snapshot.map (fun n => (j, n)))

/-- Steps 2 to 4 of R124. -/
def State.giveOrder (s : State) (r : RecNo) : State :=
  let s1 := s.selectOrder
  match s1.currentOrder with
  | some (j, n) => s1.openWith r j n s.amendsAtHead
  | none => s1.openWithout r

/-- Record `r` is opened for the tube (R124). -/
def State.openRecord (s : State) (r : RecNo) : State :=
  let s1 := (({ s with nextSearch := r + 1 } : State).clearRecord r).giveOrder r
  ((s1.setRecState r .opened).setGauge .measuring).startTracking

/-- The head event (R123). -/
def State.headEvent (s : State) : State :=
  let s1 : State := { s with serial := nextSerial s.serial }
  match s1.findRecord with
  | some r => s1.openRecord r
  | none => s1.missTube

/-- The tail event (R127). -/
def State.tailEvent (s : State) : State := (s.endMeasuring none).closeIfDrained

/-- What a filtered edge to `high` does in the present gauge state, the filter's level being set (R121). -/
def State.takeEdge (s : State) (high : Bool) : State :=
  match s.gauge, high with
  | .armed, true => s.headEvent
  | .measuring, false => s.tailEvent
  | .waitClear, false => s.setGauge .armed
  | _, _ => s

/-- A filtered edge of PRESENT to `high` (R120, R121). While the filter does not sample, only the pin's level is known (DESIGN
CHOICE, log 22). -/
def State.filteredEdge (s : State) (high : Bool) : State :=
  let s1 : State := { s with pins := { s.pins with present := high } }
  if runs s.gauge then ({ s1 with presence := { level := high, run := 0 } } : State).takeEdge high else s1

/-- HEAD_EVENT (R123). -/
def execHeadEvent (s : State) : Result := .next (s.filteredEdge true)

/-- TAIL_EVENT (R127). -/
def execTailEvent (s : State) : Result := .next (s.filteredEdge false)

/-- PRESENCE_CLEAR (R121). -/
def execPresenceClear (s : State) : Result := .next (s.filteredEdge false)

/-- PRESENCE_RECORDED (R121). -/
def execPresenceRecorded (high : Bool) (s : State) : Result := .next (s.filteredEdge high)

end Sys2Proof.Machine
end

