-- ==== Sys2Proof/Machine/Link.lean ====
section
/-! DEFINITION. The shell temperature link (chapter 4): the receiver, the telegram assembler, the held temperature and the link
counters; the meanings of LINE_SETTLED, START_EDGE, MID_START_CHECK, PYRO_FRAME, GAP_TIMER_EXPIRY and AGE_INCREASE. -/

namespace Sys2Proof.Machine

/-! ### Line timing (R55, R57) -/

/-- One bit time B, in ct (R55). -/
def bitTime (c : Setup) : Nat := c.pyroDiv + 1

/-- The half bit time H, in ct (R55). -/
def halfBit (c : Setup) : Nat := bitTime c / 2

/-- The number of sample points of a frame after the start check (Table 4-3). -/
def framePoints (c : Setup) : Nat := 8 + (if c.pyroParity = .none then 0 else 1) + c.pyroStop

/-! ### Link state -/

/-- Change the temperature link. -/
def State.modLink (s : State) (f : Link → Link) : State := { s with link := f s.link }

/-- Change the receiver's state. -/
def State.setRx (s : State) (x : RxState) : State := s.modLink (fun l => { l with rx := { l.rx with state := x } })

/-- The receiver enters SETTLE, its run of ct at mark starting at 0: the ct in which it enters SETTLE does not count (R56; DESIGN
CHOICE, log 35). -/
def State.enterSettle (s : State) : State := s.modLink (fun l => { l with rx := { l.rx with state := .settle, markRun := 0 } })

/-- The seven counters in the order of their words (Table 11-2). -/
def counterList (c : LinkCounters) : List Nat :=
  [c.accepted, c.framing, c.parity, c.checksum, c.truncated, c.rejected, c.stray]

/-- Change the counters; a word is rewritten where its counter changes (R67). -/
def State.count (s : State) (i : Nat) (f : LinkCounters → LinkCounters) : State :=
  let c := f s.link.counters
  (s.modLink (fun l => { l with counters := c })).putIf
    ((counterList s.link.counters).getD i 0 ≠ (counterList c).getD i 0) (stCounters + i) (toWord ((counterList c).getD i 0))

def State.countAccepted (s : State) : State := s.count 0 (fun c => { c with accepted := sat16 c.accepted })
def State.countFraming (s : State) : State := s.count 1 (fun c => { c with framing := sat16 c.framing })
def State.countParity (s : State) : State := s.count 2 (fun c => { c with parity := sat16 c.parity })
def State.countChecksum (s : State) : State := s.count 3 (fun c => { c with checksum := sat16 c.checksum })
def State.countTruncated (s : State) : State := s.count 4 (fun c => { c with truncated := sat16 c.truncated })
def State.countRejected (s : State) : State := s.count 5 (fun c => { c with rejected := sat16 c.rejected })
def State.countStray (s : State) : State := s.count 6 (fun c => { c with stray := sat16 c.stray })

/-- Set the source, its word rewritten when it changes (R64, R65). -/
def State.setSource (s : State) (x : TempSource) : State :=
  (s.modLink (fun l => { l with source := x })).putIf (s.link.source ≠ x) stSource (sourceCode x)

/-- Set the age, its word rewritten when it changes (R65). -/
def State.setAge (s : State) (n : Nat) : State :=
  (s.modLink (fun l => { l with age := n })).putIf (s.link.age ≠ n) stAge (toWord n)

/-- Set the held temperature, its word rewritten when it changes (R64). -/
def State.setSurface (s : State) (t : Nat) : State :=
  (s.modLink (fun l => { l with tSurf := t })).putIf (s.link.tSurf ≠ t) stTSurf (toWord t)

/-! ### Starting the link (R54) -/

/-- A successful RUN starts the link: SETTLE, AWAIT_MARKER, held temperature 0, source NONE, age 0, counters 0 (R54). -/
def State.startLink (s : State) : State :=
  let s1 : State := { s with link := { Link.reset with rx := { Receiver.off with state := .settle } } }
  (s1.putList stTSurf [0#16, sourceCode .none, 0#16]).putList stCounters (List.replicate 7 0#16)

/-! ### Telegrams (R63, R64) -/

/-- What the check of a complete telegram finds (R63). -/
inductive TelegramResult where
  | checksumError
  | rejected
  | accepted (t : Nat)
deriving DecidableEq, Repr

/-- Check a complete telegram: status, temperature high and low, and check byte (R63). -/
def checkTelegram (status hi lo check : Byte) : TelegramResult :=
  let t := hi.toNat * 256 + lo.toNat
  if (Config.marker.toNat + status.toNat + hi.toNat + lo.toNat + check.toNat) % 256 ≠ 0 then .checksumError
  else if status &&& 0x07#8 ≠ 0x01#8 then .rejected
  else if 20000 < t then .rejected
  else .accepted t

/-- An accepted telegram (R63, R64). -/
def State.acceptTelegram (s : State) (t : Nat) : State :=
  ((((s.countAccepted.setSurface t).setAge 0).setSource .live)).modLink (fun l => { l with ageAt := s.now })

/-- A complete telegram is judged (R63). -/
def State.judgeTelegram (s : State) (status hi lo check : Byte) : State :=
  match checkTelegram status hi lo check with
  | .checksumError => s.countChecksum
  | .rejected => s.countRejected
  | .accepted t => s.acceptTelegram t

/-! ### Assembler (R59 to R62) -/

/-- The assembler returns to AWAIT_MARKER, its gap timer stopped. -/
def State.dropTelegram (s : State) : State := s.modLink (fun l => { l with asm := .awaitMarker, gapAt := none })

/-- The assembler collects, its gap timer started at this byte time (R59, R60). -/
def State.collect (s : State) (bytes : List Byte) : State :=
  s.modLink (fun l => { l with asm := .collecting bytes, gapAt := some s.now })

/-- A byte event (R59, R60). -/
def State.takeByte (s : State) (b : Byte) : State :=
  match s.link.asm with
  | .awaitMarker => if b = Config.marker then s.collect [] else s.countStray
  | .collecting [x, y, z] => s.dropTelegram.judgeTelegram x y z b
  | .collecting bytes => s.collect (bytes ++ [b])

/-- A framing-error event; the telegram in assembly is aborted (R62). -/
def State.takeFramingError (s : State) : State := s.dropTelegram.countFraming

/-- A parity-error event; the telegram in assembly is aborted (R62). -/
def State.takeParityError (s : State) : State := s.dropTelegram.countParity

/-! ### Frames (R57, R58) -/

/-- The bits of a byte in the other order. -/
def reverseByte (b : Byte) : Byte :=
  BitVec.ofBoolListBE [b.getLsbD 0, b.getLsbD 1, b.getLsbD 2, b.getLsbD 3, b.getLsbD 4, b.getLsbD 5, b.getLsbD 6, b.getLsbD 7]

/-- The byte of a frame's data samples (R57). -/
def frameByte (c : Setup) (f : Frame) : Byte := if c.pyroMsbFirst then reverseByte f.data else f.data

/-- Whether the stop points are good (R58). -/
def stopsGood (c : Setup) (f : Frame) : Bool := f.stop1 && (c.pyroStop != 2 || f.stop2)

/-- Whether an odd number of data bits is 1. -/
def oddOnes (b : Byte) : Bool := (List.range 8).foldl (fun p i => p ^^ b.getLsbD i) false

/-- Whether the parity bit matches the data bits (R58). -/
def parityGood (c : Setup) (f : Frame) : Bool :=
  match c.pyroParity with
  | .none => true
  | .even => f.parity == oddOnes f.data
  | .odd => f.parity != oddOnes f.data

/-- Whether a frame is in progress: its start has been confirmed and its last stop point has not come. -/
def inFrame : RxState → Bool
  | .data | .parity | .stop => true
  | .off | .settle | .ready | .start => false

/-- The frame is judged at its last stop point (R58). The levels sampled are the operand, whatever the receiver has sampled, and the PYRO
pin and the level seen before stay as they stood (DESIGN CHOICE, log 38). -/
def State.takeFrame (s : State) (f : Frame) : State :=
  if inFrame s.link.rx.state then
    if !stopsGood s.cfg f then s.enterSettle.takeFramingError
    else if !parityGood s.cfg f then (s.setRx .ready).takeParityError
    else (s.setRx .ready).takeByte (frameByte s.cfg f)
  else s

/-! ### Receiver and timers -/

/-- The line has settled (R56). Given as a command, it is taken whatever the run of ct at mark is, and leaves the PYRO pin and the level
seen before as they stood (DESIGN CHOICE, log 38). -/
def State.lineSettled (s : State) : State := if s.link.rx.state = .settle then s.setRx .ready else s

/-- A start edge (R56). Given as a command, it is taken in READY whatever PYRO and the level seen before hold, and leaves both as they
stood (DESIGN CHOICE, log 38). -/
def State.startEdge (s : State) : State :=
  if s.link.rx.state = .ready then s.modLink (fun l => { l with rx := { l.rx with state := .start, t0 := s.now, bits := [] } })
  else s

/-- The mid-start check; a confirmed start stops the gap timer (R56, R61). The level sampled is the operand, and the PYRO pin and the level
seen before stay as they stood (DESIGN CHOICE, log 38). -/
def State.midStart (s : State) (mark : Bool) : State :=
  if s.link.rx.state = .start then
    if mark then s.setRx .ready else (s.setRx .data).modLink (fun l => { l with gapAt := none })
  else s

/-- The gap timer expires (R61). -/
def State.gapExpires (s : State) : State :=
  match s.link.asm with
  | .collecting _ => if s.link.gapAt.isSome then s.dropTelegram.countTruncated else s
  | .awaitMarker => s

/-- The age goes up by 1 ms; at stale_ms the source becomes STALE (R65). -/
def State.ageOne (s : State) : State :=
  if s.link.source = .none then s
  else
    let s1 := s.setAge (sat16 s.link.age)
    if s.link.source = .live ∧ s.cfg.staleMs ≤ s1.link.age then s1.setSource .stale else s1

/-- LINE_SETTLED (R56). -/
def execLineSettled (s : State) : Result := .next s.lineSettled

/-- START_EDGE (R56). -/
def execStartEdge (s : State) : Result := .next s.startEdge

/-- MID_START_CHECK (R56). -/
def execMidStartCheck (mark : Bool) (s : State) : Result := .next (s.midStart mark)

/-- PYRO_FRAME (R58). -/
def execPyroFrame (f : Frame) (s : State) : Result := .next (s.takeFrame f)

/-- GAP_TIMER_EXPIRY (R61). -/
def execGapTimerExpiry (s : State) : Result := .next s.gapExpires

/-- AGE_INCREASE (R65). -/
def execAgeIncrease (s : State) : Result := .next s.ageOne

end Sys2Proof.Machine
end

