-- ==== Sys2Proof/Machine/Gauge.lean ====
section
/-! DEFINITION. Resets and INIT, and the commands through CONTROL (chapter 1, R28, R33); the meanings of FULL_RESET, RESET_RELEASE,
INIT_COMPLETE, SOFT_RESET, RUN, STOP, RESUME and CLEAR_HK. -/

namespace Sys2Proof.Machine

/-! ### Resets (R3 to R6) -/

/-- Every block in its reset state (Table 1-3; before INIT completes: DEDUCED, log 20). The gauge state, the memory, the pins and the
model's own fields are not a block's. -/
def State.resetBlocks (s : State) : State :=
  { State.reset with
    gauge := s.gauge, resetActive := s.resetActive, clearing := s.clearing, mem := s.mem, pins := s.pins, now := s.now,
    inputs := s.inputs, pending := s.pending }

/-- INIT begins, with soft or full clearing (R3, R4). -/
def State.beginInit (s : State) (soft : Bool) : State :=
  ({ s.resetBlocks with resetActive := false, clearing := { soft := soft, next := 0 } } : State).setGauge .init

/-- RESET goes active: all activity is abandoned (R3). -/
def State.fullReset (s : State) : State := { s.resetBlocks with resetActive := true, gauge := .init }

/-- RESET goes inactive (R3). -/
def State.releaseReset (s : State) : State := if s.resetActive then s.beginInit false else s

/-- The status words whose reset value is not 0, but for the gauge-state word (R6). -/
def State.putResetWords (s : State) : State :=
  (((s.put stFreeCount (toWord 952)).put stCurrent Config.noneWord).putList stQueue (List.replicate 4 Config.noneWord)).put
    stSetupError Config.noneWord

/-- Whether INIT is clearing the memory. -/
def State.initRunning (s : State) : Bool := s.gauge == .init && !s.resetActive

/-- INIT completes (R6). -/
def State.completeInit (s : State) : State :=
  if s.initRunning then
    let s1 : State := { s with mem := memClearFrom s.mem s.clearing.soft s.clearing.next }
    ((s1.resetBlocks).putResetWords).setGauge .halted
  else s

/-! ### RUN (R8 to R10) -/

/-- Clear the stray-confirm count of head `k`, with its word (Table 1-5). -/
def State.clearStray (s : State) (k : Head) : State :=
  ({ s with heads := vset s.heads k { s.heads[k] with stray := 0 } } : State).put (stStray + k.val) 0#16

/-- Clear the run counters but the link's (Table 1-5). -/
def State.clearRunCounters (s : State) : State :=
  ((forHeads State.clearStray { s with tubesCompleted := 0, tubesMissed := 0 }).put stCompleted 0#16).put stMissed 0#16

/-- Take the setup copies (R10, step 2); P_last becomes unknown first, so that the speed word is judged under the setup it was
published under (R88, R89). -/
def State.takeSetup (s : State) : State := { s.setPLast none with setup := some (setupOf s.mem) }

/-- The firing state follows the level of PERMIT (R10, step 6; R29). -/
def State.seedFiring (s : State) : State :=
  { s.setFiring (if s.pins.permit then .permitted else .suspended) with resumePending := false }

/-- Steps 1 to 7 of R10, with the POOL_LOW judgement of R163. -/
def State.prepareRun (s : State) : State :=
  let s1 := (((s.put stSetupError Config.noneWord).takeSetup).judgeLowAtRun).clearRunCounters.startLink
  let s2 := ({ s1 with slot := none, tracker := haltTracker s1.tracker } : State).setTrack .idle
  { s2.seedFiring with presence := { level := s.pins.present, run := 0 } }

/-- A RUN that finds every setup field valid (R10). -/
def State.startRun (s : State) : State :=
  let s1 := s.prepareRun.freshCycle
  (s1.setGauge (if s.pins.present then .waitClear else .armed)).answerCmd ansCmdOk

/-- A RUN that finds the field at offset `off` invalid (R9). -/
def State.failRun (s : State) (off : Nat) : State :=
  ((s.put stSetupError (toWord off)).answerCmd ansCmdSetupInvalid).raise causeSetup

/-- RUN (R8 to R10). -/
def State.run (s : State) : State :=
  match s.gauge with
  | .halted =>
    match setupError s.mem with
    | some off => s.failRun off
    | none => s.startRun
  | .armed | .measuring | .closing | .waitClear => s.answerCmd ansCmdIgnored
  | .init => s

/-! ### STOP (R12 to R14) -/

/-- STOP (R12 to R14). -/
def State.stopCmd (s : State) : State :=
  match s.gauge with
  | .armed | .waitClear => s.enterHalted.answerCmd ansCmdOk
  | .halted => s.answerCmd ansCmdIgnored
  | .measuring =>
    ((({ s with haltPending := true } : State).endMeasuring (some .aborted)).answerCmd ansCmdOk).closeIfDrained
  | .closing =>
    if s.haltPending then s.answerCmd ansCmdIgnored else ({ s with haltPending := true } : State).answerCmd ansCmdOk
  | .init => s

/-! ### RESUME and CLEAR_Hk (R33, R28) -/

/-- RESUME (R33). -/
def State.resumeCmd (s : State) : State :=
  if runs s.gauge && s.firing == .suspended && s.pins.permit then { s with resumePending := true } else s

/-- CLEAR_Hk (R28). -/
def State.clearHead (s : State) (k : Head) : State :=
  if s.heads[k].state = .fault then (s.setHeadState k .on).setMisfires k 0 else s

/-- The CLEAR_Hk bits of a CONTROL write, in their order (R28). -/
def State.clearHeads (s : State) (w : Word) : State :=
  forHeads (fun s k => if hasFlag w (ctlClear k) then s.clearHead k else s) s

/-! ### A CONTROL write (R7) -/

/-- RUN and STOP of a CONTROL write (R7). -/
def State.runStop (s : State) (w : Word) : State :=
  if hasFlag w ctlRun && hasFlag w ctlStop then s.answerCmd ansCmdConflict
  else if hasFlag w ctlStop then s.stopCmd
  else if hasFlag w ctlRun then s.run
  else s

/-- A host write of `w` to CONTROL (R7, R5). Every CONTROL row carries the whole word (DESIGN CHOICE, log 8). -/
def State.controlWrite (s : State) (w : Word) : State :=
  if s.resetActive then s
  else if hasFlag w ctlSoftReset then s.beginInit true
  else if s.gauge = .init then s
  else
    let s1 := s.runStop w
    (if hasFlag w ctlResume then s1.resumeCmd else s1).clearHeads w

/-- FULL_RESET (R3). -/
def execFullReset (s : State) : Result := .next s.fullReset

/-- RESET_RELEASE (R3). -/
def execResetRelease (s : State) : Result := .next s.releaseReset

/-- INIT_COMPLETE (R6). -/
def execInitComplete (s : State) : Result := .next s.completeInit

/-- SOFT_RESET (R4). -/
def execSoftReset (w : Word) (s : State) : Result := .next (s.controlWrite (w ||| ctlSoftReset))

/-- RUN (R8 to R10). -/
def execRun (w : Word) (s : State) : Result := .next (s.controlWrite (w ||| ctlRun))

/-- STOP (R12 to R14). -/
def execStop (w : Word) (s : State) : Result := .next (s.controlWrite (w ||| ctlStop))

/-- RESUME (R33). -/
def execResume (w : Word) (s : State) : Result := .next (s.controlWrite (w ||| ctlResume))

/-- CLEAR_HK (R28). -/
def execClearHk (k : Head) (w : Word) (s : State) : Result := .next (s.controlWrite (w ||| ctlClear k))

end Sys2Proof.Machine
end

