-- ==== Sys2Proof/Machine/Port.lean ====
section
/-! DEFINITION. The exchange port (10.2, 10.3): host writes to registers, to memory words and to request words; the meanings of the
port, order-request and record-request commands. -/

namespace Sys2Proof.Machine

/-- Whether the port isolates the host: RESET is active or the gauge is INIT (R3, R5). -/
def State.isolated (s : State) : Bool := s.resetActive || s.gauge == .init

/-- A host write to a port register (R159, R5). -/
def State.regWrite (s : State) (r : PortReg) (w : Word) : State :=
  match r with
  | .ident => s
  | .control => s.controlWrite w
  | .attnCause => if s.isolated then s else { s with attnCause := s.attnCause &&& ~~~(w.setWidth 8) }
  | .attnMask => if s.isolated then s else { s with attnMask := w.setWidth 8 }

/-- A host write of `v` into the request word of slot `j` (R157, R140); the write stands before the event (DEDUCED, log 21). Of the two
orders that R157 allows with a write-back at the same instant, it is the write-back first (DESIGN CHOICE, log 37). -/
def State.slotWrite (s : State) (j : SlotNo) (v : Word) : State :=
  if s.isolated then s else (s.put (slotAddr j 1) v).slotRequest j v

/-- A host write of `v` into the request word of record `r` (R157, R164). Of the two orders that R157 allows with a write-back at the same
instant, it is the write-back first (DESIGN CHOICE, log 37). -/
def State.recWrite (s : State) (r : RecNo) (v : Word) : State :=
  if s.isolated then s else (s.put (recAddr r 1) v).recRequest r v

/-- The slot whose request word is at an address (R157). -/
def slotOfRequest (a : Nat) : Option SlotNo := (List.finRange 4).find? (fun j => slotAddr j 1 == a)

/-- The record whose request word is at an address (R157). -/
def recordOfRequest (a : Nat) : Option RecNo := (List.finRange 16).find? (fun r => recAddr r 1 == a)

/-- A host write of `v` to the memory word at `a` (R155 to R157). -/
def State.hostWrite (s : State) (a v : Word) : State :=
  match slotOfRequest a.toNat, recordOfRequest a.toNat with
  | some j, _ => s.slotWrite j v
  | none, some r => s.recWrite r v
  | none, none => if s.isolated then s else s.put a.toNat v

/-- ATTN_CAUSE_WRITE (R160). -/
def execAttnCauseWrite (w : Word) (s : State) : Result := .next (s.regWrite .attnCause w)

/-- ATTN_MASK_WRITE (R159). -/
def execAttnMaskWrite (w : Word) (s : State) : Result := .next (s.regWrite .attnMask w)

/-- IGNORED_REGISTER_WRITE (R159, R5). -/
def execIgnoredRegisterWrite (r : PortReg) (w : Word) (s : State) : Result := .next (s.regWrite r w)

/-- HOST_MEMORY_WRITE (R156). -/
def execHostMemoryWrite (a v : Word) (s : State) : Result := .next (s.hostWrite a v)

/-- POST (R141). -/
def execPost (j : SlotNo) (s : State) : Result := .next (s.slotWrite j reqPost)

/-- CANCEL (R149). -/
def execCancel (j : SlotNo) (s : State) : Result := .next (s.slotWrite j reqCancel)

/-- AMEND (R150). -/
def execAmend (j : SlotNo) (s : State) : Result := .next (s.slotWrite j reqAmend)

/-- WITHDRAWAL (R153). -/
def execWithdrawal (j : SlotNo) (s : State) : Result := .next (s.slotWrite j reqNone)

/-- BAD_REQUEST (R140). -/
def execBadRequest (j : SlotNo) (v : Word) (s : State) : Result := .next (s.slotWrite j v)

/-- RELEASE (R164). -/
def execRelease (r : RecNo) (s : State) : Result := .next (s.recWrite r reqRelease)

/-- RECORD_BAD_REQUEST (R164). -/
def execRecordBadRequest (r : RecNo) (v : Word) (s : State) : Result := .next (s.recWrite r v)

end Sys2Proof.Machine
end

