-- ==== Sys2Proof/Machine/Clock.lean ====
section
/-! DEFINITION. What happens with time on an empty queue: the timer event that is due, and one ct of the clock with the sampled
inputs: the encoder filter (R86), the presence filter (R120), the pyrometer receiver (R55 to R57), the comparators and the peak
detector (R43, R49), and the INIT clearing (R5). -/

namespace Sys2Proof.Machine

/-! ### Timer events (DESIGN CHOICE, log 1, log 2) -/

/-- An event, if its condition holds. -/
def dueIf (b : Bool) (i : Instr) : Option Instr := if b then some i else none

/-- The INIT clearing has come to its end (R5, R6). -/
def State.dueInit (s : State) : Option Instr := dueIf (s.initRunning && Config.memWords ≤ s.clearing.next) .initComplete

/-- The timer events of the temperature link (R56, R57, R61, R65). -/
def State.dueLink (s : State) : Option Instr :=
  let l := s.link
  let c := s.cfg
  let bit := fun i => l.rx.bits.getD i false
  let after := if c.pyroParity = .none then 8 else 9
  let frame : Frame :=
    { data := BitVec.ofBoolListLE (l.rx.bits.take 8 ++ List.replicate (8 - l.rx.bits.length) false) |>.setWidth 8,
      parity := bit 8, stop1 := bit after, stop2 := bit (after + 1) }
  (dueIf (l.rx.state == .settle && bitTime c ≤ l.rx.markRun) .lineSettled)
  <|> (dueIf (l.rx.state == .start && l.rx.t0 + halfBit c ≤ s.now) (.midStartCheck l.rx.prevMark))
  <|> (dueIf (inFrame l.rx.state && framePoints c ≤ l.rx.bits.length) (.pyroFrame frame))
  <|> (dueIf (l.asm != .awaitMarker && (l.gapAt.map (fun t => decide (t + c.gapLimit * bitTime c ≤ s.now))).getD false)
        .gapTimerExpiry)
  <|> (dueIf (l.source != .none && l.age < 65535 && l.ageAt + Config.ctPerMs * (l.age + 1) ≤ s.now) .ageIncrease)

/-- The timer events of the tracker (R91, R92). -/
def State.dueTracker (s : State) : Option Instr :=
  let t := s.tracker
  (dueIf (t.state == .tracking
      && (t.stallLimit.map (fun l => decide (t.stallAt + Config.ctPerUs * l ≤ s.now))).getD false) .stall)
  <|> (dueIf (t.state == .deadReckoning
      && (t.pLast.map (fun p => decide (0 < p ∧ t.synthAt + Config.ctPerUs * p ≤ s.now))).getD false) .syntheticStep)

/-- The timer events of the shot in flight (R23, R46, R47, R49, R51). -/
def State.dueShot (s : State) (p : Phase) : Option Instr :=
  match p with
  | .idle | .quiet _ => none
  | .awaitConf sh => dueIf (sh.firedAt + s.cfg.confWin ≤ s.now) .misfire
  | .blanking sh => dueIf (sh.confAt + sh.bound.recipe.blanking ≤ s.now) .endOfBlanking
  | .opened sh c =>
    let tu := Config.tuPerCt * (s.now - sh.confAt)
    (match c.holdOff with
      | some e => dueIf (decide (e ≤ tu)) (.holdOffEnd e)
      | none => none)
    <|> (match c.echoes with
      | e1 :: _ => dueIf (c.sample.isNone && e1 + Config.tuPerCt * sh.bound.recipe.peakDelay ≤ tu) (.amplitudeSample c.peak)
      | [] => none)
    <|> (dueIf (windowEndTu sh.bound ≤ tu) (.windowEnd c.peak))

/-- The peak detector of the present slot's channel (R49). -/
def State.peakNow (s : State) : Byte :=
  match s.slot with
  | some h => match h.phase with
    | .opened _ c => c.peak
    | _ => 0#8
  | none => 0#8

/-- The events of the cycle timer (R16, R18). -/
def State.dueSlot (s : State) (h : HeadSlot) : Option Instr :=
  let c := s.cfg
  (match h.phase with
    | .quiet _ => dueIf (h.startAt + c.quietGate ≤ s.now) .fireDecision
    | _ => none)
  <|> (dueIf (!s.awaiting && h.head == 3 && s.cycleAt + cycleCt c ≤ s.now) (.cycleStart .cutFirst s.peakNow))
  <|> (dueIf (!s.awaiting && h.head != 3 && s.cycleAt + (h.head.val + 1) * slotCt c ≤ s.now) (.slotStart s.peakNow))

/-- The events of the release scanner (R165, R166). -/
def State.dueScan (s : State) : Option Instr :=
  match s.pool.scan with
  | none => dueIf (!s.pool.releaseQueue.isEmpty) .scanStart
  | some c =>
    (dueIf (c.next < 952 && c.startAt + c.next ≤ s.now) .scanStep)
    <|> (dueIf (952 ≤ c.next && c.startAt + 952 ≤ s.now) .scanEnd)

/-- The completions that a close waits for (R109, R134; log 9). -/
def State.dueClose (s : State) : Option Instr :=
  (match s.tube.bind Tube.closing with
    | some c => dueIf (!s.flightFor c.index) .closingSectionCompletion
    | none => none)
  <|> (dueIf (s.gauge == .closing && s.inFlight == none) .closeCompletion)

/-- The timer event that is due now, the first in a fixed order (DESIGN CHOICE, log 2). -/
def State.due (s : State) : Option Instr :=
  s.dueInit <|> s.dueClose <|> s.dueLink <|> s.dueTracker <|> (s.slot.bind (fun h => s.dueShot h.phase))
  <|> (s.slot.bind s.dueSlot) <|> s.dueScan

/-! ### Sampled inputs -/

/-- The encoder filter's sample interval, in half ct (Table 6-1; the phase: DESIGN CHOICE, log 13). -/
def encInterval : EncFilter → Nat
  | .off => 2
  | .mhz10 => 5
  | .mhz2p5 => 20
  | .khz625 => 80

/-- The number of equal samples that change the filtered level (R86). -/
def encNeeded : EncFilter → Nat
  | .off => 1
  | _ => 3

/-- The encoder filter takes a sample (R86). -/
def encSample (f : EncFilter) (t : Tracker) (x : Bool) : Tracker :=
  if x = t.encLevel then { t with encRun := 0 }
  else if encNeeded f ≤ t.encRun + 1 then { t with encLevel := x, encRun := 0 }
  else { t with encRun := t.encRun + 1 }

/-- The encoder filter over one ct (R86). -/
def encTick (f : EncFilter) (t : Tracker) (x : Bool) : Tracker :=
  if encInterval f ≤ t.encPhase + 2 then encSample f { t with encPhase := t.encPhase + 2 - encInterval f } x
  else { t with encPhase := t.encPhase + 2 }

/-- The debounce length D, in ct (R120). -/
def debounceCt (c : Setup) : Nat := if c.debounce = 0 then 1 else Config.ctPerMs * c.debounce

/-- The presence filter takes a sample: its run count, and whether the filtered level changes (R120). -/
def presenceSample (c : Setup) (p : Presence) (x : Bool) : Presence × Bool :=
  if x = p.level then ({ p with run := 0 }, false)
  else if debounceCt c ≤ p.run + 1 then ({ p with run := 0 }, true)
  else ({ p with run := p.run + 1 }, false)

/-- The row that a filtered edge to `high` is in a gauge state (R121). -/
def edgeRow (g : GaugeState) (high : Bool) : Instr :=
  match g, high with
  | .measuring, false => .tailEvent
  | .waitClear, false => .presenceClear
  | .closing, _ => .presenceRecorded high
  | _, true => .headEvent
  | _, false => .presenceClear

/-- The line level of PYRO: `true` is mark (R55). -/
def lineMark (c : Setup) (pyro : Bool) : Bool := pyro != c.pyroInverted

/-- The receiver's state after `n` of a frame's samples (Table 4-2). -/
def stateAfter (c : Setup) (n : Nat) : RxState :=
  if n < 8 then .data else if n = 8 && c.pyroParity != .none then .parity else .stop

/-- The receiver over one ct that ends at `now` with the line level `mark` (R56, R57). -/
def rxTick (c : Setup) (now : Nat) (r : Receiver) (mark : Bool) : Receiver :=
  let r1 := { r with prevMark := mark }
  match r.state with
  | .settle => { r1 with markRun := if mark then r.markRun + 1 else 0 }
  | .data | .parity | .stop =>
    if r.t0 + halfBit c + (r.bits.length + 1) * bitTime c = now then
      { r1 with bits := r.bits ++ [mark], state := stateAfter c (r.bits.length + 1) }
    else r1
  | .off | .ready | .start => r1

/-- Whether a ct brings a start edge (R56). -/
def startsFrame (r : Receiver) (mark : Bool) : Bool := r.state == .ready && r.prevMark && !mark

/-- The comparator outputs of a channel with its threshold at `code`, at a signal level, with the hysteresis of 2 DAC codes (R43). -/
def compare (code : Nat) (c : Channel) (level : Int) : Channel :=
  { c with
    cmpPos := if c.cmpPos then decide ((code : Int) - 2 ≤ level) else decide ((code : Int) < level)
    cmpNeg := if c.cmpNeg then decide (level ≤ 2 - (code : Int)) else decide (level < -(code : Int)) }

/-- The DAC code that channel `k` compares with: from its fire decision to the end of its shot the code held at that decision, which
is the threshold of the shot's bound settings, and the code it holds at all other times (R42). -/
def State.codeInUse (s : State) (k : Head) : Nat :=
  match s.channelPhase k with
  | .awaitConf sh | .blanking sh | .opened sh _ => sh.bound.recipe.threshold
  | .idle | .quiet _ => s.chans[k].dac

/-- The excursion of a level in a direction, as the ADC reads it (R49). -/
def excursion (p : Polarity) (level : Int) : Byte :=
  BitVec.ofNat 8 (min (match p with
    | .pos => level.toNat
    | .neg => (-level).toNat) 255)

/-- The tu time of a moment `offset` tu into the ct that begins now, on the time base of head `k`'s channel (R45). -/
def State.tuAt (s : State) (k : Head) (offset : Nat) : Nat :=
  match s.channelPhase k with
  | .blanking sh | .opened sh _ => Config.tuPerCt * (s.now - sh.confAt) + offset
  | .idle | .quiet _ | .awaitConf _ => 0

/-- The instant of the amplitude sample, once an echo is captured (R49). -/
def sampleInstant (n : Snapshot) (c : Capture) : Option Nat :=
  c.echoes.head?.map (fun e => e + Config.tuPerCt * n.recipe.peakDelay)

/-- Whether the peak detector still follows the signal at `t` tu: no sample is taken, and the sample instant is yet to come (R49). -/
def followsAt (n : Snapshot) (c : Capture) (t : Nat) : Bool :=
  c.sample.isNone && (sampleInstant n c).all (fun i => decide (t < i))

/-- The peak detector takes an excursion (R49). -/
def holdPeak (c : Capture) (x : Byte) : Capture := if c.peak.toNat < x.toNat then { c with peak := x } else c

/-- The peak detector of head `k`'s channel at a level of its signal, at `t` tu of its shot (R49). -/
def State.followEcho (s : State) (k : Head) (t : Nat) (level : Int) : State :=
  match s.channelPhase k with
  | .opened sh c =>
    if followsAt sh.bound c t then s.setPhase (.opened sh (holdPeak c (excursion sh.bound.recipe.polarity level))) else s
  | .idle | .quiet _ | .awaitConf _ | .blanking _ => s

/-- A receiver signal stands at a level: its channel's comparator outputs and peak detector follow (R43, R49). -/
def State.takeLevel (s : State) (p : EchoPoint) : State :=
  ({ s with
      chans := vset s.chans p.head (compare (s.codeInUse p.head) s.chans[p.head] p.level)
      pins := { s.pins with echo := vset s.pins.echo p.head p.level } } : State).followEcho p.head (s.tuAt p.head p.offset) p.level

/-- The crossings that a channel's outputs made between two states, at `t` tu (R43). -/
def crossingsOf (k : Head) (c d : Channel) (t : Nat) : List Instr :=
  (dueIf (!c.cmpPos && d.cmpPos) (.crossing k .pos t)).toList ++ (dueIf (!c.cmpNeg && d.cmpNeg) (.crossing k .neg t)).toList

/-- A change of a receiver signal: the comparators' outputs, and the crossings it makes (R43). -/
def State.echoPoint (s : State) (p : EchoPoint) : State × List Instr :=
  let s1 := s.takeLevel p
  (s1, crossingsOf p.head s.chans[p.head] s1.chans[p.head] (s.tuAt p.head p.offset))

/-- Whether the quiet gate of channel `k` was running before this ct. -/
def State.gateRuns (s : State) (k : Head) : Bool :=
  match s.slot with
  | some h => h.head == k && (match h.phase with
    | .quiet _ => decide (h.startAt < s.now)
    | _ => false)
  | none => false

/-- The standing signal of channel `k` at the beginning of a ct: the outputs settle at the DAC code now in use, and the peak detector
sees the level that stood before its phase. An output that a DAC load makes active is a crossing in a quiet gate that was running, and
none at the beginning of a phase (R42, R43, R49; DEDUCED, log 33). -/
def State.standing (s : State) (k : Head) : State × List Instr :=
  let r := s.echoPoint { head := k, offset := 0, level := s.pins.echo[k] }
  (r.1, if s.gateRuns k then r.2 else [])

/-- Settle channel `k`, with the crossings found before. -/
def settleChannel (r : State × List Instr) (k : Head) : State × List Instr :=
  let q := r.1.standing k
  (q.1, r.2 ++ q.2)

/-- Settle the four channels at their standing signals. -/
def State.settleEchoes (s : State) : State × List Instr := (List.finRange 4).foldl settleChannel (s, [])

/-- The changes of the receiver signals in one ct. -/
def State.echoPoints (s : State) : List EchoPoint → State × List Instr
  | [] => (s, [])
  | p :: ps =>
    let r := s.echoPoint p
    let q := r.1.echoPoints ps
    (q.1, r.2 ++ q.2)

/-- The receiver signals over one ct: the standing levels, then their changes. -/
def State.echoTick (s : State) (ps : List EchoPoint) : State × List Instr :=
  let r := s.settleEchoes
  let q := r.1.echoPoints ps
  (q.1, r.2 ++ q.2)

/-! ### One ct -/

/-- The pin levels of the coming ct; without a sample the pins keep theirs (log 7). -/
def State.nextSample (s : State) : PinSample :=
  s.inputs.headD { present := s.pins.present, enc := s.pins.enc, pyro := s.pins.pyro, echo := [] }

/-- The pins take their levels and one ct passes. -/
def State.advance (s : State) (x : PinSample) : State :=
  { s with now := s.now + 1, inputs := s.inputs.tail,
           pins := { s.pins with present := x.present, enc := x.enc, pyro := x.pyro } }

/-- The INIT clearing goes on by one word (R5; the pace: DESIGN CHOICE, log 14). -/
def State.clearWord (s : State) : State :=
  if s.initRunning && s.clearing.next < Config.memWords then
    { s with mem := memClearOne s.mem s.clearing.soft s.clearing.next,
             clearing := { s.clearing with next := s.clearing.next + 1 } }
  else s

/-- The filters and the receiver sample their inputs while the gauge runs; the events found, in a fixed order (DESIGN CHOICE, log 2). -/
def State.sampleInputs (s : State) (x : PinSample) : State × List Instr :=
  let c := s.cfg
  let enc := encTick c.encFilter s.tracker x.enc
  let stepped := !s.tracker.encLevel && enc.encLevel
  let us := s.now / Config.ctPerUs - s.tracker.stepAt / Config.ctPerUs
  let pres := presenceSample c s.presence x.present
  let mark := lineMark c x.pyro
  ({ s with
      tracker := { s.tracker with encLevel := enc.encLevel, encRun := enc.encRun, encPhase := enc.encPhase },
      presence := pres.1,
      link := { s.link with rx := rxTick c s.now s.link.rx mark } },
    (dueIf stepped (.realStep (min us Config.periodMax))).toList ++ (dueIf pres.2 (edgeRow s.gauge x.present)).toList
      ++ (dueIf (startsFrame s.link.rx mark) .startEdge).toList)

/-- One ct passes; the events that the sampled inputs made wait in the queue (DESIGN CHOICE, log 1, log 2). -/
def State.tick (s : State) : State :=
  let x := s.nextSample
  let e := s.echoTick x.echo
  let s1 := (e.1.advance x).clearWord
  if runs s.gauge then
    let r := s1.sampleInputs x
    { r.1 with pending := e.2 ++ r.2 }
  else s1

end Sys2Proof.Machine
end

