-- ==== Sys2Proof/Machine/Dispatch.lean ====
section
/-! DEFINITION. One arm per constructor of Instr: the meaning of each command. -/

namespace Sys2Proof.Machine

def exec (i : Instr) (s : State) : Host.Outcome State Fault Refusal :=
  match i with
  | .fullReset => Sys2Proof.Machine.execFullReset s
  | .resetRelease => Sys2Proof.Machine.execResetRelease s
  | .initComplete => Sys2Proof.Machine.execInitComplete s
  | .softReset w => Sys2Proof.Machine.execSoftReset w s
  | .run w => Sys2Proof.Machine.execRun w s
  | .stop w => Sys2Proof.Machine.execStop w s
  | .resume w => Sys2Proof.Machine.execResume w s
  | .clearHk k w => Sys2Proof.Machine.execClearHk k w s
  | .attnCauseWrite w => Sys2Proof.Machine.execAttnCauseWrite w s
  | .attnMaskWrite w => Sys2Proof.Machine.execAttnMaskWrite w s
  | .ignoredRegisterWrite r w => Sys2Proof.Machine.execIgnoredRegisterWrite r w s
  | .hostMemoryWrite a v => Sys2Proof.Machine.execHostMemoryWrite a v s
  | .post j => Sys2Proof.Machine.execPost j s
  | .cancel j => Sys2Proof.Machine.execCancel j s
  | .amend j => Sys2Proof.Machine.execAmend j s
  | .withdrawal j => Sys2Proof.Machine.execWithdrawal j s
  | .badRequest j v => Sys2Proof.Machine.execBadRequest j v s
  | .release r => Sys2Proof.Machine.execRelease r s
  | .recordBadRequest r v => Sys2Proof.Machine.execRecordBadRequest r v s
  | .cycleStart o peak => Sys2Proof.Machine.execCycleStart o peak s
  | .slotStart peak => Sys2Proof.Machine.execSlotStart peak s
  | .fireDecision => Sys2Proof.Machine.execFireDecision s
  | .confEdge k => Sys2Proof.Machine.execConfEdge k s
  | .misfire => Sys2Proof.Machine.execMisfire s
  | .endOfBlanking => Sys2Proof.Machine.execEndOfBlanking s
  | .crossing k c t => Sys2Proof.Machine.execCrossing k c t s
  | .holdOffEnd t => Sys2Proof.Machine.execHoldOffEnd t s
  | .amplitudeSample a => Sys2Proof.Machine.execAmplitudeSample a s
  | .windowEnd a => Sys2Proof.Machine.execWindowEnd a s
  | .permitLoss => Sys2Proof.Machine.execPermitLoss s
  | .lineSettled => Sys2Proof.Machine.execLineSettled s
  | .pyroFrame f => Sys2Proof.Machine.execPyroFrame f s
  | .gapTimerExpiry => Sys2Proof.Machine.execGapTimerExpiry s
  | .ageIncrease => Sys2Proof.Machine.execAgeIncrease s
  | .realStep us => Sys2Proof.Machine.execRealStep us s
  | .stall => Sys2Proof.Machine.execStall s
  | .syntheticStep => Sys2Proof.Machine.execSyntheticStep s
  | .headEvent => Sys2Proof.Machine.execHeadEvent s
  | .tailEvent => Sys2Proof.Machine.execTailEvent s
  | .presenceClear => Sys2Proof.Machine.execPresenceClear s
  | .presenceRecorded high => Sys2Proof.Machine.execPresenceRecorded high s
  | .closingSectionCompletion => Sys2Proof.Machine.execClosingSectionCompletion s
  | .closeCompletion => Sys2Proof.Machine.execCloseCompletion s
  | .scanStart => Sys2Proof.Machine.execScanStart s
  | .scanStep => Sys2Proof.Machine.execScanStep s
  | .scanEnd => Sys2Proof.Machine.execScanEnd s
  | .permitActive => Sys2Proof.Machine.execPermitActive s
  | .startEdge => Sys2Proof.Machine.execStartEdge s
  | .midStartCheck mark => Sys2Proof.Machine.execMidStartCheck mark s

end Sys2Proof.Machine
end

