-- ==== Sys2Proof/WellFormed.lean ====
section
/-! DEFINITION. Which commands are well-formed: those whose operands the row that they stand for admits. -/

namespace Sys2Proof

open Machine

/-- Whether a host write to the word at `a` of the value `v` is no request event that another row stands for: `a` is no request
word, or it is a tube record's and `v` is NONE, which has no effect there (R164). -/
def plainWrite (a v : Word) : Bool :=
  (slotOfRequest a.toNat).isNone && ((recordOfRequest a.toNat).isNone || v == reqNone)

/-- Whether a slot's request value is no request code of a slot (R169). -/
def noSlotRequest (v : Word) : Bool := v != reqNone && v != reqPost && v != reqCancel && v != reqAmend

/-- Whether a record's request value is no request code of a record (R169). -/
def noRecordRequest (v : Word) : Bool := v != reqNone && v != reqRelease

/-- Whether the port may ignore a write of `w` to a register: to IDENT always, to another during INIT unless it is a SOFT_RESET
(R159, R5). -/
def ignorable (r : PortReg) (w : Word) : Bool := r != .control || !hasFlag w ctlSoftReset

/-- Whether a command is well-formed. -/
def wellFormed : Instr → Bool
  | .hostMemoryWrite a v => plainWrite a v
  | .badRequest _ v => noSlotRequest v
  | .recordBadRequest _ v => noRecordRequest v
  | .ignoredRegisterWrite r w => ignorable r w
  | .crossing _ _ t => t ≤ Config.tuMax
  | .holdOffEnd t => t ≤ Config.tuMax
  | .realStep us => us ≤ Config.periodMax
  | .fullReset | .resetRelease | .initComplete | .softReset _ | .run _ | .stop _ | .resume _ | .clearHk _ _ | .attnCauseWrite _
  | .attnMaskWrite _ | .post _ | .cancel _ | .amend _ | .withdrawal _ | .release _ | .cycleStart _ _ | .slotStart _
  | .fireDecision | .confEdge _ | .misfire | .endOfBlanking | .amplitudeSample _ | .windowEnd _ | .permitLoss | .lineSettled
  | .pyroFrame _ | .gapTimerExpiry | .ageIncrease | .stall | .syntheticStep | .headEvent | .tailEvent | .presenceClear
  | .presenceRecorded _ | .closingSectionCompletion | .closeCompletion | .scanStart | .scanStep | .scanEnd | .permitActive
  | .startEdge | .midStartCheck _ => true

end Sys2Proof
end

