-- ==== Sys2Proof/Machine/Step.lean ====
section
/-! DEFINITION. One step of the machine: the command at the front of the queue, or, on an empty queue, the timer event that is due, or
one ct of the clock. -/

namespace Sys2Proof.Machine

/-- A step on an empty queue: the timer event that is due is taken, else one ct passes (DESIGN CHOICE, log 1). -/
def State.idleStep (s : State) : Result :=
  match s.due with
  | some i => exec i s
  | none => .next s.tick

/-- One step. -/
def step (s : State) : Host.Outcome State Fault Refusal :=
  match s.pending with
  | i :: rest => exec i { s with pending := rest }
  | [] => s.idleStep

/-- The state with the command that a word spells put at the front of its queue; a word that spells none changes nothing. -/
def State.withFetchWord (s : State) (nbits w : Nat) : State :=
  match decodeTableWord nbits w with
  | some i => { s with pending := i :: s.pending }
  | none => s

end Sys2Proof.Machine
end

