-- ==== Sys2Proof/Safety.lean ====
section
/-! DEFINITION. The terms in which claims about the machine are stated: what a command writes to memory, the closing state that ends
measuring, and the invariants behind the laws of the part (laws 1 to 4, 8, 10 and 12). -/

namespace Sys2Proof.Safety

open Machine

/-! ### Memory frames -/

/-- Every word of exchange memory reads after as it did before, but for the words listed with their new values. Where an address is
listed twice, its first entry counts. -/
def Wrote (s t : State) (ws : List (Nat × Word)) : Prop :=
  ∀ a, a < Config.memWords → memRead t.mem a = (ws.lookup a).getD (memRead s.mem a)

/-- Consecutive words from address `a` on. -/
def wordsAt (a : Nat) : List Word → List (Nat × Word)
  | [] => []
  | v :: vs => (a, v) :: wordsAt (a + 1) vs

/-- A word that is written only if its value changes. -/
def ifChanged (changed : Bool) (a : Nat) (v : Word) : List (Nat × Word) := if changed then [(a, v)] else []

/-- The exchange port is open to the host: RESET is inactive and the gauge is not INIT (R3, R5). -/
def PortOpen (s : State) : Prop := s.resetActive = false ∧ s.gauge ≠ .init

/-- One command after another. -/
def andThen (r : Result) (f : State → Result) : Result :=
  match r with
  | .next s => f s
  | .fault x => .fault x
  | .refused x => .refused x

/-- A command that is taken if its bit is set. -/
def ifBit (b : Bool) (i : Instr) (s : State) : Result := if b then exec i s else .next s

/-! ### Rounding -/

/-- `q` is "nearest" of `a / b` with halves away from zero (R1): it lies within half a unit of the quotient, and where it lies exactly
half a unit off, it lies further from zero. -/
def IsNearest (a : Int) (b : Nat) (q : Int) : Prop := 2 * |b * q - a| ≤ b ∧ (2 * |b * q - a| = b → |a| < b * |q|)

/-! ### Checks, orders and answers -/

/-- A list of checks passes: every check of it holds. -/
def Passes (checks : List (Nat × Bool)) : Prop := ∀ c ∈ checks, c.2 = true

/-- A list of checks fails first at the field at offset `off`: the checks before it hold and its own does not. -/
def FailsFirstAt (checks : List (Nat × Bool)) (off : Nat) : Prop :=
  ∃ before behind, checks = before ++ (off, false) :: behind ∧ Passes before

/-- The request word that an answer writes back: AMEND while an amendment is pending, else NONE (R140). -/
def writeBack (x : OrderSlot) : Word := if x.amendment.isSome then 3#16 else 0#16

/-- The four words that show an order queue, front first (R145). -/
def queueWords (q : List SlotNo) : List (Nat × Word) :=
  wordsAt 0x07 ([0, 1, 2, 3].map (fun i => (q[i]?.map (fun j => BitVec.ofNat 16 j.val)).getD 0xFFFF#16))

/-! ### Frames of the pyrometer line -/

/-- The frame `f` has passed its start check, its stop points are at mark and its parity, if it has one, matches (R57, R58). -/
def FrameGood (s : State) (f : Frame) : Prop :=
  (s.link.rx.state = .data ∨ s.link.rx.state = .parity ∨ s.link.rx.state = .stop)
    ∧ f.stop1 = true ∧ (s.cfg.pyroStop = 2 → f.stop2 = true)
    ∧ (let ones := ((List.range 8).filter (fun i => f.data.getLsbD i)).length + f.parity.toNat
       s.cfg.pyroParity = .none ∨ (s.cfg.pyroParity = .even ∧ ones % 2 = 0) ∨ (s.cfg.pyroParity = .odd ∧ ones % 2 = 1))

/-- The byte of the frame `f` is `b`: sample point i + 1 is bit i, or bit 7 - i with the MSB first (R57). -/
def FrameCarries (s : State) (f : Frame) (b : Byte) : Prop :=
  ∀ i, i < 8 → b.getLsbD i = f.data.getLsbD (if s.cfg.pyroMsbFirst then 7 - i else i)

/-! ### Sections on their way to memory (8.6, 8.7) -/

/-- The result of the section `a` under the settings `r`, with the extra flags `f` and the head-zone mark (R113, R129). -/
def resultOf (r : Recipe) (a : Accum) (f : Word) : SectionResult :=
  let res := completeAccum r.lSec r.occMin a ((a.index + 1) * r.lSec) f
  { res with flags := if a.index * r.lSec < r.headSkip then res.flags ||| sfExcludedHead else res.flags }

/-- `s` with the open tube `x` of record `r` after the sections of a list are written, in order: each takes the front block of the free
list, or is lost for want of one (R132, R162, R163). The memory stays to be said. -/
def sectionsWritten (s : State) (r : RecNo) (x : Tube) : List SectionResult → State
  | [] => { s with tube := some x }
  | y :: ys =>
    match s.pool.free with
    | [] =>
      sectionsWritten s r
        { x with lost := min (x.lost + 1) 65535, flags := x.flags ||| tfPoolExhausted, accum := offer x.accum y } ys
    | b :: rest =>
      let low := s.setup.isSome && s.pool.lowArmed && decide (rest.length < s.cfg.poolLow)
      sectionsWritten
        { s with
          pool := { s.pool with free := rest, owner := vset s.pool.owner b (some r), lowArmed := s.pool.lowArmed && !low }
          attnCause := (if low then s.attnCause ||| causePoolLow else s.attnCause) ||| causeSection }
        r { x with lastBlock := some b, written := min (x.written + 1) 65535, accum := offer x.accum y } ys

/-- The words that the writing of these sections changes, the last ones first, `free` being the free list: for a section in a block the
block's words with the link none, the link to it, the sections-written word and the free-block count; for a lost one the
sections-lost word (R132, R162). -/
def sectionWords (free : List BlockNo) (r : RecNo) (x : Tube) : List SectionResult → List (Nat × Word)
  | [] => []
  | y :: ys =>
    match free with
    | [] =>
      sectionWords [] r { x with lost := min (x.lost + 1) 65535 } ys
        ++ ifChanged (x.lost ≠ min (x.lost + 1) 65535) (recAddr r 12) (BitVec.ofNat 16 (min (x.lost + 1) 65535))
    | b :: rest =>
      sectionWords rest r { x with lastBlock := some b, written := min (x.written + 1) 65535 } ys
        ++ [(recAddr r 11, BitVec.ofNat 16 (min (x.written + 1) 65535)),
            (match x.lastBlock with
              | some p => blkAddr p 0
              | none => recAddr r 10, BitVec.ofNat 16 b.val)]
        ++ wordsAt (blkAddr b 0) (blockWordsOf y) ++ [(stFreeCount, BitVec.ofNat 16 rest.length)]

/-- The sections of a list that the tube summary counts: included and not NO_DATA, lost ones among them (R133). -/
def countedIn (xs : List SectionResult) : List SectionResult :=
  xs.filter (fun y => y.flags &&& (sfExcludedHead ||| sfExcludedTail ||| sfNoData) = 0#16)

/-- The six words of the tube summary, the tube accumulators standing at `a` and the sections `xs` being offered after: least min,
greatest max, "nearest" of ΣΣt / Σn, greatest E with the lowest index that has it, and the number of sections counted; 0 with section
none where that number is 0 (R133, R136). -/
def summaryAfter (a : TubeAccum) (xs : List SectionResult) : List Word :=
  let ys := countedIn xs
  let word := fun n : Nat => BitVec.ofNat 16 n
  if a.count + ys.length = 0 then [0#16, 0#16, 0#16, 0#16, 0xFFFF#16, 0#16]
  else
    let least := ((a.range.toList.map Prod.fst ++ ys.map SectionResult.min).min?).getD 0
    let greatest := ((a.range.toList.map Prod.snd ++ ys.map SectionResult.max).max?).getD 0
    let eccs := a.best.toList ++ ys.map (fun y => (y.ecc, y.index))
    let most := ((eccs.map Prod.fst).max?).getD 0
    [word least, word greatest,
     word (nearestNat (a.sumT + (ys.map SectionResult.sumT).sum) (a.sumN + (ys.map SectionResult.n).sum)),
     word most, word (((eccs.find? (fun e => e.1 == most)).map Prod.snd).getD 0), word (min (a.count + ys.length) 65535)]

/-- The words 13 to 53 of the record of a tube with an order that ended at `z`, once the sections `xs` have been written, some of them
lost if `lost`: outcome, flags, the unused word, length, the fifteen totals, the summary (R126, R135, R136, Table 11-7). -/
def recordWordsAfter (x : Tube) (z : Nat) (lost : Bool) (xs : List SectionResult) : List Word :=
  let two := fun n : Nat => [BitVec.ofNat 16 (n % 65536), BitVec.ofNat 16 (n / 65536)]
  let u := x.totals
  [match x.outcome with
    | .normal => 0#16
    | .aborted => 1#16
    | .overlength => 2#16
    | .noOrder => 3#16,
   if lost then x.flags ||| 0x0020#16 else x.flags, 0#16] ++ two z
  ++ [u.valid, u.noEcho, u.noPair, u.outOfBand, u.noisy, u.misfire, u.aborted, u.unmapped, u.late, u.suspended, u.deadReckoned,
      u.headMisfires[0], u.headMisfires[1], u.headMisfires[2], u.headMisfires[3]].flatMap two
  ++ summaryAfter x.accum xs

/-- Whether a release pass at `z` lets a section go: its end lies tail_skip or more behind (R130). -/
def leaves (tailSkip z : Nat) (h : SectionResult) : Bool := decide (h.endZ + tailSkip ≤ z)

/-- `s` with the open tube `x` of record `r` after a release pass at `z`: the front sections of the holdback queue that may go are
written (R130). -/
def released (s : State) (r : RecNo) (tailSkip z : Nat) (x : Tube) : State :=
  sectionsWritten s r { x with holdback := x.holdback.dropWhile (leaves tailSkip z) } (x.holdback.takeWhile (leaves tailSkip z))

/-- The words that this release pass changes. -/
def releasedWords (s : State) (r : RecNo) (tailSkip z : Nat) (x : Tube) : List (Nat × Word) :=
  sectionWords s.pool.free r x (x.holdback.takeWhile (leaves tailSkip z))

/-- The open tube `x` with its CLOSING section, if it has one, completed into the holdback queue (R109, R130). -/
def withClosingDone (r : Recipe) (x : Tube) : Tube :=
  { x with closing := none, holdback := x.holdback ++ x.closing.toList.map (fun c => resultOf r c 0#16) }

/-- `s` with the open tube `x`, no shot being in flight: a CLOSING section completes, and the release pass follows (R109, R130). -/
def settled (s : State) (x : Tube) : State :=
  match x.closing, x.record, s.tubeOrder with
  | some _, some r, some n =>
    released s r n.recipe.tailSkip (x.zTail.getD s.tracker.z) (withClosingDone n.recipe x)
  | _, _, _ => { s with tube := some x }

/-- The words that this completion changes. -/
def settledWords (s : State) (x : Tube) : List (Nat × Word) :=
  match x.closing, x.record, s.tubeOrder with
  | some _, some r, some n =>
    releasedWords s r n.recipe.tailSkip (x.zTail.getD s.tracker.z) (withClosingDone n.recipe x)
  | _, _, _ => []

/-! ### Position changes (chapters 6 and 7) -/

/-- Whether the shot in flight is stamped for section `i` (R108). -/
def stampedFor (s : State) (i : Nat) : Bool := decide (s.inFlight.map (fun p => p.2.stamp.secIdx) = some i)

/-- The open tube `x` after the crossing of the end of its OPEN section: a section that is CLOSING already completes, LATE if its shot
is still in flight; the crossed one is CLOSING if the shot in flight is stamped for it and completes otherwise; the next is OPEN; `mark`
is ESTIMATED in a synthetic change (R108, R110, R111). -/
def crossEnd (s : State) (r : Recipe) (mark : Word) (x : Tube) : Tube :=
  match x.opened with
  | none => x
  | some a =>
    let late := x.closing.toList.map (fun c => resultOf r c (if stampedFor s c.index then sfLate else 0#16))
    let b := { a with flags := a.flags ||| mark }
    let y := { x with opened := some (newAccum (a.index + 1) mark) }
    if stampedFor s a.index then { y with closing := some b, holdback := x.holdback ++ late }
    else { y with closing := none, holdback := x.holdback ++ late ++ [resultOf r b 0#16] }

/-- The open tube `x` after `k` such crossings, in ascending order (R111). -/
def crossEnds (s : State) (r : Recipe) (mark : Word) : Nat → Tube → Tube
  | 0, x => x
  | k + 1, x => crossEnds s r mark k (crossEnd s r mark x)

/-- The open tube `x` of `s` follows z: it is being measured, and with an order its OPEN section is the one that z lies in; a tube
without an order holds no section (R102, R103, R125). -/
def FollowsZ (s : State) (x : Tube) : Prop :=
  x.zTail = none
    ∧ ((x.opened = none ∧ x.holdback = [])
      ∨ ∃ n a, s.tubeOrder = some n ∧ x.record.isSome = true ∧ x.opened = some a ∧ a.index = s.tracker.z / n.recipe.lSec)

/-- The open tube `x` after the crossings of a position change to `z` (R111). -/
def crossedTo (s : State) (n : Snapshot) (synthetic : Bool) (z : Nat) (x : Tube) : Tube :=
  crossEnds s n.recipe (if synthetic then sfEstimated else 0#16) (z / n.recipe.lSec - s.tracker.z / n.recipe.lSec) x

/-- `s` with the open tube `x` after a position change to `z`, but for the tracker: the crossings, and one release pass (R97, R111,
R130). -/
def movedTo (s : State) (synthetic : Bool) (z : Nat) (x : Tube) : State :=
  match x.record, s.tubeOrder with
  | some r, some n => released s r n.recipe.tailSkip z (crossedTo s n synthetic z x)
  | _, _ => { s with tube := some x }

/-- The words that the sections of this position change write. -/
def movedWords (s : State) (synthetic : Bool) (z : Nat) (x : Tube) : List (Nat × Word) :=
  match x.record, s.tubeOrder with
  | some r, some n => releasedWords s r n.recipe.tailSkip z (crossedTo s n synthetic z x)
  | _, _ => []

/-- What a command that changes the position does beside the change itself: the number of its steps, whether they are synthetic, the
tracker before z moves, the flags that it gives an OPEN record, the dead-reckoned steps that it counts there, whether it raises ATTN
TRACK, whether its episode reaches dr_max, and the words that it writes. -/
structure Advance where
  steps : Nat
  synthetic : Bool
  tracker : Tracker
  flags : Word
  counted : Nat
  alarm : Bool
  spent : Bool
  words : List (Nat × Word)

/-- The stall limit S with the period `p` (R91). -/
def stallTime (s : State) (p : Option Nat) : Nat :=
  match p with
  | some q => max (2 * q) (1000 * s.cfg.stallMin)
  | none => 1000 * s.cfg.stallMin

/-- The period that a tracker holds after a real step in TRACKING or LOST, `us` µs after the one before (R88). -/
def periodAfter (s : State) (us : Nat) : Option Nat := if s.tracker.fresh then some (max 1 (min us 16777215)) else s.tracker.pLast

/-- The speed word where a change of the held period to `p` changes it (R89). -/
def speedWrite (s : State) (p : Option Nat) : List (Nat × Word) :=
  ifChanged (speedOf s.cfg.encStep s.tracker.pLast ≠ speedOf s.cfg.encStep p) stSpeed (BitVec.ofNat 16 (speedOf s.cfg.encStep p))

/-- A real step in TRACKING: one step, the period measured, the stall timer restarted (R87, R88, R91). -/
def realAdvance (s : State) (us : Nat) : Advance :=
  { steps := 1, synthetic := false, flags := 0#16, counted := 0, alarm := false, spent := false
    tracker := { s.tracker with
      pLast := periodAfter s us, fresh := true, stepAt := s.now, stallLimit := some (stallTime s (periodAfter s us)), stallAt := s.now }
    words := speedWrite s (periodAfter s us) }

/-- A real step in DEAD_RECKONING: one step, TRACKING, the episode over, no period stored, the stall timer restarted (R93). -/
def returnAdvance (s : State) : Advance :=
  { steps := 1, synthetic := false, flags := 0#16, counted := 0, alarm := false, spent := false
    tracker := { s.tracker with
      state := .tracking, episode := 0, fresh := true, stepAt := s.now, stallLimit := some (stallTime s s.tracker.pLast),
      stallAt := s.now }
    words := [(stTracking, 1#16)] }

/-- A stall in TRACKING with the held period `p` and the running stall limit `limit`: DEAD_RECKONING with a catch-up of
floor(limit / p) steps, at most dr_max (R91, R92, R94, R98). -/
def stallAdvance (s : State) (p limit : Nat) : Advance :=
  let n := min (limit / p) s.cfg.drMax
  { steps := n, synthetic := true, flags := tfDeadReckoned, counted := n, alarm := true, spent := decide (s.cfg.drMax ≤ n)
    tracker := { s.tracker with state := .deadReckoning, episode := n, fresh := false, stallLimit := none, synthAt := s.now }
    words := [(stTracking, 2#16)] }

/-- A synthetic step in DEAD_RECKONING with the held period `p`: one step, the next one `p` µs on (R92, R94). -/
def syntheticAdvance (s : State) (p : Nat) : Advance :=
  { steps := 1, synthetic := true, flags := 0#16, counted := 1, alarm := false
    spent := decide (s.cfg.drMax ≤ s.tracker.episode + 1)
    tracker := { s.tracker with episode := s.tracker.episode + 1, synthAt := s.tracker.synthAt + 25 * p }
    words := [] }

/-- z after a command's steps (R96). -/
def Advance.z (s : State) (d : Advance) : Nat := min (s.tracker.z + d.steps * s.cfg.encStep) 67108863

/-- Whether the command brings the tube that is being measured to max_len (R128). -/
def Advance.Overlong (s : State) (d : Advance) : Prop := ∃ n, s.tubeOrder = some n ∧ n.recipe.maxLen ≤ d.z s

/-- Whether the tracker enters LOST where measuring goes on: at dr_max, or at the end of z's range (R94, R96). -/
def Advance.lost (s : State) (d : Advance) : Bool := d.spent || decide (d.z s = 67108863)

/-- The open tube `x` with what the command gives it, synthetic steps counting in the saturating dead-reckoned total; a missed tube
keeps no trace (R92, R98, R126). -/
def Advance.give (d : Advance) (f : Word) (x : Tube) : Tube :=
  if x.record.isSome then
    { x with
      flags := x.flags ||| d.flags ||| f
      totals := { x.totals with
        deadReckoned := if d.synthetic then min (x.totals.deadReckoned + d.counted) 4294967295 else x.totals.deadReckoned } }
  else x

/-- The tracker after the command where measuring goes on (R94, R96). -/
def Advance.after (s : State) (d : Advance) : Tracker :=
  if d.lost s then { d.tracker with z := d.z s, state := .lost, stallLimit := none, fresh := false }
  else { d.tracker with z := d.z s }

/-- The position word where its value changes (R89). -/
def Advance.position (s : State) (d : Advance) : List (Nat × Word) :=
  ifChanged (min (s.tracker.z / 1000) 65535 ≠ min (d.z s / 1000) 65535) stPosition (BitVec.ofNat 16 (min (d.z s / 1000) 65535))

/-- `s` with the open tube `x` after the command, measuring going on. The memory stays to be said. -/
def Advance.goesOn (s : State) (d : Advance) (x : Tube) : State :=
  let u := movedTo s d.synthetic (d.z s) (d.give (if d.lost s then tfTrackingLost else 0#16) x)
  { u with tracker := d.after s, attnCause := if d.alarm || d.lost s then u.attnCause ||| causeTrack else u.attnCause }

/-- The words that change with it. -/
def Advance.goesOnWords (s : State) (d : Advance) (x : Tube) : List (Nat × Word) :=
  (if d.lost s then [(stTracking, 3#16)] else []) ++ d.words ++ d.position s
    ++ movedWords s d.synthetic (d.z s) (d.give (if d.lost s then tfTrackingLost else 0#16) x)

/-- `s` with the open tube `x` after the command, which has ended measuring: outcome OVERLENGTH, z_tail the new z, the tracker IDLE, the
gauge CLOSING (R90, R128). The memory stays to be said. -/
def Advance.ends (s : State) (d : Advance) (x : Tube) : State :=
  let u := movedTo s d.synthetic (d.z s) (d.give 0#16 x)
  { u with
    gauge := .closing
    tracker := { d.tracker with z := d.z s, state := .idle, stallLimit := none, episode := 0, fresh := false }
    attnCause := if d.alarm then u.attnCause ||| causeTrack else u.attnCause
    tube := u.tube.map (fun y => { y with zTail := some (d.z s), outcome := .overlength }) }

/-- The words that change with it. -/
def Advance.endsWords (s : State) (d : Advance) (x : Tube) : List (Nat × Word) :=
  [(stGauge, 4#16), (stTracking, 0#16)] ++ d.words ++ d.position s ++ movedWords s d.synthetic (d.z s) (d.give 0#16 x)

/-! ### The end of a shot -/

/-- The state after head `k`'s shot record `r` has been taken in the open tube `x`: the slot is idle, the record is in the tube, a
CLOSING section completes, and the channel's gain code is `g` (R51, R83, R84, R109). The memory stays to be said. -/
def shotTaken (s : State) (k : Head) (r : ShotRecord) (g : Nat) (x : Tube) : State :=
  settled { s with
    slot := s.slot.map (fun h => { h with phase := .idle })
    lastValid := if r.outcome = .valid then vset s.lastValid k r.t else s.lastValid
    chans := vset s.chans k { s.chans[k] with gain := g } } (tubeTakes r x)

/-- The words that the taking of a shot writes: the last valid thickness, the gain code `g` where it moved, and those of a section that
completes (R84, R37, R132). -/
def shotWrites (s : State) (k : Head) (r : ShotRecord) (moved : Bool) (g : Nat) (x : Tube) : List (Nat × Word) :=
  ifChanged (r.outcome = .valid) (0x30 + k.val) (BitVec.ofNat 16 r.t) ++ ifChanged moved (0x24 + k.val) (BitVec.ofNat 16 g)
    ++ settledWords s (tubeTakes r x)

/-- A gain code brought into the range of the settings `n` (R41). -/
def gainWithin (n : Recipe) (g : Nat) : Nat := if g < n.gmin then n.gmin else if n.gmax < g then n.gmax else g

/-- The gain code that a channel has at the end of a shot, `g` being the one after its gain step: clamped where an amendment left the
clamp to this moment (R41). -/
def gainAtEnd (n : Recipe) (due : Bool) (g : Nat) : Nat := if due then gainWithin n g else g

/-- The gain code of channel `k` after a gain decision on the amplitude `a1` (none without an echo), under the bound settings `b`
and the range of the order in force `n` (Table 3-3, R40). -/
def steppedGain (b n : Recipe) (g : Nat) (a1 : Option Byte) : Nat :=
  if b.agcOn = false then g
  else match a1 with
    | none => if n.gmax ≤ g then n.gmax else g + 1
    | some a =>
      if b.agcHi ≤ a.toNat then (if g ≤ n.gmin then n.gmin else g - 1)
      else if a.toNat < b.agcLo then (if n.gmax ≤ g then n.gmax else g + 1)
      else g

/-! ### Cycle starts -/

/-- Whether firing returns at a cycle start (R32, R33). -/
def firingReturns (s : State) : Bool := s.pins.permit && s.firing == .suspended && (s.cfg.autoRestart || s.resumePending)

/-- `s` with firing returned, if it returns (R32, R33). -/
def restarted (s : State) : State :=
  { s with
    firing := if firingReturns s then .permitted else s.firing
    resumePending := if firingReturns s then false else s.resumePending }

/-- `s` with the slot of head 0 begun now (R16, R18). -/
def cycleBegun (s : State) : State :=
  { s with cycleAt := s.now, slot := some { head := 0, startAt := s.now, phase := .quiet 0 } }

/-- `s` after the pending amendment `y` of slot `j` has been applied at a cycle start: the snapshot goes over; where the order is in use
every gain code is clamped and every threshold loaded, and the OPEN section and the tube are AMENDED. A shot that was fired at this
instant (`fired`) keeps its gain code, and its clamp waits for its end (R41, R106, R126, R151, R152). The memory stays to be said. -/
def amended (s : State) (j : SlotNo) (y : Amendment) (fired : Bool) : State :=
  let t : State :=
    { s with
      slots := vset s.slots j { s.slots[j] with
        snapshot := s.slots[j].snapshot.map (fun n => { n with recipe := amendRecipe n.recipe y }), amendment := none }
      attnCause := s.attnCause ||| causeRequest }
  if s.orderInUse = some j then
    { t with
      slot := s.slot.map (fun h => { h with phase := match h.phase with
        | .awaitConf sh => .awaitConf { sh with clampDue := sh.clampDue || fired }
        | p => p })
      chans := Vector.ofFn (fun k => { s.chans[k] with
        gain := if fired && decide (s.inFlight.map Prod.fst = some k) then s.chans[k].gain
          else if s.chans[k].gain < y.gmin then y.gmin else if y.gmax < s.chans[k].gain then y.gmax else s.chans[k].gain
        dac := y.threshold })
      tube := s.tube.map (fun x => { x with
        opened := x.opened.map (fun a => { a with flags := a.flags ||| sfAmended })
        flags := if x.record.isSome then x.flags ||| tfAmended else x.flags }) }
  else t

/-- The words that change with it: the answer OK, the request word NONE, and the gain codes that the clamp changes. -/
def amendedWords (s : State) (j : SlotNo) (y : Amendment) (fired : Bool) : List (Nat × Word) :=
  [(slotAddr j 1, 0#16), (slotAddr j 2, 1#16)]
    ++ (List.finRange 4).flatMap (fun k => ifChanged
        (s.orderInUse = some j ∧ (s.chans[k].gain < y.gmin ∨ y.gmax < s.chans[k].gain)
          ∧ ¬(fired = true ∧ s.inFlight.map Prod.fst = some k)) (0x24 + k.val)
        (BitVec.ofNat 16 (if s.chans[k].gain < y.gmin then y.gmin else y.gmax)))

/-! ### Settings that the checks of a POST or an AMEND admit -/

/-- The gain settings of a recipe are in their ranges (Table 9-3). -/
def GainSettingsOk (r : Recipe) : Prop := r.gmin ≤ r.g0 ∧ r.g0 ≤ r.gmax ∧ r.gmax ≤ 15

/-- The gain settings of an amendment are in their ranges (Table 9-4). -/
def AmendGainOk (x : Amendment) : Prop := x.gmin ≤ x.g0 ∧ x.g0 ≤ x.gmax ∧ x.gmax ≤ 15

/-- The section settings of a recipe are in their ranges (Table 9-3). -/
def SectionSettingsOk (r : Recipe) : Prop := 20000 ≤ r.lSec ∧ ceilDiv r.tailSkip r.lSec ≤ 22

/-! ### Receiver signals (R42, R43, R49) -/

/-- The DAC code that channel `k` compares with: the threshold bound to its shot while it has one in flight, and else its own (R42). -/
def codeFor (s : State) (k : Head) : Nat :=
  ((s.inFlight.filter (fun p => p.1 = k)).map (fun p => p.2.bound.recipe.threshold)).getD s.chans[k].dac

/-- The positive output at a level, with the level of the comparator at `code`: `on` is the output before (R43). -/
def posOutput (code : Nat) (on : Bool) (level : Int) : Bool :=
  decide (if on then (code : Int) - 2 ≤ level else (code : Int) < level)

/-- The negative output, in the other direction (R43). -/
def negOutput (code : Nat) (on : Bool) (level : Int) : Bool := posOutput code on (-level)

/-- The channel `k` of `s` with its outputs at a level (R43). -/
def heard (s : State) (k : Head) (level : Int) : Channel :=
  { s.chans[k] with
    cmpPos := posOutput (codeFor s k) s.chans[k].cmpPos level, cmpNeg := negOutput (codeFor s k) s.chans[k].cmpNeg level }

/-- The outputs that go from inactive to active when channel `k` hears a level, as crossings at `t` tu (R43). -/
def rises (s : State) (k : Head) (level : Int) (t : Nat) : List Instr :=
  (if s.chans[k].cmpPos = false ∧ (heard s k level).cmpPos = true then [.crossing k .pos t] else [])
    ++ (if s.chans[k].cmpNeg = false ∧ (heard s k level).cmpNeg = true then [.crossing k .neg t] else [])

/-- The quiet gate of channel `k` began before the present ct (R44). -/
def gateWasRunning (s : State) (k : Head) : Bool :=
  match s.slot with
  | some h => decide (h.head = k ∧ h.startAt < s.now) && (match h.phase with
    | .quiet _ => true
    | _ => false)
  | none => false

/-- The time of a moment on channel `k`'s time base, `offset` tu into the present ct; 0 without a confirmed shot (R45). -/
def timeOn (s : State) (k : Head) (offset : Nat) : Nat :=
  match s.slot with
  | some h => if h.head = k then (match h.phase with
      | .blanking sh | .opened sh _ => 160 * (s.now - sh.confAt) + offset
      | _ => 0) else 0
  | none => 0

/-- The present slot after its channel's signal has stood at a level at `t` tu: in OPEN, before the sample instant and with no sample
taken, the peak detector holds the largest excursion in the capture direction, 255 at most (R49). -/
def slotHears (slot : Option HeadSlot) (k : Head) (t : Nat) (level : Int) : Option HeadSlot :=
  slot.map (fun h => { h with phase := match h.phase with
    | .opened sh c =>
      let beyond : Nat := (if sh.bound.recipe.polarity = .pos then level else -level).toNat
      if h.head = k ∧ c.sample = none ∧ (∀ e ∈ c.echoes.head?, t < e + 160 * sh.bound.recipe.peakDelay) then
        .opened sh { c with peak := BitVec.ofNat 8 (max c.peak.toNat (min beyond 255)) }
      else .opened sh c
    | p => p })

/-- The state after channel `k`'s signal has changed to a level, `offset` tu into the present ct (R43, R49). -/
def afterSignal (s : State) (q : EchoPoint) : State :=
  { s with
    chans := vset s.chans q.head (heard s q.head q.level)
    pins := { s.pins with echo := vset s.pins.echo q.head q.level }
    slot := slotHears s.slot q.head (timeOn s q.head q.offset) q.level }

/-- The state after the changes of one ct, one after another, and the crossings that they made. -/
def afterSignals (s : State) : List EchoPoint → State × List Instr
  | [] => (s, [])
  | q :: qs =>
    ((afterSignals (afterSignal s q) qs).1,
      rises s q.head q.level (timeOn s q.head q.offset) ++ (afterSignals (afterSignal s q) qs).2)

/-- The state with every channel settled at its standing signal, as a ct begins (R42, R43, R49; log 33). -/
def standingSignals (s : State) : State :=
  { s with
    chans := Vector.ofFn (fun k => heard s k s.pins.echo[k])
    slot := s.slot.bind (fun h => slotHears s.slot h.head (timeOn s h.head 0) s.pins.echo[h.head]) }

/-! ### Timer events (the command that each timer gives, with the condition under which it is due) -/

/-- The frame whose sample points after the start check read `bits`: eight data bits, the parity bit if there is one, the stop bits
(R57, Table 4-3). -/
def frameOfPoints (parity : Bool) (bits : List Bool) : Frame :=
  let point := fun i : Nat => bits.getD i false
  let stop := if parity then 9 else 8
  { data := BitVec.ofNat 8 ((List.range 8).map (fun i => if point i then 2 ^ i else 0)).sum,
    parity := point 8, stop1 := point stop, stop2 := point (stop + 1) }

/-- The temperature link: the line is settled after B = pyro_div + 1 ct at mark (R56), the start is checked H = floor(B / 2) ct after
its edge (R56), a frame is judged when its last point has been read (R57, R58), the gap timer runs gap_limit · B ct (R61), and the age
goes up at every 25,000 ct after the acceptance (R65). -/
def linkTimers (s : State) : List (Bool × Instr) :=
  let l := s.link
  let c := s.cfg
  let bit := c.pyroDiv + 1
  let points := 8 + (if c.pyroParity = .none then 0 else 1) + c.pyroStop
  [(decide (l.rx.state = .settle ∧ bit ≤ l.rx.markRun), .lineSettled),
   (decide (l.rx.state = .start ∧ l.rx.t0 + bit / 2 ≤ s.now), .midStartCheck l.rx.prevMark),
   (decide ((l.rx.state = .data ∨ l.rx.state = .parity ∨ l.rx.state = .stop) ∧ points ≤ l.rx.bits.length),
      .pyroFrame (frameOfPoints (c.pyroParity ≠ .none) l.rx.bits))]
  ++ l.gapAt.toList.map (fun t => (decide (l.asm ≠ .awaitMarker ∧ t + c.gapLimit * bit ≤ s.now), Instr.gapTimerExpiry))
  ++ [(decide (l.source ≠ .none ∧ l.age < 65535 ∧ l.ageAt + 25000 * (l.age + 1) ≤ s.now), .ageIncrease)]

/-- The tracker: a stall S µs after the stall timer was started, in TRACKING (R91), and a synthetic step P_last µs after the one
before, in DEAD_RECKONING (R92); 25 ct to the µs. -/
def trackerTimers (s : State) : List (Bool × Instr) :=
  let e := s.tracker
  e.stallLimit.toList.map (fun l => (decide (e.state = .tracking ∧ e.stallAt + 25 * l ≤ s.now), Instr.stall))
  ++ e.pLast.toList.map (fun p => (decide (e.state = .deadReckoning ∧ 0 < p ∧ e.synthAt + 25 * p ≤ s.now), Instr.syntheticStep))

/-- The shot in flight: a misfire conf_win ct after FIRE (R23, R24), the end of blanking b ct after the confirm (R46), and on the
channel's time base, 160 tu to the ct, the end of a hold-off (R47), the sample peak_delay ct after the first echo, while none is taken
(R49), and the window end at 160 · (b + w_eff) (R46, R51). -/
def shotTimers (s : State) : List (Bool × Instr) :=
  match s.slot.map HeadSlot.phase with
  | some (.awaitConf sh) => [(decide (sh.firedAt + s.cfg.confWin ≤ s.now), .misfire)]
  | some (.blanking sh) => [(decide (sh.confAt + sh.bound.recipe.blanking ≤ s.now), .endOfBlanking)]
  | some (.opened sh c) =>
    let tu := 160 * (s.now - sh.confAt)
    c.holdOff.toList.map (fun e => (decide (e ≤ tu), Instr.holdOffEnd e))
    ++ c.echoes.head?.toList.map (fun e =>
        (decide (c.sample = none ∧ e + 160 * sh.bound.recipe.peakDelay ≤ tu), Instr.amplitudeSample c.peak))
    ++ [(decide (160 * (sh.bound.recipe.blanking + sh.bound.wEff) ≤ tu), .windowEnd c.peak)]
  | some .idle | some (.quiet _) | none => []

/-- The cycle timer: the fire decision q ct after the slot start (R18), the start of slot k + 1 at (k + 1) · floor(cycle_ct / 4) ct of
the cycle, the remainder being slot 3's, and the next cycle at cycle_ct = 25 · cycle_period (R16); none while a confirm is awaited, which
the window fit rules out (log 24). The reading for a cut is the peak held now (log 11). -/
def slotTimers (s : State) : List (Bool × Instr) :=
  match s.slot with
  | none => []
  | some h =>
    let cycle := 25 * s.cfg.cyclePeriod
    let reading : Byte := match h.phase with
      | .opened _ c => c.peak
      | _ => 0#8
    match h.phase with
    | .awaitConf _ => []
    | p =>
      (match p with
        | .quiet _ => [(decide (h.startAt + s.cfg.quietGate ≤ s.now), Instr.fireDecision)]
        | _ => [])
      ++ [if h.head = 3 then (decide (s.cycleAt + cycle ≤ s.now), .cycleStart .cutFirst reading)
          else (decide (s.cycleAt + (h.head.val + 1) * (cycle / 4) ≤ s.now), .slotStart reading)]

/-- The release scanner: idle, it begins on the front of the release queue; a scan examines entry i at i ct after its beginning, one
a ct, and ends after its 952 entries (R165, R166). -/
def scanTimers (s : State) : List (Bool × Instr) :=
  match s.pool.scan with
  | none => [(decide (s.pool.releaseQueue ≠ []), .scanStart)]
  | some c =>
    [(decide (c.next < 952 ∧ c.startAt + c.next ≤ s.now), .scanStep), (decide (952 ≤ c.next ∧ c.startAt + 952 ≤ s.now), .scanEnd)]

/-- The end of the INIT clearing after its last word (R5, R6), and the completions that wait for a shot no more: of a CLOSING section
whose shot is not in flight, and of a close with none in flight (R109, R134; log 9). -/
def completionTimers (s : State) : List (Bool × Instr) :=
  (decide (s.gauge = .init ∧ s.resetActive = false ∧ Config.memWords ≤ s.clearing.next), Instr.initComplete)
  :: (s.tube.bind Tube.closing).toList.map (fun c => (!stampedFor s c.index, Instr.closingSectionCompletion))
  ++ [(decide (s.gauge = .closing ∧ s.inFlight = none), .closeCompletion)]

/-- Every timer of the part, in the order in which those due in one ct are taken (a model choice, log 2). -/
def timers (s : State) : List (Bool × Instr) :=
  completionTimers s ++ linkTimers s ++ trackerTimers s ++ shotTimers s ++ slotTimers s ++ scanTimers s

/-! ### Invariants -/

/-- The memory is in its canonical form. -/
def MemOk (s : State) : Prop := Memory.wf s.mem

/-- What the gauge state says of the other blocks (Table 1-1, R2, R17, R54, R90, R122): a tube is open exactly in MEASURING and
CLOSING, its z_tail set exactly in CLOSING; the cycle timer and the link run exactly in the running states; the tracker leaves IDLE
exactly in MEASURING; the halt-pending mark stands only in CLOSING; and RESET is active only in INIT. -/
structure GaugeOk (s : State) : Prop where
  tube : s.tube.isSome ↔ s.gauge = .measuring ∨ s.gauge = .closing
  tail : ∀ x, s.tube = some x → (x.zTail.isSome ↔ s.gauge = .closing)
  timer : s.slot.isSome ↔ runs s.gauge = true
  receiver : s.link.rx.state ≠ .off ↔ runs s.gauge = true
  tracker : s.tracker.state ≠ .idle ↔ s.gauge = .measuring
  halt : s.haltPending = true → s.gauge = .closing
  reset : s.resetActive = true → s.gauge = .init

/-- What INIT keeps (R3 to R6): every block stands at its reset values, but for the comparator outputs, which follow the signals; and
while the clearing runs, every word that it has passed and that it clears holds 0. -/
structure InitOk (s : State) : Prop where
  blocks : s.gauge = .init → s = { State.reset with
    resetActive := s.resetActive, clearing := s.clearing, mem := s.mem, pins := s.pins, chans := s.chans, now := s.now,
    inputs := s.inputs, pending := s.pending }
  passed : s.gauge = .init → s.resetActive = false → ∀ a, a < Config.memWords → a < s.clearing.next →
    ¬(s.clearing.soft = true ∧ 0x0100 ≤ a ∧ a ≤ 0x01FF) → memRead s.mem a = 0#16

/-- Law 1: no block is on the free list twice, and a block is on it exactly where its owner is FREE (R161). -/
def PoolOk (s : State) : Prop := s.pool.free.Nodup ∧ ∀ b : BlockNo, b ∈ s.pool.free ↔ s.pool.owner[b] = none

/-- Law 12 with Table 9-1: no slot is in the queue twice, the queue holds exactly the READY slots, the current order is the one
ACTIVE slot, a snapshot is held exactly in READY and ACTIVE, an amendment, a final-tube mark or a cancel-pending mark only in ACTIVE,
and the order in use is the current order (R139, R145, R147). -/
structure OrdersOk (s : State) : Prop where
  nodup : s.queue.Nodup
  ready : ∀ j : SlotNo, j ∈ s.queue ↔ s.slots[j].state = .ready
  active : ∀ j : SlotNo, s.current = some j ↔ s.slots[j].state = .active
  snapshot : ∀ j : SlotNo, s.slots[j].snapshot.isSome ↔ s.slots[j].state = .ready ∨ s.slots[j].state = .active
  marks : ∀ j : SlotNo, s.slots[j].amendment.isSome ∨ s.slots[j].finalTube = true ∨ s.slots[j].cancelPending = true →
    s.slots[j].state = .active
  inUse : ∀ j : SlotNo, s.orderInUse = some j → s.current = some j

/-- Law 2 with R164 to R167: the OPEN record is the open tube's; no block is owned by a FREE record; the RELEASING records are those
that wait in the release queue, each once, and the one under scan; the queue waits only behind a scan; and of the blocks that the
scan has examined none is owned by its record. -/
structure RecordsOk (s : State) : Prop where
  opened : ∀ r : RecNo, s.records[r] = .opened ↔ s.tube.bind Tube.record = some r
  owners : ∀ (b : BlockNo) (r : RecNo), s.pool.owner[b] = some r → s.records[r] ≠ .free
  nodup : s.pool.releaseQueue.Nodup
  releasing : ∀ r : RecNo, s.records[r] = .releasing ↔ r ∈ s.pool.releaseQueue ∨ s.pool.scan.map Scan.record = some r
  apart : ∀ r : RecNo, r ∈ s.pool.releaseQueue → s.pool.scan.map Scan.record ≠ some r
  served : s.pool.scan = none → s.pool.releaseQueue = []
  passed : ∀ (c : Scan) (b : BlockNo), s.pool.scan = some c → b.val < c.next → s.pool.owner[b] ≠ some c.record

/-- Law 10: the gain settings of every order, pending amendment and shot in flight are in their ranges, every gain code is 0 to 15,
and while a tube with an order is open every gain code lies within gmin to gmax of that order, but for the channel of a shot that
will make its clamp when it ends (R37, R41). -/
structure GainOk (s : State) : Prop where
  snapshots : ∀ (j : SlotNo) (n : Snapshot), s.slots[j].snapshot = some n → GainSettingsOk n.recipe
  amendments : ∀ (j : SlotNo) (x : Amendment), s.slots[j].amendment = some x → AmendGainOk x
  bound : ∀ (k : Head) (sh : Shot), s.inFlight = some (k, sh) → GainSettingsOk sh.bound.recipe
  codes : ∀ k : Head, s.chans[k].gain ≤ 15
  inRange : ∀ (n : Snapshot) (k : Head), s.tubeOrder = some n →
    (n.recipe.gmin ≤ s.chans[k].gain ∧ s.chans[k].gain ≤ n.recipe.gmax)
      ∨ ∃ sh, s.inFlight = some (k, sh) ∧ sh.clampDue = true

/-- What laws 3 and 4 need of a tube `x` whose order has the section settings of `r`, at the position `z` of its release passes. -/
structure TubeSectionsOk (r : Recipe) (z : Nat) (x : Tube) : Prop where
  settings : SectionSettingsOk r
  opened : ∀ a, x.opened = some a → a.index * r.lSec ≤ z
  order : ∀ c, x.closing = some c → ∃ a, x.opened = some a ∧ c.index < a.index
  ascending : x.holdback.Pairwise (fun h k => h.index < k.index)
  below : ∀ h ∈ x.holdback, ∃ a, x.opened = some a ∧ h.index < a.index
  lower : ∀ h ∈ x.holdback, ∀ c, x.closing = some c → h.index < c.index
  ends : ∀ h ∈ x.holdback, h.endZ = (h.index + 1) * r.lSec
  waits : ∀ h ∈ x.holdback, z < h.endZ + r.tailSkip

/-- Laws 3 and 4: in an open tube with an order the CLOSING section is below the OPEN one, and the held sections are below both, in
ascending order, and none of them can be written yet (R102, R130). A tube without an order holds no section (R125). -/
structure SectionsOk (s : State) : Prop where
  settings : ∀ (j : SlotNo) (n : Snapshot), s.slots[j].snapshot = some n → SectionSettingsOk n.recipe
  withOrder : ∀ x n, s.tube = some x → s.tubeOrder = some n → TubeSectionsOk n.recipe s.passZ x
  without : ∀ x, s.tube = some x → s.tubeOrder = none → x.opened = none ∧ x.closing = none ∧ x.holdback = []

/-- Law 8, before completion: what an accumulator holds of its VALID shots is consistent (R103, R105). -/
structure AccumOk (a : Accum) : Prop where
  empty : a.range = none ↔ a.n = 0
  sums : ∀ lo hi, a.range = some (lo, hi) → 1 ≤ lo ∧ lo ≤ hi ∧ a.n * lo ≤ a.sumT ∧ a.sumT ≤ a.n * hi
  sectors : ∀ (lo hi : Nat) (i : Fin 32), a.range = some (lo, hi) → a.counts[i] * lo ≤ a.sums[i] ∧ a.sums[i] ≤ a.counts[i] * hi
  idle : a.n = 0 → a.sumT = 0 ∧ ∀ i : Fin 32, a.counts[i] = 0 ∧ a.sums[i] = 0
  counts : (∀ i : Fin 32, a.counts[i] < 65535) → a.counts.toList.sum = a.n

end Sys2Proof.Safety
end

