-- ==== Sys2Proof/Certificates/Slice0/Obligations.lean ====
section
/-! DEFINITION. The statements for the provers. -/

open Sys2Proof Sys2Proof.Machine Sys2Proof.Safety

/-! ### Steps -/

/-- A step takes the command at the front of the queue and runs it with the rest of the queue. -/
def Obligations.StepTakesFrontCommand : Prop :=
  ∀ (c : Instr) (rest : List Instr) (s : State), step { s with pending := c :: rest } = exec c { s with pending := rest }

/-- With no command waiting, a step takes the timer event that is due, or else one ct passes (log 1, a model choice). The event is that
of the first of the part's timers that is due, in a fixed order (a model choice: log 2): the slots of a cycle, with the remainder in
slot 3 (R16), the fire decision at q (R18), the confirm window (R23, R24), the end of blanking at b, of a hold-off and of the window at
160 · (b + w_eff) (R46, R47, R51), the amplitude sample (R49), the settled line and the start check (R56), the frame (R57, R58), the gap
timer (R61), each ms of age (R65), S and P_last (R91, R92), one scan entry a ct (R165, R166), the end of the clearing (R5, R6), and the
completions that waited for a shot (R109, R134; log 9). No slot starts while a confirm is awaited (log 24), and a cut reads the held
peak (log 11). -/
def Obligations.IdleStepTakesDueEventOrTime : Prop :=
  ∀ s : State, s.pending = [] →
    (∀ i, s.due = some i → step s = exec i s)
    ∧ (s.due = none → ∃ t, step s = .next t ∧ t.now = s.now + 1 ∧ t.inputs = s.inputs.tail)
    ∧ (∀ e, (timers s).find? Prod.fst = some e → step s = exec e.2 s)
    ∧ ((∀ e ∈ timers s, e.1 = false) → ∃ t, step s = .next t ∧ t.now = s.now + 1 ∧ t.inputs = s.inputs.tail)

/-- Every command is taken in every state: none stops the part, and none touches the queue, the clock or the input stream. That an event
which cannot arise in a state is taken without effect is a model choice (log 3), and so is that a command takes no time (log 1). -/
def Obligations.EveryCommandCompletes : Prop :=
  ∀ (i : Instr) (s : State),
    ∃ t, exec i s = .next t ∧ t.pending = s.pending ∧ t.now = s.now ∧ t.inputs = s.inputs

/-! ### Resets and INIT (chapter 1) -/

/-- FULL_RESET: every block is in its reset state, the memory is left for the clearing, every host read returns 0, ATTN is inactive
and every GAIN output is 0 (R3; the blocks' states at this moment: log 20). RESET_RELEASE: INIT begins with full clearing from word
0, every block in its reset state; no word changes but the gauge-state word (R3; log 20). -/
def Obligations.ResetPinAbandonsAndBeginsFullInit : Prop :=
  (∀ s : State, ∃ t, exec .fullReset s = .next t
      ∧ t = { State.reset with
          resetActive := true, clearing := s.clearing, mem := s.mem, pins := s.pins, now := s.now, inputs := s.inputs,
          pending := s.pending }
      ∧ (∀ a, t.readMem a = 0#16) ∧ (∀ r, t.readReg r = 0#16) ∧ t.attnLine = false ∧ (∀ k, t.gainLines k = 0#4))
  ∧ (∀ s : State, s.resetActive = true →
      ∃ t, exec .resetRelease s = .next t
        ∧ t = { State.reset with mem := t.mem, pins := s.pins, now := s.now, inputs := s.inputs, pending := s.pending }
        ∧ Wrote s t [(stGauge, 0#16)])

/-- SOFT_RESET, in every gauge state and with any other bits set: the part is in INIT with soft clearing from word 0 and every block
in its reset state (R4, R7; log 20). -/
def Obligations.SoftResetBeginsSoftInit : Prop :=
  ∀ (w : Word) (s : State), s.resetActive = false →
    ∃ t, exec (.softReset w) s = .next t
      ∧ t = { State.reset with
          clearing := { soft := true, next := 0 }, mem := t.mem, pins := s.pins, now := s.now, inputs := s.inputs,
          pending := s.pending }
      ∧ Wrote s t [(stGauge, 0#16)]

/-- INIT_COMPLETE: every word still to be cleared reads 0, but for the eight status words that the completion writes; the setup block
survives a soft clearing; every block is in its reset state and the gauge is HALTED (R6, Table 1-3). A completion given before the
clearing has come to its end finishes the clearing at once: a model choice (log 14, log 4). Every step keeps each word that the
clearing has passed at 0 and every block at its reset values (R3 to R5), and so the completion leaves the whole memory 0 but for those
status words and, after a soft reset, the setup block (R3, R4, R6). -/
def Obligations.InitCompletesInHalted : Prop :=
  (∀ s : State, s.gauge = .init → s.resetActive = false →
    ∃ t, exec .initComplete s = .next t
      ∧ t = { State.reset with
          gauge := .halted, clearing := s.clearing, mem := t.mem, pins := s.pins, now := s.now, inputs := s.inputs,
          pending := s.pending }
      ∧ (∀ a, a < Config.memWords → memRead t.mem a =
          if a = stGauge then 1#16
          else if a = stFreeCount then 952#16
          else if a = stCurrent ∨ a = stSetupError ∨ (stQueue ≤ a ∧ a < stQueue + 4) then 0xFFFF#16
          else if s.clearing.next ≤ a ∧ ¬(s.clearing.soft = true ∧ 0x0100 ≤ a ∧ a ≤ 0x01FF) then 0#16
          else memRead s.mem a)
      ∧ (InitOk s → ∀ a, a < Config.memWords → memRead t.mem a =
          if a = stGauge then 1#16
          else if a = stFreeCount then 952#16
          else if a = stCurrent ∨ a = stSetupError ∨ (stQueue ≤ a ∧ a < stQueue + 4) then 0xFFFF#16
          else if s.clearing.soft = true ∧ 0x0100 ≤ a ∧ a ≤ 0x01FF then memRead s.mem a
          else 0#16))
  ∧ InitOk State.reset
  ∧ ∀ s t : State, InitOk s → step s = .next t → InitOk t

/-! ### Commands through CONTROL (chapter 1, R28, R33) -/

/-- One CONTROL write carries all its bits (R7): SOFT_RESET discards the rest; RUN with STOP is answered COMMAND_CONFLICT and carries out
neither; otherwise STOP or RUN comes first, then RESUME, then CLEAR_H0 to CLEAR_H3. Each row carries a word, and its own bit counts as set
in it, whatever the word holds (a model choice: log 8). -/
def Obligations.ControlWriteTakesItsBitsInOrder : Prop :=
  ∀ (v w : Word) (i : Instr) (s : State), PortOpen s →
    ((i = .run v ∧ w = v ||| 0x0001#16) ∨ (i = .stop v ∧ w = v ||| 0x0002#16) ∨ (i = .resume v ∧ w = v ||| 0x0004#16)
      ∨ (i = .softReset v ∧ w = v ||| 0x0008#16) ∨ ∃ k : Head, i = .clearHk k v ∧ w = v ||| BitVec.ofNat 16 (2 ^ (4 + k.val))) →
    exec i s =
      if hasFlag w ctlSoftReset then exec (.softReset 0#16) s
      else
        andThen (andThen (andThen (andThen (andThen
          (if hasFlag w ctlRun && hasFlag w ctlStop then .next (s.answerCmd ansCmdConflict)
            else if hasFlag w ctlStop then exec (.stop 0#16) s
            else ifBit (hasFlag w ctlRun) (.run 0#16) s)
          (ifBit (hasFlag w ctlResume) (.resume 0#16)))
          (ifBit (hasFlag w (ctlClear 0)) (.clearHk 0 0#16)))
          (ifBit (hasFlag w (ctlClear 1)) (.clearHk 1 0#16)))
          (ifBit (hasFlag w (ctlClear 2)) (.clearHk 2 0#16)))
          (ifBit (hasFlag w (ctlClear 3)) (.clearHk 3 0#16))

/-- A RUN outside HALTED is answered IGNORED_STATE and changes nothing else (R8). A RUN in HALTED that finds the field at offset
`off` as the first one outside its range: the setup-error word, the answer SETUP_INVALID, ATTN SETUP, and nothing else (R9). With a
setup block of zeros that field is cycle_period, at offset 0. -/
def Obligations.RunIsIgnoredOrRefused : Prop :=
  (∀ s : State, s.resetActive = false → (s.gauge = .armed ∨ s.gauge = .measuring ∨ s.gauge = .closing ∨ s.gauge = .waitClear) →
      ∃ t, exec (.run 0#16) s = .next t ∧ t = { s with mem := t.mem } ∧ Wrote s t [(stCommand, 3#16)])
  ∧ (∀ (s : State) (off : Nat), s.resetActive = false → s.gauge = .halted →
      (∃ r, setupRanges[off]? = some r
        ∧ ¬(r.1 ≤ (memRead s.mem (0x0100 + off)).toNat ∧ (memRead s.mem (0x0100 + off)).toNat ≤ r.2)) →
      (∀ i < off, ∀ r, setupRanges[i]? = some r →
        r.1 ≤ (memRead s.mem (0x0100 + i)).toNat ∧ (memRead s.mem (0x0100 + i)).toNat ≤ r.2) →
      ∃ t, exec (.run 0#16) s = .next t
        ∧ t = { s with mem := t.mem, attnCause := s.attnCause ||| causeSetup }
        ∧ Wrote s t [(stSetupError, BitVec.ofNat 16 off), (stCommand, 2#16)])

/-- A RUN in HALTED that finds every setup field in its range: the whole of R10 with Table 1-5, the link of R54, the tracker of R86 and
R101, the POOL_LOW judgement of R163 and the first cycle of R17. An immediate amendment that waits for this cycle start goes into the
snapshot and is answered OK; no tube uses its order, since none is open (R151, R152). -/
def Obligations.RunWithValidSetupStarts : Prop :=
  ∀ s : State, s.resetActive = false → s.gauge = .halted → (∀ p, s.dueAmendment = some p → s.orderInUse ≠ some p.1) →
    (∀ i r, setupRanges[i]? = some r →
      r.1 ≤ (memRead s.mem (0x0100 + i)).toNat ∧ (memRead s.mem (0x0100 + i)).toNat ≤ r.2) →
    ∃ t, exec (.run 0#16) s = .next t
      ∧ (let c := setupOf s.mem
        let low := decide (s.pool.free.length < c.poolLow)
        t = { s with
          mem := t.mem
          gauge := if s.pins.present then .waitClear else .armed
          setup := some c
          attnCause := (if low then s.attnCause ||| causePoolLow else s.attnCause)
            ||| (if s.dueAmendment.isSome then causeRequest else 0#8)
          slots := match s.dueAmendment with
            | some (j, y) => vset s.slots j { s.slots[j] with
                snapshot := s.slots[j].snapshot.map (fun n => { n with recipe := amendRecipe n.recipe y }), amendment := none }
            | none => s.slots
          pool := { s.pool with lowArmed := !low }
          tubesCompleted := 0
          tubesMissed := 0
          heads := s.heads.map (fun h => { h with stray := 0 })
          link := { Link.reset with rx := { Receiver.off with state := .settle } }
          tracker := { s.tracker with
            state := .idle, pLast := none, stallLimit := none, episode := 0, fresh := false, encLevel := false, encRun := 0,
            encPhase := 0 }
          firing := if s.pins.permit then .permitted else .suspended
          resumePending := false
          presence := { level := s.pins.present, run := 0 }
          cycleAt := s.now
          slot := some { head := 0, startAt := s.now, phase := .quiet 0 } })
      ∧ Wrote s t ([(stGauge, if s.pins.present then 5#16 else 2#16), (stSetupError, 0xFFFF#16), (stCommand, 1#16),
            (stCompleted, 0#16), (stMissed, 0#16), (stTSurf, 0#16), (stSource, 0#16), (stAge, 0#16)]
          ++ wordsAt stCounters (List.replicate 7 0#16) ++ wordsAt stStray (List.replicate 4 0#16)
          ++ ifChanged (speedOf s.cfg.encStep s.tracker.pLast ≠ 0) stSpeed 0#16
          ++ ifChanged (s.tracker.state ≠ .idle) stTracking 0#16
          ++ ifChanged (s.firing ≠ if s.pins.permit then .permitted else .suspended) stFiring
              (if s.pins.permit then 1#16 else 0#16)
          ++ (match s.dueAmendment with
              | some (j, _) => [(slotAddr j 1, 0#16), (slotAddr j 2, 1#16)]
              | none => []))

/-- A STOP in ARMED or WAIT_CLEAR: HALTED at once, answered OK; the timer, the tracker and the link stop (R12, R15). In HALTED it is
answered IGNORED_STATE and changes nothing else. A STOP in MEASURING: outcome ABORTED, z_tail the present z, the tracker IDLE, halt
pending, CLOSING, answered OK (R13). With no shot in flight the close then completes within the same event (R134). A STOP in CLOSING
sets the halt-pending mark, answered OK; with the mark set already it is answered IGNORED_STATE. Nothing else changes (R14). -/
def Obligations.StopByGaugeState : Prop :=
  (∀ s : State, s.resetActive = false →
      ((s.gauge = .armed ∨ s.gauge = .waitClear) →
        ∃ t, exec (.stop 0#16) s = .next t
          ∧ t = { s with
              mem := t.mem, gauge := .halted, slot := none, resumePending := false, haltPending := false,
              tracker := { s.tracker with
                state := .idle, stallLimit := none, episode := 0, fresh := false, encLevel := false, encRun := 0, encPhase := 0 },
              link := { s.link with rx := Receiver.off, asm := .awaitMarker, gapAt := none, source := .none } }
          ∧ Wrote s t ([(stGauge, 1#16), (stCommand, 1#16), (stSource, 0#16)]
              ++ ifChanged (s.tracker.state ≠ .idle) stTracking 0#16))
      ∧ (s.gauge = .halted →
        ∃ t, exec (.stop 0#16) s = .next t ∧ t = { s with mem := t.mem } ∧ Wrote s t [(stCommand, 3#16)]))
  ∧ (∀ s : State, s.resetActive = false → s.gauge = .measuring →
      ∃ u : State,
        u = { s with
          mem := u.mem, gauge := .closing, haltPending := true,
          tracker := { s.tracker with state := .idle, stallLimit := none, episode := 0, fresh := false },
          tube := s.tube.map (fun x => { x with zTail := some s.tracker.z, outcome := .aborted }) }
        ∧ Wrote s u ([(stGauge, 4#16), (stCommand, 1#16)] ++ ifChanged (s.tracker.state ≠ .idle) stTracking 0#16)
        ∧ exec (.stop 0#16) s = if s.inFlight = none then exec .closeCompletion u else .next u)
  ∧ (∀ s : State, s.resetActive = false → s.gauge = .closing →
      ∃ t, exec (.stop 0#16) s = .next t ∧ t = { s with mem := t.mem, haltPending := true }
        ∧ Wrote s t [(stCommand, if s.haltPending then 3#16 else 1#16)])

/-- RESUME sets resume-pending in a running gauge whose firing is SUSPENDED under an active PERMIT, and is ignored otherwise (R33).
CLEAR_Hk returns head k from FAULT to ON with a consecutive-misfire count of 0, its two words rewritten where they change; a head
that is ON keeps its count (R28). -/
def Obligations.ResumeAndClearHead : Prop :=
  (∀ s : State, PortOpen s →
      exec (.resume 0#16) s = .next
        (if s.gauge ≠ .halted ∧ s.firing = .suspended ∧ s.pins.permit = true then { s with resumePending := true } else s))
  ∧ (∀ (s : State) (k : Head), PortOpen s →
      (s.heads[k].state = .fault →
        ∃ t, exec (.clearHk k 0#16) s = .next t
          ∧ t = { s with mem := t.mem, heads := s.heads.set k { s.heads[k] with state := .on, misfires := 0 } }
          ∧ Wrote s t ((stHeadState + k.val, 0#16) :: ifChanged (s.heads[k].misfires ≠ 0) (stMisfires + k.val) 0#16))
      ∧ (s.heads[k].state = .on → exec (.clearHk k 0#16) s = .next s))

/-! ### Port (chapter 10) -/

/-- A write to ATTN_CAUSE clears the causes written 1, a write to ATTN_MASK replaces the mask; ATTN is active exactly while a cause
stands under its mask bit (R159, R160). Outside INIT and RESET a read of IDENT gives the part's identity, of CONTROL 0, of ATTN_CAUSE
and ATTN_MASK the register with zeros above, and of a memory word the word (R156, R159); that a read is no step is log 31. The GAIN
outputs carry the channels' gain codes (R37). -/
def Obligations.AttentionRegistersAndLine : Prop :=
  ∀ (s : State) (w : Word), PortOpen s →
    exec (.attnCauseWrite w) s = .next { s with attnCause := s.attnCause &&& ~~~(BitVec.truncate 8 w) }
    ∧ exec (.attnMaskWrite w) s = .next { s with attnMask := BitVec.truncate 8 w }
    ∧ (s.attnLine = true ↔ ∃ i, i < 8 ∧ s.attnCause.getLsbD i = true ∧ s.attnMask.getLsbD i = true)
    ∧ s.readReg .ident = 0x0641#16 ∧ s.readReg .control = 0#16
    ∧ (s.readReg .attnCause).toNat = s.attnCause.toNat ∧ (s.readReg .attnMask).toNat = s.attnMask.toNat
    ∧ (∀ a : Word, s.readMem a = memRead s.mem a.toNat)
    ∧ ∀ k : Head, s.chans[k].gain ≤ 15 → (s.gainLines k).toNat = s.chans[k].gain

/-- During INIT, and while RESET is active, the port isolates the part: every word reads 0, ATTN is inactive, and every host write is
ignored, requests included, but for a SOFT_RESET in INIT. In INIT CONTROL reads 0x8000, IDENT the part's identity and the attention
registers 0; while RESET is active every register reads 0 and a SOFT_RESET is ignored too (R3, R5). A write to IDENT is ignored always,
which is that row's whole effect (R159). -/
def Obligations.PortIsolatesDuringInit : Prop :=
  ∀ s : State, (∀ w, exec (.ignoredRegisterWrite .ident w) s = .next s)
    ∧ (s.resetActive = true → (∀ r, s.readReg r = 0#16) ∧ ∀ w, exec (.softReset w) s = .next s
      ∧ (∀ k, exec (.run w) s = .next s ∧ exec (.stop w) s = .next s ∧ exec (.resume w) s = .next s
          ∧ exec (.clearHk k w) s = .next s) ∧ ∀ r, exec (.ignoredRegisterWrite r w) s = .next s)
    ∧ (s.resetActive = true ∨ s.gauge = .init →
      (∀ a, s.readMem a = 0#16) ∧ s.attnLine = false
      ∧ (s.resetActive = false → s.readReg .control = 0x8000#16 ∧ s.readReg .ident = 0x0641#16
          ∧ s.readReg .attnCause = 0#16 ∧ s.readReg .attnMask = 0#16)
      ∧ (∀ a v, exec (.hostMemoryWrite a v) s = .next s)
      ∧ (∀ j v, exec (.post j) s = .next s ∧ exec (.cancel j) s = .next s ∧ exec (.amend j) s = .next s
          ∧ exec (.withdrawal j) s = .next s ∧ exec (.badRequest j v) s = .next s)
      ∧ (∀ r v, exec (.release r) s = .next s ∧ exec (.recordBadRequest r v) s = .next s)
      ∧ (∀ r w, (r = .control → hasFlag w ctlSoftReset = false) → exec (.ignoredRegisterWrite r w) s = .next s)
      ∧ (∀ w, exec (.attnCauseWrite w) s = .next s ∧ exec (.attnMaskWrite w) s = .next s)
      ∧ (∀ w k, hasFlag w ctlSoftReset = false → exec (.run w) s = .next s ∧ exec (.stop w) s = .next s
          ∧ exec (.resume w) s = .next s ∧ exec (.clearHk k w) s = .next s))

/-- A host write to a word that is no request word, or of NONE to a record's request word, changes that word and nothing else (R156,
R164). A host write to one of the twenty request words is a request event that carries the value written, whatever the word held (R157):
it is the command whose row names that value. The value written stands as the event is taken: that no earlier write-back of the part
covers it is a model choice (log 37). -/
def Obligations.HostMemoryWritesAndRequestEvents : Prop :=
  (∀ (s : State) (a v : Word), PortOpen s → plainWrite a v = true →
      ∃ t, exec (.hostMemoryWrite a v) s = .next t ∧ t = { s with mem := t.mem } ∧ Wrote s t [(a.toNat, v)])
  ∧ (∀ (s : State) (v : Word),
      (∀ j : SlotNo, exec (.hostMemoryWrite (BitVec.ofNat 16 (0x0200 + 512 * j.val + 1)) v) s =
        exec (if v = 0#16 then .withdrawal j else if v = 1#16 then .post j else if v = 2#16 then .cancel j
          else if v = 3#16 then .amend j else .badRequest j v) s)
      ∧ (∀ r : RecNo, v ≠ 0#16 → exec (.hostMemoryWrite (BitVec.ofNat 16 (0x0A00 + 128 * r.val + 1)) v) s =
        exec (if v = 4#16 then .release r else .recordBadRequest r v) s))

/-! ### Orders (chapter 9) -/

/-- A POST in FREE, SPENT or REFUSED whose checks, in word order, fail first at offset `off`: REFUSED, the bad-field word,
BAD_FIELD, and nothing else of the slot (R140, R141, R142). A POST in FREE, SPENT or REFUSED whose every check holds: the snapshot
with its window fit, READY at the tail of the queue, tubes-taken 0, bad-field 0xFFFF, OK (R140, R141, R143, R144, R145). An accepted
POST carries the window fit: a setup is in force, w_eff is the lesser of w and the room that the slot leaves, it is at least 25 ct,
b + w is at most 1630 ct, and the clamp mark stands exactly where w_eff is below w (R34). -/
def Obligations.PostIsValidatedFittedAndTaken : Prop :=
  (∀ (s : State) (j : SlotNo) (off : Nat), PortOpen s →
      (s.slots[j].state = .free ∨ s.slots[j].state = .spent ∨ s.slots[j].state = .refused) →
      FailsFirstAt (recipeChecks s.mem s.setup (slotAddr j 0)) off →
      ∃ t, exec (.post j) s = .next t
        ∧ t = { s with
            mem := t.mem, slots := vset s.slots j { s.slots[j] with state := .refused },
            attnCause := s.attnCause ||| causeRequest }
        ∧ Wrote s t [(slotAddr j 0, 4#16), (slotAddr j 1, writeBack s.slots[j]), (slotAddr j 2, 3#16),
            (slotAddr j 3, BitVec.ofNat 16 off)])
  ∧ (∀ (s : State) (j : SlotNo), PortOpen s →
      (s.slots[j].state = .free ∨ s.slots[j].state = .spent ∨ s.slots[j].state = .refused) →
      Passes (recipeChecks s.mem s.setup (slotAddr j 0)) →
      ∃ t, exec (.post j) s = .next t
        ∧ t = { s with
            mem := t.mem
            slots := vset s.slots j
              { state := .ready, snapshot := some (snapshotOf s.mem s.cfg j), taken := 0, finalTube := false, amendment := none,
                cancelPending := false }
            queue := s.queue ++ [j]
            attnCause := s.attnCause ||| causeRequest }
        ∧ Wrote s t ([(slotAddr j 0, 1#16), (slotAddr j 1, 0#16), (slotAddr j 2, 1#16), (slotAddr j 3, 0xFFFF#16),
            (slotAddr j 4, 0#16)] ++ queueWords (s.queue ++ [j])))
  ∧ (∀ (s t : State) (j : SlotNo) (n : Snapshot), PortOpen s →
      (s.slots[j].state = .free ∨ s.slots[j].state = .spent ∨ s.slots[j].state = .refused) →
      exec (.post j) s = .next t → t.slots[j].state = .ready → t.slots[j].snapshot = some n →
      ∃ c, s.setup = some c
        ∧ (n.wEff : Int) = min (n.recipe.window : Int)
            (((25 * c.cyclePeriod / 4 : Nat) : Int) - (c.quietGate : Int) - (c.confWin : Int) - (n.recipe.blanking : Int))
        ∧ 25 ≤ n.wEff ∧ n.recipe.blanking + n.recipe.window ≤ 1630 ∧ (n.clamped = true ↔ n.wEff < n.recipe.window))

/-- The requests that a slot's state turns away are answered BAD_STATE, a value that is no request code BAD_REQUEST; the slot is
unchanged, and a pending amendment stays pending with the request word AMEND (R140, R141, R149, R150, Table 9-2). A NONE in a slot's
request word: a pending amendment is discarded and answered WITHDRAWN; with none pending nothing happens but the host's own write
(R140, R153). -/
def Obligations.RequestsOutOfStateAndWithdrawals : Prop :=
  (∀ (s : State) (j : SlotNo) (i : Instr) (a : Word), PortOpen s →
      ((i = .post j ∧ a = 2#16 ∧ (s.slots[j].state = .ready ∨ s.slots[j].state = .active))
        ∨ ((i = .cancel j ∨ i = .amend j) ∧ a = 2#16
            ∧ (s.slots[j].state = .free ∨ s.slots[j].state = .spent ∨ s.slots[j].state = .refused))
        ∨ (i = .amend j ∧ a = 2#16 ∧ s.slots[j].state = .active ∧ s.slots[j].cancelPending = true)
        ∨ ∃ v, i = .badRequest j v ∧ noSlotRequest v = true ∧ a = 4#16) →
      ∃ t, exec i s = .next t ∧ t = { s with mem := t.mem, attnCause := s.attnCause ||| causeRequest }
        ∧ Wrote s t [(slotAddr j 1, writeBack s.slots[j]), (slotAddr j 2, a)])
  ∧ (∀ (s : State) (j : SlotNo), PortOpen s →
      ((s.slots[j].amendment.isSome = true) →
        ∃ t, exec (.withdrawal j) s = .next t
          ∧ t = { s with
              mem := t.mem, slots := vset s.slots j { s.slots[j] with amendment := none },
              attnCause := s.attnCause ||| causeRequest }
          ∧ Wrote s t [(slotAddr j 1, 0#16), (slotAddr j 2, 5#16)])
      ∧ (s.slots[j].amendment = none →
        ∃ t, exec (.withdrawal j) s = .next t ∧ t = { s with mem := t.mem } ∧ Wrote s t [(slotAddr j 1, 0#16)]))

/-- A CANCEL of a READY slot takes it out of the queue, and frees it; its tubes-taken count stays (R145, R149). A CANCEL of the
ACTIVE slot: not in use, the slot is SPENT at once and no order is current; in use, the cancel-pending mark is set, and a pending
amendment is discarded without an answer of its own; with the mark set already only the answer OK is given (R149). -/
def Obligations.CancelBySlotState : Prop :=
  (∀ (s : State) (j : SlotNo), PortOpen s → s.slots[j].state = .ready →
      ∃ t, exec (.cancel j) s = .next t
        ∧ t = { s with
            mem := t.mem
            slots := vset s.slots j
              { state := .free, snapshot := none, taken := s.slots[j].taken, finalTube := false, amendment := none,
                cancelPending := false }
            queue := s.queue.filter (fun i => i ≠ j)
            attnCause := s.attnCause ||| causeRequest }
        ∧ Wrote s t ([(slotAddr j 0, 0#16), (slotAddr j 1, 0#16), (slotAddr j 2, 1#16)]
            ++ queueWords (s.queue.filter (fun i => i ≠ j))))
  ∧ (∀ (s : State) (j : SlotNo), PortOpen s → s.slots[j].state = .active →
      ((s.slots[j].cancelPending = false ∧ s.orderInUse ≠ some j) →
        ∃ t, exec (.cancel j) s = .next t
          ∧ t = { s with
              mem := t.mem
              slots := vset s.slots j
                { state := .spent, snapshot := none, taken := s.slots[j].taken, finalTube := false, amendment := none,
                  cancelPending := false }
              current := none
              attnCause := s.attnCause ||| causeRequest }
          ∧ Wrote s t [(slotAddr j 0, 3#16), (slotAddr j 1, 0#16), (slotAddr j 2, 1#16), (stCurrent, 0xFFFF#16)])
      ∧ ((s.slots[j].cancelPending = false ∧ s.orderInUse = some j) →
        ∃ t, exec (.cancel j) s = .next t
          ∧ t = { s with
              mem := t.mem, slots := vset s.slots j { s.slots[j] with cancelPending := true, amendment := none },
              attnCause := s.attnCause ||| causeRequest }
          ∧ Wrote s t [(slotAddr j 1, 0#16), (slotAddr j 2, 1#16)])
      ∧ ((s.slots[j].cancelPending = true ∧ s.slots[j].amendment = none) →
        ∃ t, exec (.cancel j) s = .next t ∧ t = { s with mem := t.mem, attnCause := s.attnCause ||| causeRequest }
          ∧ Wrote s t [(slotAddr j 1, 0#16), (slotAddr j 2, 1#16)]))

/-- An AMEND in READY, or in ACTIVE without cancel pending. Valid in READY: applied to the snapshot at once and answered OK. Valid in
ACTIVE: it becomes the pending amendment, replacing an earlier one, with the request word left AMEND and no answer. Invalid: BAD_FIELD
with the offset of the first failing field, and nothing applied (R140, R150, R151, R152). The request word shows AMEND while it is
pending: no earlier write-back covers it (a model choice: log 37). -/
def Obligations.AmendIsCheckedAndTaken : Prop :=
  ∀ (s : State) (j : SlotNo) (n : Snapshot), PortOpen s → s.slots[j].snapshot = some n →
    ((s.slots[j].state = .ready ∧ Passes (amendChecks s.mem n.recipe.tnom (slotAddr j 0))) →
      ∃ t, exec (.amend j) s = .next t
        ∧ t = { s with
            mem := t.mem
            slots := vset s.slots j { s.slots[j] with
              snapshot := some { n with recipe := amendRecipe n.recipe (amendmentOf s.mem (slotAddr j 0)) }, amendment := none }
            attnCause := s.attnCause ||| causeRequest }
        ∧ Wrote s t [(slotAddr j 1, 0#16), (slotAddr j 2, 1#16), (slotAddr j 3, 0xFFFF#16)])
    ∧ ((s.slots[j].state = .active ∧ s.slots[j].cancelPending = false
          ∧ Passes (amendChecks s.mem n.recipe.tnom (slotAddr j 0))) →
      ∃ t, exec (.amend j) s = .next t
        ∧ t = { s with
            mem := t.mem
            slots := vset s.slots j { s.slots[j] with amendment := some (amendmentOf s.mem (slotAddr j 0)) } }
        ∧ Wrote s t [(slotAddr j 1, 3#16), (slotAddr j 3, 0xFFFF#16)])
    ∧ ∀ off, (s.slots[j].state = .ready ∨ (s.slots[j].state = .active ∧ s.slots[j].cancelPending = false)) →
      FailsFirstAt (amendChecks s.mem n.recipe.tnom (slotAddr j 0)) off →
      ∃ t, exec (.amend j) s = .next t ∧ t = { s with mem := t.mem, attnCause := s.attnCause ||| causeRequest }
        ∧ Wrote s t [(slotAddr j 1, writeBack s.slots[j]), (slotAddr j 2, 3#16), (slotAddr j 3, BitVec.ofNat 16 off)]

/-- An immediate amendment at a cycle start (R41, R106, R151, R152). With no shot in flight, in whichever order the events of that instant
are taken (but for a fire decision taken first): the snapshot goes over, the answer is OK, and the cycle begins; where the order is in use
every gain code is clamped and every threshold loaded, and the OPEN section and the tube are AMENDED. Taken before the cut of a shot of
slot 3, the same happens before that cut, which then finds the amended range (R40). Where the fire decision of a quiet gate of 0 is taken
first, the amendment follows it, and the shot fired keeps its gain code until it ends (R41). Model choices: the orders that the command's
operand gives (log 10), and a cycle start from any slot, a quiet gate without its decision being abandoned (log 24). -/
def Obligations.ImmediateAmendmentIsAppliedAtCycleStart : Prop :=
  ∀ (s : State) (j : SlotNo) (n : Snapshot) (y : Amendment) (o : CycleOrder) (a : Byte),
    runs s.gauge = true → s.current = some j → s.slots[j].snapshot = some n → s.slots[j].amendment = some y → y.immediate = true →
    (s.inFlight = none → (o = .decisionFirst → s.cfg.quietGate ≠ 0) →
      ∃ t, exec (.cycleStart o a) s = .next t
        ∧ t = { cycleBegun (amended (restarted s) j y false) with mem := t.mem }
        ∧ Wrote s t (ifChanged (firingReturns s) stFiring 1#16 ++ amendedWords s j y false))
    ∧ ((∀ h at0 sh, s.slot ≠ some { head := h, startAt := at0, phase := .awaitConf sh }) →
      ∃ u : State, u = { amended (restarted s) j y false with mem := u.mem }
        ∧ Wrote s u (ifChanged (firingReturns s) stFiring 1#16 ++ amendedWords s j y false)
        ∧ exec (.cycleStart .amendFirst a) s = exec (.cycleStart .cutFirst a) u)
    ∧ (s.inFlight = none → s.cfg.quietGate = 0 →
      ∃ u v t : State, u = { cycleBegun (restarted s) with mem := u.mem } ∧ Wrote s u (ifChanged (firingReturns s) stFiring 1#16)
        ∧ exec .fireDecision u = .next v
        ∧ (let fired := decide (v.inFlight ≠ none)
          t = { amended v j y fired with mem := t.mem } ∧ Wrote v t (amendedWords v j y fired))
        ∧ exec (.cycleStart .decisionFirst a) s = .next t)

/-! ### Records and the release scan (chapter 10) -/

/-- RELEASE of a COMPLETE record with the scanner idle and the queue empty: RELEASING, and its scan begins at once; behind a scan it waits
at the tail of the queue. The request word is left RELEASE and no answer is given. Of any other record: BAD_STATE (R164, R165). A value
other than RELEASE and NONE in a record's request word is answered BAD_REQUEST; the record is unchanged (R164). The request word of an
accepted RELEASE shows it: no earlier write-back covers it (a model choice: log 37). -/
def Obligations.RecordRequestsAreTaken : Prop :=
  (∀ (s : State) (r : RecNo), PortOpen s →
      ((s.records[r] = .complete ∧ s.pool.scan = none ∧ s.pool.releaseQueue = []) →
        ∃ t, exec (.release r) s = .next t
          ∧ t = { s with
              mem := t.mem, records := vset s.records r .releasing,
              pool := { s.pool with scan := some { record := r, next := 0, startAt := s.now } } }
          ∧ Wrote s t [(recAddr r 0, 3#16), (recAddr r 1, 4#16)])
      ∧ ((s.records[r] = .complete ∧ s.pool.scan.isSome = true) →
        ∃ t, exec (.release r) s = .next t
          ∧ t = { s with
              mem := t.mem, records := vset s.records r .releasing,
              pool := { s.pool with releaseQueue := s.pool.releaseQueue ++ [r] } }
          ∧ Wrote s t [(recAddr r 0, 3#16), (recAddr r 1, 4#16)])
      ∧ (s.records[r] ≠ .complete →
        ∃ t, exec (.release r) s = .next t ∧ t = { s with mem := t.mem, attnCause := s.attnCause ||| causeRequest }
          ∧ Wrote s t [(recAddr r 1, if s.records[r] = .releasing then 4#16 else 0#16), (recAddr r 2, 2#16)]))
  ∧ (∀ (s : State) (r : RecNo) (v : Word), PortOpen s → noRecordRequest v = true →
      ∃ t, exec (.recordBadRequest r v) s = .next t ∧ t = { s with mem := t.mem, attnCause := s.attnCause ||| causeRequest }
        ∧ Wrote s t [(recAddr r 1, if s.records[r] = .releasing then 4#16 else 0#16), (recAddr r 2, 4#16)])

/-- The idle scanner begins the scan of the front of the release queue (R165); with the queue empty, or a scan in progress, SCAN_START
does nothing: a model choice (log 9, with log 3). One scan step: a block that the record owns joins the tail of the free list with owner
FREE, the count word is rewritten, and the POOL_LOW mark is armed again where the count is at pool_low or above; any other block is passed
over (R163, R166). The end of a scan: the answer OK, the record FREE, the request word NONE, ATTN REQUEST, and the scan of the next record
of the queue begins at once (R165, R166). -/
def Obligations.ReleaseScanStartsStepsAndEnds : Prop :=
  (∀ s : State,
      (∀ r rest, s.pool.scan = none → s.pool.releaseQueue = r :: rest →
        exec .scanStart s = .next { s with
          pool := { s.pool with releaseQueue := rest, scan := some { record := r, next := 0, startAt := s.now } } })
      ∧ ((s.pool.scan.isSome = true ∨ s.pool.releaseQueue = []) → exec .scanStart s = .next s))
  ∧ (∀ (s : State) (c : Scan) (h : c.next < 952), s.pool.scan = some c →
      (s.pool.owner[c.next] = some c.record →
        ∃ t, exec .scanStep s = .next t
          ∧ t = { s with
              mem := t.mem
              pool := { s.pool with
                free := s.pool.free ++ [⟨c.next, h⟩]
                owner := s.pool.owner.set c.next none
                scan := some { c with next := c.next + 1 }
                lowArmed := s.pool.lowArmed || (s.setup.isSome && decide (s.cfg.poolLow ≤ s.pool.free.length + 1)) } }
          ∧ Wrote s t [(0x05, BitVec.ofNat 16 (s.pool.free.length + 1))])
      ∧ (s.pool.owner[c.next] ≠ some c.record →
        exec .scanStep s = .next { s with pool := { s.pool with scan := some { c with next := c.next + 1 } } }))
  ∧ (∀ (s : State) (c : Scan), s.pool.scan = some c → 952 ≤ c.next →
      ∃ t, exec .scanEnd s = .next t
        ∧ t = { s with
            mem := t.mem
            records := vset s.records c.record .free
            attnCause := s.attnCause ||| causeRequest
            pool := { s.pool with
              releaseQueue := s.pool.releaseQueue.tail
              scan := s.pool.releaseQueue.head?.map (fun r => { record := r, next := 0, startAt := s.now }) } }
        ∧ Wrote s t [(recAddr c.record 0, 0#16), (recAddr c.record 1, 0#16), (recAddr c.record 2, 1#16)])

/-! ### The shot cycle (chapter 2) -/

/-- A cycle start that finds no shot in flight and no immediate amendment due: firing returns if PERMIT is active and auto_restart or a
RESUME asks for it, and the slot of head 0 begins with its quiet gate (R16, R18, R32, R33). Where the fire decision falls at the same
instant and is taken first, FIRE_DECISION follows within the event (R18). A cycle start that finds a shot in its echo window cuts it as a
slot start does, and then goes on as without one (R26, R51, R52); in CLOSING the close completes at the cut (R134), and HALTED stops the
timer (R17). Where an amendment would be taken before the cut and none is due, only firing returns before it. Model choices: a cycle start
from any slot, a quiet gate without its decision being abandoned (log 24), the orders of the operand (log 10), and in CLOSING the gain
step and a clamp that waited come before the close completes (log 26). -/
def Obligations.CycleStartRestartsFiringAndOpensSlotZero : Prop :=
  (∀ (s : State) (o : CycleOrder) (a : Byte),
    runs s.gauge = true → s.inFlight = none → s.dueAmendment = none →
    ∃ u : State,
      (let back := s.pins.permit && s.firing == .suspended && (s.cfg.autoRestart || s.resumePending)
       u = { s with
          mem := u.mem
          cycleAt := s.now
          slot := some { head := 0, startAt := s.now, phase := .quiet 0 }
          firing := if back then .permitted else s.firing
          resumePending := if back then false else s.resumePending }
        ∧ Wrote s u (ifChanged back stFiring 1#16))
      ∧ exec (.cycleStart o a) s =
          if o = .decisionFirst ∧ s.cfg.quietGate = 0 then exec .fireDecision u else .next u)
  ∧ ∀ (s : State) (k : Head) (at0 : Nat) (p : Phase) (a : Byte) (sh : Shot) (x : Tube) (n : Snapshot) (echoes : List Nat)
      (a1 : Option Byte),
      s.slot = some { head := k, startAt := at0, phase := p } →
      (p = .blanking sh ∧ echoes = [] ∧ a1 = none
        ∨ ∃ c, p = .opened sh c ∧ echoes = c.echoes ∧ a1 = if c.echoes = [] then none else some (c.sample.getD a)) →
      (s.gauge = .measuring ∨ s.gauge = .closing) → s.tube = some x → x.record.isSome = true → s.tubeOrder = some n →
      (let r := confirmedRecord k sh (s.tempFor sh) { echoes := echoes, cut := true }
       let g0 := s.chans[k].gain
       let g1 := steppedGain sh.bound.recipe n.recipe g0 a1
       let g := gainAtEnd n.recipe sh.clampDue g1
       (∀ o, o = .cutFirst ∨ o = .decisionFirst →
          ∃ t : State, t = { shotTaken s k r g x with mem := t.mem }
            ∧ Wrote s t (shotWrites s k r (decide (g0 ≠ g1 ∨ g1 ≠ g)) g x)
            ∧ exec (.cycleStart o a) s =
              if s.gauge = .measuring then exec (.cycleStart o a) t
              else andThen (exec .closeCompletion t) (fun u => ifBit (runs u.gauge) (.cycleStart o a) u))
        ∧ (s.dueAmendment = none →
          ∃ u : State, u = { restarted s with mem := u.mem } ∧ Wrote s u (ifChanged (firingReturns s) stFiring 1#16)
            ∧ exec (.cycleStart .amendFirst a) s = exec (.cycleStart .cutFirst a) u))

/-- The slot after the present one begins with its quiet gate; without a shot in flight nothing else changes (R16, R18). A shot in its
echo window is first cut: its window closes with the amplitude sample taken or, with an echo, the reading now, its record carries CUT, so
that the tube is given WINDOW_CLAMPED, a CLOSING section completes, and the gain decision is made (R26, R51, R52, R82, R109). In CLOSING
the close then completes, and HALTED stops the timer (R17, R134). Model choices: a quiet gate whose decision was not taken is abandoned
(log 24), and in CLOSING the gain step and a clamp that waited come before the close completes (log 26). -/
def Obligations.SlotStartCutsAndBeginsQuietGate : Prop :=
  ∀ (s : State) (k : Head) (at0 : Nat) (p : Phase) (a : Byte), k ≠ 3 → runs s.gauge = true →
    s.slot = some { head := k, startAt := at0, phase := p } →
    (phaseShot p = none →
      exec (.slotStart a) s = .next { s with slot := some { head := k + 1, startAt := s.now, phase := .quiet 0 } })
    ∧ ∀ (sh : Shot) (x : Tube) (n : Snapshot) (echoes : List Nat) (a1 : Option Byte),
      (p = .blanking sh ∧ echoes = [] ∧ a1 = none
        ∨ ∃ c, p = .opened sh c ∧ echoes = c.echoes ∧ a1 = if c.echoes = [] then none else some (c.sample.getD a)) →
      (s.gauge = .measuring ∨ s.gauge = .closing) → s.tube = some x → x.record.isSome = true → s.tubeOrder = some n →
      (let r := confirmedRecord k sh (s.tempFor sh) { echoes := echoes, cut := true }
       let g0 := s.chans[k].gain
       let g1 := steppedGain sh.bound.recipe n.recipe g0 a1
       let g := gainAtEnd n.recipe sh.clampDue g1
       let next := fun u : State => { u with slot := some { head := k + 1, startAt := u.now, phase := .quiet 0 } }
       (∃ t : State, t = { shotTaken s k r g x with mem := t.mem }
          ∧ Wrote s t (shotWrites s k r (decide (g0 ≠ g1 ∨ g1 ≠ g)) g x)
          ∧ (s.gauge = .measuring → exec (.slotStart a) s = .next (next t))
          ∧ (s.gauge = .closing → exec (.slotStart a) s =
              andThen (exec .closeCompletion t) (fun u => .next (if runs u.gauge then next u else u))))
        ∧ r.cut = true ∧ hasFlag (tubeTakes r x).flags tfWindowClamped = true)

/-- A fire decision that meets the five conditions of R19: one pulse on FIRE_k, and the shot in flight carries the stamp of R99 and
R100 and the order settings as they stand (R18, R22). Nothing else changes. -/
def Obligations.FireDecisionFiresHead : Prop :=
  ∀ (s : State) (k : Head) (at0 count : Nat) (n : Snapshot),
    s.slot = some { head := k, startAt := at0, phase := .quiet count } →
    s.gauge = .measuring → s.tubeOrder = some n → inMask n.recipe.headMask k = true → s.firing = .permitted →
    s.heads[k].state = .on → (s.cfg.quietGate = 0 ∨ count ≤ n.recipe.noiseLimit) →
    (let raw := s.tracker.z % n.recipe.pitch * 65536 / n.recipe.pitch
     let turned := if n.recipe.twist = .cw then raw else (65536 - raw) % 65536
     let angle := (turned + s.cfg.headAngle[k]) % 65536
     let stamp : Stamp :=
       { z := s.tracker.z, secIdx := s.tracker.z / n.recipe.lSec, angle := angle, sector := Fin.ofNat 32 (angle / 2048),
         estimated := decide (s.tracker.state = .deadReckoning), unmapped := decide (s.tracker.state = .lost) }
     let shot : Shot := { stamp := stamp, bound := n, clampDue := false, firedAt := s.now, confAt := s.now }
     exec .fireDecision s = .next { s with
        slot := some { head := k, startAt := at0, phase := .awaitConf shot }
        heads := vset s.heads k { s.heads[k] with fires := s.heads[k].fires + 1 } })

/-- A fire decision whose conditions 1 to 4 hold and whose count is above the noise limit: the slot is NOISY; its record reaches the
tube, a CLOSING section completes, no FIRE is issued, and no gain, head or firing state changes (R20, R71, R109). A dry slot: no FIRE,
no record; the one count is the suspended slot of an OPEN record whose order's mask includes the head, while the gauge is MEASURING and
firing is SUSPENDED, whatever the head's state (R19, R21). -/
def Obligations.FireDecisionWithoutFire : Prop :=
  (∀ (s : State) (k : Head) (at0 count : Nat) (n : Snapshot) (x : Tube),
      s.slot = some { head := k, startAt := at0, phase := .quiet count } →
      s.gauge = .measuring → s.tubeOrder = some n → inMask n.recipe.headMask k = true → s.firing = .permitted →
      s.heads[k].state = .on → s.cfg.quietGate ≠ 0 → n.recipe.noiseLimit < count →
      s.tube = some x → x.record.isSome = true →
      (let r : ShotRecord :=
        { head := k, sector := (s.stampFor k n).sector, secIdx := s.tracker.z / n.recipe.lSec, outcome := .noisy, t := 0,
          shortTrain := false,
          tEff := (effTemp s.link.source s.link.tSurf n.recipe).tEff,
          tempFallback := decide (s.link.source ≠ .live),
          tempClamped := (effTemp s.link.source s.link.tSurf n.recipe).clamped,
          estimated := decide (s.tracker.state = .deadReckoning), unmapped := decide (s.tracker.state = .lost), cut := false }
       let u := { s with slot := some { head := k, startAt := at0, phase := .idle } }
       (x.closing = none → exec .fireDecision s = .next { u with tube := some (tubeTakes r x) })
       ∧ ∃ t, exec .fireDecision s = .next t ∧ t = { settled u (tubeTakes r x) with mem := t.mem }
          ∧ Wrote s t (settledWords u (tubeTakes r x))))
  ∧ (∀ (s : State) (k : Head) (at0 count : Nat),
      s.slot = some { head := k, startAt := at0, phase := .quiet count } →
      (s.gauge ≠ .measuring ∨ s.firing = .suspended ∨ s.heads[k].state = .fault
        ∨ ∀ n, s.tubeOrder = some n → inMask n.recipe.headMask k = false) →
      (let counts := s.gauge = .measuring ∧ s.firing = .suspended ∧ s.hasRecord = true
          ∧ ∃ n, s.tubeOrder = some n ∧ inMask n.recipe.headMask k = true
       (¬counts → exec .fireDecision s = .next { s with slot := some { head := k, startAt := at0, phase := .idle } })
       ∧ (counts → exec .fireDecision s = .next { s with
            slot := some { head := k, startAt := at0, phase := .idle }
            tube := s.tube.map (fun x => { x with
              totals := { x.totals with suspended := min (x.totals.suspended + 1) 4294967295 } }) })))

/-- An active edge of CONF_k: within the confirm window of a shot of head k it confirms, the misfire count is 0 and the channel goes to
BLANKING, or to OPEN at 0 tu when the blanking is 0 (R23, R45, R46). Any other edge outside INIT is a stray confirm, which changes only
its saturating count (R25). -/
def Obligations.ConfEdgeConfirmsOrStrays : Prop :=
  ∀ (s : State) (k : Head), s.gauge ≠ .init →
    (∀ at0 sh, s.slot = some { head := k, startAt := at0, phase := .awaitConf sh } →
      ∃ t, exec (.confEdge k) s = .next t
        ∧ t = { s with
            mem := t.mem
            heads := vset s.heads k { s.heads[k] with misfires := 0 }
            slot := some (HeadSlot.mk k at0
              (if sh.bound.recipe.blanking = 0 then
                Phase.opened { sh with confAt := s.now } { tu := 0, echoes := [], holdOff := none, peak := 0#8, sample := none }
              else Phase.blanking { sh with confAt := s.now })) }
        ∧ Wrote s t (ifChanged (s.heads[k].misfires ≠ 0) (stMisfires + k.val) 0#16))
    ∧ ((∀ at0 sh, s.slot ≠ some { head := k, startAt := at0, phase := .awaitConf sh }) →
      ∃ t, exec (.confEdge k) s = .next t
        ∧ t = { s with mem := t.mem, heads := vset s.heads k { s.heads[k] with stray := min (s.heads[k].stray + 1) 65535 } }
        ∧ Wrote s t (ifChanged (s.heads[k].stray ≠ min (s.heads[k].stray + 1) 65535) (stStray + k.val)
            (BitVec.ofNat 16 (min (s.heads[k].stray + 1) 65535))))

/-- A misfire while a tube is measured or closing: the head's count goes up by 1; at misfire_limit the head enters FAULT with ATTN HEAD,
and the tube is given HEAD_FAULT if the head is in its order's mask; the tube counts the head's misfire and takes the MISFIRE record; a
CLOSING section completes; no gain moves but by a clamp that waited for this moment; and in CLOSING the close completes (R24, R27, R41,
R71, R109, R134). That in CLOSING the clamp comes before the close completes is a model choice (log 26). -/
def Obligations.MisfireCountsAndFaultsHead : Prop :=
  ∀ (s : State) (k : Head) (at0 : Nat) (sh : Shot) (x : Tube),
    s.slot = some { head := k, startAt := at0, phase := .awaitConf sh } → (s.gauge = .measuring ∨ s.gauge = .closing) →
    s.tube = some x → x.record.isSome = true → (x.closing = none ∨ s.tubeOrder.isSome = true) →
    (let n := min (s.heads[k].misfires + 1) 65535
     let limit := decide (s.cfg.misfireLimit ≤ n)
     let inOrder := decide (∃ o, s.tubeOrder = some o ∧ inMask o.recipe.headMask k = true)
     let r := bareRecord k sh (s.tempFor sh) .misfire false
     let g := gainAtEnd (s.tubeOrder.getD sh.bound).recipe sh.clampDue s.chans[k].gain
     let u := { s with
        slot := some { head := k, startAt := at0, phase := .idle }
        heads := vset s.heads k { s.heads[k] with misfires := n, state := if limit then .fault else s.heads[k].state }
        attnCause := if limit then s.attnCause ||| causeHead else s.attnCause
        chans := vset s.chans k { s.chans[k] with gain := g } }
     let y := tubeTakes r { x with
        flags := if limit && inOrder then x.flags ||| tfHeadFault else x.flags
        totals := { x.totals with
          headMisfires := vset x.totals.headMisfires k (min (x.totals.headMisfires[k] + 1) 4294967295) } }
     ∃ t : State, t = { settled u y with mem := t.mem }
      ∧ Wrote s t (ifChanged (s.heads[k].misfires ≠ n) (stMisfires + k.val) (BitVec.ofNat 16 n)
          ++ ifChanged (limit && s.heads[k].state != .fault) (stHeadState + k.val) 1#16
          ++ ifChanged (s.chans[k].gain ≠ g) (0x24 + k.val) (BitVec.ofNat 16 g) ++ settledWords u y)
      ∧ (s.gauge = .measuring → exec .misfire s = .next t)
      ∧ (s.gauge = .closing → exec .misfire s = exec .closeCompletion t))

/-! ### PERMIT (R29 to R31) -/

/-- A PERMIT loss outside INIT with no shot in flight: SUSPENDED, resume-pending clear, ATTN PERMIT also when firing was SUSPENDED
already, and PERMIT_LOST to an OPEN record (R30). PERMIT becoming active changes nothing but the pin (R30). In INIT only the pin moves
(R5). A PERMIT loss aborts the shot in flight in whatever phase: nothing is handed over, no gain (but by a clamp that waited for this
moment), misfire count or head state moves, the tube's aborted total goes up by 1, a CLOSING section completes, and in CLOSING the close
completes (R30, R31, R41, R52, R109, R134). Model choices: the command is a loss whatever level the pin held, and in INIT it moves the pin
alone (log 23); in CLOSING the clamp comes before the close completes (log 26). -/
def Obligations.PermitLossSuspendsAndAborts : Prop :=
  (∀ s : State,
      exec .permitActive s = .next { s with pins := { s.pins with permit := true } }
      ∧ (s.gauge = .init → exec .permitLoss s = .next { s with pins := { s.pins with permit := false } })
      ∧ (s.gauge ≠ .init → s.inFlight = none →
        ∃ t, exec .permitLoss s = .next t
          ∧ t = { s with
              mem := t.mem, pins := { s.pins with permit := false }, firing := .suspended, resumePending := false,
              attnCause := s.attnCause ||| causePermit,
              tube := s.tube.map (fun x => if x.record.isSome then { x with flags := x.flags ||| tfPermitLost } else x) }
          ∧ Wrote s t (ifChanged (s.firing ≠ .suspended) stFiring 0#16)))
  ∧ (∀ (s : State) (k : Head) (at0 : Nat) (p : Phase) (sh : Shot) (x : Tube),
      s.slot = some { head := k, startAt := at0, phase := p } → phaseShot p = some sh →
      (s.gauge = .measuring ∨ s.gauge = .closing) → s.tube = some x → x.record.isSome = true →
      (x.closing = none ∨ s.tubeOrder.isSome = true) →
      (let g := gainAtEnd (s.tubeOrder.getD sh.bound).recipe sh.clampDue s.chans[k].gain
       let u := { s with
          pins := { s.pins with permit := false }, firing := .suspended, resumePending := false,
          attnCause := s.attnCause ||| causePermit,
          slot := some { head := k, startAt := at0, phase := .idle }
          chans := vset s.chans k { s.chans[k] with gain := g } }
       let y := { x with
          flags := x.flags ||| tfPermitLost, totals := { x.totals with aborted := min (x.totals.aborted + 1) 4294967295 } }
       ∃ t : State, t = { settled u y with mem := t.mem }
        ∧ Wrote s t (ifChanged (s.firing ≠ .suspended) stFiring 0#16
            ++ ifChanged (s.chans[k].gain ≠ g) (0x24 + k.val) (BitVec.ofNat 16 g) ++ settledWords u y)
        ∧ (s.gauge = .measuring → exec .permitLoss s = .next t)
        ∧ (s.gauge = .closing → exec .permitLoss s = exec .closeCompletion t)))

/-! ### Echo channels (chapter 3) -/

/-- The end of blanking: OPEN at 160·b tu with an empty capture list, no hold-off and an empty peak detector (R46). A hold-off ends
at its end time and not before (R47). The amplitude sample at its instant: taken once, with at least one echo (R49, R50). With the
list full the window then closes, as WINDOW_END closes it (R48, R51). -/
def Obligations.BlankingHoldOffAndAmplitude : Prop :=
  (∀ (s : State) (k : Head) (at0 : Nat) (sh : Shot),
      s.slot = some { head := k, startAt := at0, phase := .blanking sh } →
      exec .endOfBlanking s = .next { s with slot := some (HeadSlot.mk k at0
        (Phase.opened sh { tu := 160 * sh.bound.recipe.blanking, echoes := [], holdOff := none, peak := 0#8, sample := none })) })
  ∧ (∀ (s : State) (k : Head) (at0 t e : Nat) (sh : Shot) (c : Capture),
      s.slot = some { head := k, startAt := at0, phase := .opened sh c } → c.tu ≤ t → c.holdOff = some e →
      exec (.holdOffEnd t) s = .next { s with
        slot := some (HeadSlot.mk k at0 (Phase.opened sh { c with tu := t, holdOff := if e ≤ t then none else some e })) })
  ∧ (∀ (s : State) (k : Head) (at0 : Nat) (a : Byte) (sh : Shot) (c : Capture),
      s.slot = some { head := k, startAt := at0, phase := .opened sh c } →
      ((c.echoes ≠ [] ∧ c.sample = none ∧ c.echoes.length < sh.bound.recipe.captureMax) →
        exec (.amplitudeSample a) s = .next { s with
          slot := some (HeadSlot.mk k at0 (Phase.opened sh { c with sample := some a })) })
      ∧ ((c.echoes ≠ [] ∧ c.sample = none ∧ sh.bound.recipe.captureMax ≤ c.echoes.length) →
        exec (.amplitudeSample a) s = exec (.windowEnd a) s)
      ∧ ((c.echoes = [] ∨ c.sample.isSome = true) → exec (.amplitudeSample a) s = .next s))

/-- A crossing in QUIET adds 1 to the count of its channel, either comparator alike, saturating at 255 (R44). A crossing on a
channel that is IDLE, AWAIT_CONF or BLANKING, or of the other comparator in OPEN, has no effect (R36, R45, R46, R47). A crossing of
the capture polarity in OPEN, not before the last time on the channel's time base: captured if the list is not full, no hold-off
covers it and it lies before the window end, and then a hold-off of 160·h tu starts; ignored otherwise (R46, R47). The window stays
open unless the list is full and the amplitude sample is taken; then it closes as WINDOW_END closes it (R48, R51). -/
def Obligations.CrossingsByPhase : Prop :=
  (∀ (s : State) (k : Head) (c : Polarity) (t : Nat),
      (∀ at0 n, s.slot = some { head := k, startAt := at0, phase := .quiet n } →
        exec (.crossing k c t) s = .next { s with slot := some { head := k, startAt := at0, phase := .quiet (min (n + 1) 255) } })
      ∧ ((s.slot = none
          ∨ ∃ (h : Head) (at0 : Nat) (p : Phase), s.slot = some { head := h, startAt := at0, phase := p }
            ∧ (h ≠ k ∨ p = .idle ∨ (∃ sh, p = .awaitConf sh) ∨ (∃ sh, p = .blanking sh)
                ∨ ∃ sh x, p = .opened sh x ∧ sh.bound.recipe.polarity ≠ c)) →
        exec (.crossing k c t) s = .next s))
  ∧ (∀ (s : State) (k : Head) (at0 t : Nat) (sh : Shot) (c : Capture),
      s.slot = some { head := k, startAt := at0, phase := .opened sh c } → c.tu ≤ t →
      (let free := c.echoes.length < sh.bound.recipe.captureMax ∧ (∀ e, c.holdOff = some e → e ≤ t)
          ∧ t < 160 * (sh.bound.recipe.blanking + sh.bound.wEff)
       (free → ¬(c.echoes.length + 1 = sh.bound.recipe.captureMax ∧ c.sample.isSome = true) →
          exec (.crossing k sh.bound.recipe.polarity t) s = .next { s with slot := some (HeadSlot.mk k at0 (Phase.opened sh
            { c with tu := t, echoes := c.echoes ++ [t], holdOff := some (t + 160 * sh.bound.recipe.holdoff) })) })
       ∧ (free → (c.echoes.length + 1 = sh.bound.recipe.captureMax ∧ c.sample.isSome = true) →
          exec (.crossing k sh.bound.recipe.polarity t) s = exec (.windowEnd 0#8) { s with
            slot := some (HeadSlot.mk k at0 (Phase.opened sh
              { c with tu := t, echoes := c.echoes ++ [t], holdOff := some (t + 160 * sh.bound.recipe.holdoff) })) })
       ∧ (¬free → ¬(sh.bound.recipe.captureMax ≤ c.echoes.length ∧ c.sample.isSome = true) →
          exec (.crossing k sh.bound.recipe.polarity t) s = .next { s with
            slot := some (HeadSlot.mk k at0 (Phase.opened sh { c with tu := t })) })))

/-- The window end: the echoes captured make the shot record with CUT clear, a1 is the sample taken or, with an echo and no sample, the
reading now; the record reaches the tube, a VALID thickness its status word, a CLOSING section completes, the gain step follows and
after it a clamp that waited for the shot's end (R40, R41, R49, R50, R51, R83, R84, R109). In CLOSING the close then completes (R134;
the gain step comes before it: a model choice, log 26). -/
def Obligations.WindowEndHandsShotOver : Prop :=
  ∀ (s : State) (k : Head) (at0 : Nat) (a : Byte) (sh : Shot) (c : Capture) (x : Tube) (n : Snapshot),
    s.slot = some { head := k, startAt := at0, phase := .opened sh c } → (s.gauge = .measuring ∨ s.gauge = .closing) →
    s.tube = some x → x.record.isSome = true → s.tubeOrder = some n →
    (let a1 := if c.echoes = [] then none else some (c.sample.getD a)
     let r := confirmedRecord k sh (s.tempFor sh) { echoes := c.echoes, cut := false }
     let g0 := s.chans[k].gain
     let g1 := steppedGain sh.bound.recipe n.recipe g0 a1
     let g := gainAtEnd n.recipe sh.clampDue g1
     ∃ t : State, t = { shotTaken s k r g x with mem := t.mem }
      ∧ Wrote s t (shotWrites s k r (decide (g0 ≠ g1 ∨ g1 ≠ g)) g x)
      ∧ (s.gauge = .measuring → exec (.windowEnd a) s = .next t)
      ∧ (s.gauge = .closing → exec (.windowEnd a) s = exec .closeCompletion t))

/-! ### Thickness (chapter 5) -/

/-- The record of a confirmed shot with at least two echoes: the train is cut at the first interval off the first one by more than
the tolerance, T_eff is the base temperature with its offset in the span of the table, v_eff and t are "nearest" of the exact
quotients, and the band decides VALID or OUT_OF_BAND, so that a VALID thickness lies in the band and
an OUT_OF_BAND record carries none; either carries TEMP_FALLBACK and TEMP_CLAMPED as T_eff gave them (R73 to R76, R78 to R80, law 7).
The velocity at an effective temperature is the lower table point's plus "nearest" of the step along the table interval (R77). A
confirmed shot without an echo is NO_ECHO and one with a single echo NO_PAIR, whatever the cut mark; their records carry the
effective temperature with its flags and no thickness (R72, R75, R76, R81, R82). -/
def Obligations.ThicknessOfConfirmedShot : Prop :=
  (∀ (k : Head) (sh : Shot) (source : TempSource) (tSurf e1 e2 : Nat) (es : List Nat) (cut : Bool),
      (let r := sh.bound.recipe
       let echoes := e1 :: e2 :: es
       let interval := fun i : Nat => echoes.getD (i + 1) 0 - echoes.getD i 0
       let off := fun i : Nat => |(interval i : Int) - (interval 0 : Int)|
       let tol : Int := ((e2 - e1) * r.ctol / 256 : Nat)
       let base : Int := if source = .live then tSurf else r.fallbackT
       let temp := effTemp source tSurf r
       let m := trainLength r.ctol echoes
       let vEff := trimVelocity (velocityOfTemp r temp.tEff) r.trim
       let span := echoes.getD (m - 1) 0 - e1
       let t := thickness vEff span m
       let rec0 := confirmedRecord k sh temp { echoes := echoes, cut := cut }
       (temp.tEff : Int) = max 6000 (min (base + r.coreOffset) 14000)
        ∧ (temp.clamped = true ↔ base + r.coreOffset < 6000 ∨ 14000 < base + r.coreOffset)
        ∧ (temp.fallback = true ↔ source ≠ .live)
        ∧ 2 ≤ m ∧ m ≤ echoes.length ∧ (∀ i, i + 1 < m → off i ≤ tol) ∧ (m < echoes.length → tol < off (m - 1))
        ∧ IsNearest (vEff * span) (8000 * (m - 1)) t
        ∧ IsNearest (velocityOfTemp r temp.tEff * (4096 + r.trim)) 4096 vEff
        ∧ (rec0.outcome = .valid ↔ (r.tnom : Int) - r.bandLo ≤ t ∧ t ≤ (r.tnom : Int) + r.bandHi)
        ∧ (rec0.outcome = .valid ∨ rec0.outcome = .outOfBand)
        ∧ (rec0.outcome = .valid → r.bandLo ≤ r.tnom → (rec0.t : Int) = t)
        ∧ (rec0.outcome = .outOfBand → rec0.t = 0)
        ∧ (rec0.shortTrain = true ↔ m < echoes.length) ∧ rec0.cut = cut ∧ rec0.tEff = temp.tEff
        ∧ rec0.tempFallback = temp.fallback ∧ rec0.tempClamped = temp.clamped))
  ∧ (∀ (r : Recipe) (tEff : Nat), 6000 ≤ tEff → tEff ≤ 14000 →
      ∃ (i : Nat) (hi : i + 1 < 17), i = min 15 ((tEff - 6000) / 500)
        ∧ IsNearest (((r.velocity[i + 1] : Int) - (r.velocity[i] : Int)) * ((tEff : Int) - (6000 + 500 * (i : Int)))) 500
            (velocityOfTemp r tEff - (r.velocity[i] : Int)))
  ∧ (∀ (k : Head) (sh : Shot) (temp : EffTemp) (e : Nat) (cut : Bool),
      (∀ o, confirmedRecord k sh temp { echoes := [], cut := cut } = o → o.outcome = .noEcho ∧ o.t = 0 ∧ o.shortTrain = false
        ∧ o.tEff = temp.tEff ∧ o.tempFallback = temp.fallback ∧ o.tempClamped = temp.clamped ∧ o.cut = cut ∧ o.head = k)
      ∧ (∀ o, confirmedRecord k sh temp { echoes := [e], cut := cut } = o → o.outcome = .noPair ∧ o.t = 0 ∧ o.shortTrain = false
        ∧ o.tEff = temp.tEff ∧ o.tempFallback = temp.fallback ∧ o.tempClamped = temp.clamped ∧ o.cut = cut ∧ o.head = k))

/-! ### Shell temperature link (chapter 4) -/

/-- LINE_SETTLED takes the receiver from SETTLE to READY; START_EDGE from READY to START, t0 being now; MID_START_CHECK from START to DATA
at space, stopping the gap timer, or back to READY at mark, the gap timer running on (R56, R61); in other states each has no effect, and
GAP_TIMER_EXPIRY none without a running gap timer: a model choice (log 3). GAP_TIMER_EXPIRY drops the telegram in assembly and counts it
as truncated (R61). AGE_INCREASE adds 1 ms to the age, saturating, and makes a LIVE source STALE when the age reaches stale_ms; in NONE
the age does not count (R65). That the rows are taken whatever PYRO, the level seen before and the run of mark hold (log 38), and whatever
the timers say (log 1), is a model choice too. -/
def Obligations.LinkReceiverAndTimers : Prop :=
  ∀ s : State,
    exec .lineSettled s = .next
      (if s.link.rx.state = .settle then { s with link := { s.link with rx := { s.link.rx with state := .ready } } } else s)
    ∧ exec .startEdge s = .next
      (if s.link.rx.state = .ready then
        { s with link := { s.link with rx := { s.link.rx with state := .start, t0 := s.now, bits := [] } } } else s)
    ∧ (∀ mark, exec (.midStartCheck mark) s = .next
      (if s.link.rx.state ≠ .start then s
        else if mark then { s with link := { s.link with rx := { s.link.rx with state := .ready } } }
        else { s with link := { s.link with rx := { s.link.rx with state := .data }, gapAt := none } }))
    ∧ (∀ bytes at0, s.link.asm = .collecting bytes → s.link.gapAt = some at0 →
      ∃ t, exec .gapTimerExpiry s = .next t
        ∧ t = { s with
            mem := t.mem
            link := { s.link with
              asm := .awaitMarker, gapAt := none,
              counters := { s.link.counters with truncated := min (s.link.counters.truncated + 1) 65535 } } }
        ∧ Wrote s t (ifChanged (s.link.counters.truncated ≠ min (s.link.counters.truncated + 1) 65535) (stCounters + 4)
            (BitVec.ofNat 16 (min (s.link.counters.truncated + 1) 65535))))
    ∧ ((s.link.asm = .awaitMarker ∨ s.link.gapAt = none) → exec .gapTimerExpiry s = .next s)
    ∧ (s.link.source = .none → exec .ageIncrease s = .next s)
    ∧ (s.link.source ≠ .none →
      let age := min (s.link.age + 1) 65535
      let stale := decide (s.link.source = .live ∧ s.cfg.staleMs ≤ age)
      ∃ t, exec .ageIncrease s = .next t
        ∧ t = { s with mem := t.mem, link := { s.link with age := age, source := if stale then .stale else s.link.source } }
        ∧ Wrote s t (ifChanged (s.link.age ≠ age) stAge (BitVec.ofNat 16 age) ++ ifChanged stale stSource 2#16))

/-- A frame at its last stop point (R57, R58). A stop point at space: framing error, SETTLE. Otherwise a parity mismatch: parity error,
READY. Either aborts the telegram in assembly, its gap timer stopped (R62). Otherwise the byte, its bits in the order that pyro_order
gives, is delivered with the receiver READY: awaiting a marker, 0x5C begins a telegram and any other byte is stray (R59); a telegram with
fewer than four bytes goes on, its gap timer restarted (R60). Model choices: a frame outside a frame's states has no effect (log 3), and
at the entry of SETTLE the run of mark is 0, so that ct does not count (log 35). That the frame's levels are the operand, whatever the
receiver has sampled, is a model choice too (log 38). -/
def Obligations.FrameIsJudgedAndAssembled : Prop :=
  ∀ (s : State) (f : Frame),
    (let stopsGood := f.stop1 = true ∧ (s.cfg.pyroStop = 2 → f.stop2 = true)
     let live := s.link.rx.state = .data ∨ s.link.rx.state = .parity ∨ s.link.rx.state = .stop
     let n := s.link.counters
     (¬live → exec (.pyroFrame f) s = .next s)
     ∧ (live → ¬stopsGood →
        ∃ t, exec (.pyroFrame f) s = .next t
          ∧ t = { s with
              mem := t.mem
              link := { s.link with
                rx := { s.link.rx with state := .settle, markRun := 0 }, asm := .awaitMarker, gapAt := none,
                counters := { n with framing := min (n.framing + 1) 65535 } } }
          ∧ Wrote s t (ifChanged (n.framing ≠ min (n.framing + 1) 65535) (stCounters + 1)
              (BitVec.ofNat 16 (min (n.framing + 1) 65535))))
     ∧ (live → stopsGood → ¬FrameGood s f →
        ∃ t, exec (.pyroFrame f) s = .next t
          ∧ t = { s with
              mem := t.mem
              link := { s.link with
                rx := { s.link.rx with state := .ready }, asm := .awaitMarker, gapAt := none,
                counters := { n with parity := min (n.parity + 1) 65535 } } }
          ∧ Wrote s t (ifChanged (n.parity ≠ min (n.parity + 1) 65535) (stCounters + 2)
              (BitVec.ofNat 16 (min (n.parity + 1) 65535))))
     ∧ ∀ b : Byte, FrameGood s f → FrameCarries s f b →
        ((s.link.asm = .awaitMarker ∧ b = 0x5C#8) →
          exec (.pyroFrame f) s = .next { s with
            link := { s.link with rx := { s.link.rx with state := .ready }, asm := .collecting [], gapAt := some s.now } })
        ∧ ((s.link.asm = .awaitMarker ∧ b ≠ 0x5C#8) →
          ∃ t, exec (.pyroFrame f) s = .next t
            ∧ t = { s with
                mem := t.mem
                link := { s.link with
                  rx := { s.link.rx with state := .ready }, counters := { n with stray := min (n.stray + 1) 65535 } } }
            ∧ Wrote s t (ifChanged (n.stray ≠ min (n.stray + 1) 65535) (stCounters + 6)
                (BitVec.ofNat 16 (min (n.stray + 1) 65535))))
        ∧ ∀ bytes, s.link.asm = .collecting bytes → bytes.length < 3 →
          exec (.pyroFrame f) s = .next { s with
            link := { s.link with
              rx := { s.link.rx with state := .ready }, asm := .collecting (bytes ++ [b]), gapAt := some s.now } })

/-- The fourth byte after the marker completes the telegram (R60, R63, R64): a sum other than 0 mod 256 is a checksum error; else a
status without bit 0 or with bit 1 or 2, or a temperature above 20,000, is a rejection; else the telegram is accepted and the held
temperature, the age 0 and the source LIVE come into force at once. A failed telegram leaves the three as they were. -/
def Obligations.TelegramIsCheckedAndAccepted : Prop :=
  ∀ (s : State) (f : Frame) (status hi lo check : Byte), FrameGood s f → FrameCarries s f check →
    s.link.asm = .collecting [status, hi, lo] →
    (let sum := 0x5C + status.toNat + hi.toNat + lo.toNat + check.toNat
     let temp := hi.toNat * 256 + lo.toNat
     let statusGood := status.getLsbD 0 = true ∧ status.getLsbD 1 = false ∧ status.getLsbD 2 = false
     let n := s.link.counters
     let done : Link := { s.link with rx := { s.link.rx with state := .ready }, asm := .awaitMarker, gapAt := none }
     (sum % 256 ≠ 0 →
        ∃ t, exec (.pyroFrame f) s = .next t
          ∧ t = { s with mem := t.mem, link := { done with counters := { n with checksum := min (n.checksum + 1) 65535 } } }
          ∧ Wrote s t (ifChanged (n.checksum ≠ min (n.checksum + 1) 65535) (stCounters + 3)
              (BitVec.ofNat 16 (min (n.checksum + 1) 65535))))
     ∧ (sum % 256 = 0 → ¬(statusGood ∧ temp ≤ 20000) →
        ∃ t, exec (.pyroFrame f) s = .next t
          ∧ t = { s with mem := t.mem, link := { done with counters := { n with rejected := min (n.rejected + 1) 65535 } } }
          ∧ Wrote s t (ifChanged (n.rejected ≠ min (n.rejected + 1) 65535) (stCounters + 5)
              (BitVec.ofNat 16 (min (n.rejected + 1) 65535))))
     ∧ (sum % 256 = 0 → statusGood → temp ≤ 20000 →
        ∃ t, exec (.pyroFrame f) s = .next t
          ∧ t = { s with
              mem := t.mem
              link := { done with
                tSurf := temp, source := .live, age := 0, ageAt := s.now,
                counters := { n with accepted := min (n.accepted + 1) 65535 } } }
          ∧ Wrote s t (ifChanged (n.accepted ≠ min (n.accepted + 1) 65535) stCounters
                (BitVec.ofNat 16 (min (n.accepted + 1) 65535))
              ++ ifChanged (s.link.tSurf ≠ temp) stTSurf (BitVec.ofNat 16 temp)
              ++ ifChanged (s.link.age ≠ 0) stAge 0#16 ++ ifChanged (s.link.source ≠ .live) stSource 1#16)))

/-! ### Position (chapter 6) -/

/-- A real step (R87, R88, R91, R93, R95). IDLE: nothing. LOST: z stays, the period is measured. TRACKING: the period is measured if
the step before it was taken with nothing between, z advances by enc_step and the stall timer restarts with S of the period then held.
DEAD_RECKONING: the episode ends, z advances by enc_step, no period is stored. z saturates at 67,108,863, and the tracker then enters
LOST with ATTN TRACK and TRACKING_LOST (R96, R98). The boundaries that z crosses close and open the tube's sections, a release pass
follows, and the sections that it lets go are written (R97, R108 to R111, R130, R132). Nothing else changes, where the step does not
make the tube overlength. The encoder filter and ENC stay as they stood: a model choice (log 36). -/
def Obligations.RealStepAdvancesPosition : Prop :=
  ∀ (s : State) (us : Nat),
    (s.tracker.state = .idle → exec (.realStep us) s = .next s)
    ∧ (s.tracker.state = .lost →
      ∃ t, exec (.realStep us) s = .next t
        ∧ t = { s with mem := t.mem, tracker := { s.tracker with pLast := periodAfter s us, fresh := true, stepAt := s.now } }
        ∧ Wrote s t (speedWrite s (periodAfter s us)))
    ∧ ∀ (d : Advance) (x : Tube),
      ((s.tracker.state = .tracking ∧ d = realAdvance s us) ∨ (s.tracker.state = .deadReckoning ∧ d = returnAdvance s)) →
      s.gauge = .measuring → s.tube = some x → FollowsZ s x → ¬d.Overlong s →
      ∃ t, exec (.realStep us) s = .next t ∧ t = { d.goesOn s x with mem := t.mem } ∧ Wrote s t (d.goesOnWords s x)

/-- A stall with P_last unknown: LOST, ATTN TRACK, TRACKING_LOST (R91, R95, R98). With P_last known: DEAD_RECKONING, ATTN TRACK,
DEAD_RECKONED, and a catch-up of floor(S / P_last) steps, at most dr_max, as one position change; a synthetic step advances z by one step
and the timer of the next by P_last. Each step counts in the episode and in the tube's dead-reckoned total. A catch-up of dr_max steps, a
synthetic step that brings the episode to dr_max, and the saturation of z end in LOST with ATTN TRACK and TRACKING_LOST (R91, R92, R94,
R96, R98, R126). The boundaries crossed close and open the tube's sections, which are ESTIMATED, a release pass follows, and the sections
that it lets go are written (R97, R108 to R111, R130, R132). Nothing else changes, where the tube does not become overlength. Model
choices: in other tracking states neither has an effect (log 3), and a catch-up within which z saturates counts all its steps (log 16). -/
def Obligations.StallAndSyntheticSteps : Prop :=
  ∀ s : State,
    (s.tracker.state ≠ .tracking → exec .stall s = .next s)
    ∧ (s.tracker.state ≠ .deadReckoning → exec .syntheticStep s = .next s)
    ∧ (s.tracker.state = .tracking → s.tracker.pLast = none →
        ∃ t, exec .stall s = .next t
          ∧ t = { s with
              mem := t.mem, attnCause := s.attnCause ||| causeTrack,
              tracker := { s.tracker with state := .lost, stallLimit := none, fresh := false },
              tube := s.tube.map (fun x => if x.record.isSome then { x with flags := x.flags ||| tfTrackingLost } else x) }
          ∧ Wrote s t [(stTracking, 3#16)])
    ∧ (∀ (p limit : Nat) (x : Tube), s.tracker.state = .tracking → s.tracker.pLast = some p → s.tracker.stallLimit = some limit →
        s.gauge = .measuring → s.tube = some x → FollowsZ s x → ¬(stallAdvance s p limit).Overlong s →
        ∃ t, exec .stall s = .next t ∧ t = { (stallAdvance s p limit).goesOn s x with mem := t.mem }
          ∧ Wrote s t ((stallAdvance s p limit).goesOnWords s x))
    ∧ ∀ (p : Nat) (x : Tube), s.tracker.state = .deadReckoning → s.tracker.pLast = some p →
        s.gauge = .measuring → s.tube = some x → FollowsZ s x → ¬(syntheticAdvance s p).Overlong s →
        ∃ t, exec .syntheticStep s = .next t ∧ t = { (syntheticAdvance s p).goesOn s x with mem := t.mem }
          ∧ Wrote s t ((syntheticAdvance s p).goesOnWords s x)

/-- A position change that brings z to max_len, by a real step in TRACKING or DEAD_RECKONING, by a catch-up or by a synthetic step: the
sections crossed close and open and a release pass follows as ever, and then measuring ends with the outcome OVERLENGTH, z_tail the new z,
the tracker IDLE and the gauge CLOSING; with no shot in flight the close completes within the event (R90, R111, R128, R134). Where it also
reaches the end of z's range or dr_max, the tracker is IDLE and not LOST, and a catch-up counts all its steps also where z saturates
within it: model choices (logs 15, 16). A change that would take z to 67,108,863 or beyond in a tube that does not become overlength ends
there, and the tracker enters LOST with ATTN TRACK (R96, R98). -/
def Obligations.PositionChangeEndsMeasuringOrSaturates : Prop :=
  (∀ (s : State) (us : Nat), s.tracker.state = .tracking → s.gauge = .measuring →
    (∀ n x, s.tubeOrder = some n → s.tube = some x → n.recipe.maxLen ≤ min (s.tracker.z + s.cfg.encStep) 67108863 →
      s.inFlight ≠ none →
      ∃ t y, exec (.realStep us) s = .next t ∧ t.gauge = .closing ∧ t.tracker.state = .idle
        ∧ t.tracker.z = min (s.tracker.z + s.cfg.encStep) 67108863
        ∧ t.tube = some y ∧ y.outcome = .overlength ∧ y.zTail = some t.tracker.z ∧ y.record = x.record ∧ y.order = x.order
        ∧ memRead t.mem stGauge = 4#16 ∧ memRead t.mem stTracking = 0#16)
    ∧ (s.tubeOrder = none → 67108863 ≤ s.tracker.z + s.cfg.encStep →
      ∃ t, exec (.realStep us) s = .next t ∧ t.gauge = .measuring ∧ t.tracker.state = .lost ∧ t.tracker.z = 67108863
        ∧ t.attnCause &&& causeTrack = causeTrack ∧ memRead t.mem stTracking = 3#16))
  ∧ ∀ (s : State) (i : Instr) (d : Advance) (x : Tube), s.gauge = .measuring → s.tube = some x → FollowsZ s x →
    ((∃ us, i = .realStep us ∧ ((s.tracker.state = .tracking ∧ d = realAdvance s us)
          ∨ (s.tracker.state = .deadReckoning ∧ d = returnAdvance s)))
      ∨ (∃ p limit, i = .stall ∧ s.tracker.state = .tracking ∧ s.tracker.pLast = some p ∧ s.tracker.stallLimit = some limit
          ∧ d = stallAdvance s p limit)
      ∨ ∃ p, i = .syntheticStep ∧ s.tracker.state = .deadReckoning ∧ s.tracker.pLast = some p ∧ d = syntheticAdvance s p) →
    (d.Overlong s →
      ∃ u : State, u = { d.ends s x with mem := u.mem } ∧ Wrote s u (d.endsWords s x)
        ∧ exec i s = if s.inFlight = none then exec .closeCompletion u else .next u)
    ∧ (¬d.Overlong s → 67108863 ≤ s.tracker.z + d.steps * s.cfg.encStep →
      ∃ t, exec i s = .next t ∧ t.gauge = .measuring ∧ t.tracker.state = .lost ∧ t.tracker.z = 67108863
        ∧ t.attnCause &&& causeTrack = causeTrack ∧ memRead t.mem stTracking = 3#16)

/-- Law 11: within one tube z never decreases, and it never passes 67,108,863 (R96, R97). -/
def Obligations.PositionNeverDecreasesInTube : Prop :=
  ∀ (s t : State) (i : Instr), s.tracker.z ≤ 67108863 → exec i s = .next t →
    t.tracker.z ≤ 67108863
      ∧ ((s.gauge = .measuring ∨ s.gauge = .closing) → t.gauge ≠ .init → s.tracker.z ≤ t.tracker.z)

/-! ### Tubes (chapter 8) -/

/-- A head event with no current order and an empty queue: the first FREE record from the next-search index upward is opened for a
NO_ORDER tube: every word of it but the request word is written, the gauge is MEASURING and the tracker TRACKING at z = 0 (R90, R122,
R123, R124, R146). With no FREE record the tube is missed: the saturating count, ATTN TUBE, and a context without a record (R123). That
the command sets the PRESENT pin is a model choice (log 22). -/
def Obligations.HeadEventWithoutOrderOrRecord : Prop :=
  ∀ s : State, s.gauge = .armed →
    (let serial := if s.serial < 65535 then s.serial + 1 else 1
     let tracker := { s.tracker with
        state := .tracking, z := 0, pLast := none, fresh := false, episode := 0,
        stallLimit := some (1000 * s.cfg.stallMin), stallAt := s.now }
     (∀ (d : Nat) (r : RecNo), d < 16 → r.val = (s.nextSearch.val + d) % 16 → s.records[r] = .free →
        (∀ (i : Nat) (q : RecNo), i < d → q.val = (s.nextSearch.val + i) % 16 → s.records[q] ≠ .free) →
        s.current = none → s.queue = [] →
        ∃ t, exec .headEvent s = .next t
          ∧ t = { s with
              mem := t.mem, pins := { s.pins with present := true }, presence := { level := true, run := 0 }
              gauge := .measuring, serial := serial, nextSearch := r + 1, records := vset s.records r .opened
              tracker := tracker
              tube := some (newTube (some r) none serial .noOrder (if s.firing = .suspended then tfPermitLost else 0#16) none) }
          ∧ Wrote s t ([(stGauge, 3#16), (stPosition, 0#16), (stSpeed, 0#16), (stTracking, 1#16), (recAddr r 0, 1#16)]
              ++ wordsAt (recAddr r 2) ([0#16, BitVec.ofNat 16 serial, 0xFFFF#16] ++ List.replicate 5 0#16 ++ [0xFFFF#16]
                ++ List.replicate 117 0#16)))
     ∧ ((∀ r : RecNo, s.records[r] ≠ .free) →
        ∃ t, exec .headEvent s = .next t
          ∧ t = { s with
              mem := t.mem, pins := { s.pins with present := true }, presence := { level := true, run := 0 }
              gauge := .measuring, serial := serial, tubesMissed := min (s.tubesMissed + 1) 65535
              attnCause := s.attnCause ||| causeTube, tracker := tracker
              tube := some (newTube none none serial .noOrder 0#16 none) }
          ∧ Wrote s t ([(stGauge, 3#16), (stPosition, 0#16), (stSpeed, 0#16), (stTracking, 1#16)]
              ++ ifChanged (s.tubesMissed ≠ min (s.tubesMissed + 1) 65535) stMissed
                  (BitVec.ofNat 16 (min (s.tubesMissed + 1) 65535)))))

/-- A head event that gives the tube an order with no amendment pending: the current order, or with none the front of the queue, which
becomes ACTIVE. The record carries the slot, the tubes-taken count, the tag and the settings; every channel takes g0, threshold and
polarity; the flags due at the head event are given; section 0 is OPEN (R38, R42, R102, R124, R144, R145, R146). That the command sets the
PRESENT pin is a model choice (log 22). -/
def Obligations.HeadEventOpensTubeWithOrder : Prop :=
  ∀ (s : State) (d : Nat) (r : RecNo) (j : SlotNo) (q : List SlotNo) (n : Snapshot), s.gauge = .armed →
    d < 16 → r.val = (s.nextSearch.val + d) % 16 → s.records[r] = .free →
    (∀ (i : Nat) (p : RecNo), i < d → p.val = (s.nextSearch.val + i) % 16 → s.records[p] ≠ .free) →
    ((s.current = some j ∧ s.slots[j].state = .active ∧ s.queue = q ∧ (n.recipe.lotCount = 0 → q = []))
      ∨ (s.current = none ∧ s.queue = j :: q)) →
    s.slots[j].snapshot = some n → s.slots[j].amendment = none →
    (let serial := if s.serial < 65535 then s.serial + 1 else 1
     let taken := min (s.slots[j].taken + 1) 65535
     let promoted := s.current.isNone
     let fault := decide (∃ k : Head, inMask n.recipe.headMask k = true ∧ s.heads[k].state = .fault)
     ∃ t, exec .headEvent s = .next t
      ∧ t = { s with
          mem := t.mem, pins := { s.pins with present := true }, presence := { level := true, run := 0 }
          gauge := .measuring, serial := serial, nextSearch := r + 1, records := vset s.records r .opened
          queue := q, current := some j
          slots := vset s.slots j { s.slots[j] with
            state := .active, taken := taken,
            finalTube := s.slots[j].finalTube || decide (0 < n.recipe.lotCount ∧ taken = n.recipe.lotCount) }
          chans := s.chans.map (fun c => { c with gain := n.recipe.g0, dac := n.recipe.threshold, polarity := n.recipe.polarity })
          tracker := { s.tracker with
            state := .tracking, z := 0, pLast := none, fresh := false, episode := 0,
            stallLimit := some (1000 * s.cfg.stallMin), stallAt := s.now }
          tube := some (newTube (some r) (some j) serial .normal
            ((if n.clamped then tfWindowClamped else 0#16) ||| (if fault then tfHeadFault else 0#16)
              ||| (if s.firing = .suspended then tfPermitLost else 0#16)) (some (newAccum 0 0#16))) }
      ∧ Wrote s t ([(stGauge, 3#16), (stPosition, 0#16), (stSpeed, 0#16), (stTracking, 1#16), (recAddr r 0, 1#16)]
          ++ wordsAt (recAddr r 2) ([0#16, BitVec.ofNat 16 serial, BitVec.ofNat 16 j.val, BitVec.ofNat 16 taken]
              ++ n.recipe.tag.toList ++ [0xFFFF#16] ++ List.replicate 43 0#16 ++ settingsWords n ++ List.replicate 40 0#16)
          ++ ifChanged (s.slots[j].taken ≠ taken) (slotAddr j 4) (BitVec.ofNat 16 taken)
          ++ (if promoted then [(slotAddr j 0, 2#16), (stCurrent, BitVec.ofNat 16 j.val)] ++ queueWords q else [])
          ++ (List.finRange 4).flatMap (fun k => ifChanged (s.chans[k].gain ≠ n.recipe.g0) (0x24 + k.val)
              (BitVec.ofNat 16 n.recipe.g0))))

/-- At a head event an open lot yields to the front of the queue: its slot is SPENT and an amendment pending there is DROPPED; and an
amendment pending on the order that the tube is given is applied and answered OK before the settings are used, the tube and its
section 0 being AMENDED (R38, R146, R148, R152, R153). -/
def Obligations.HeadEventYieldsOpenLotAndAppliesAmendment : Prop :=
  ∀ (s : State) (i j : SlotNo) (m n : Snapshot) (q : List SlotNo), s.gauge = .armed → (∃ r : RecNo, s.records[r] = .free) →
    s.current = some i → s.slots[i].snapshot = some m → s.slots[j].snapshot = some n →
    ((i ≠ j ∧ m.recipe.lotCount = 0 ∧ s.queue = j :: q) →
      ∃ t x, exec .headEvent s = .next t
        ∧ t.slots[i].state = .spent ∧ t.slots[i].snapshot = none ∧ t.slots[i].taken = s.slots[i].taken
        ∧ t.current = some j ∧ t.queue = q ∧ t.slots[j].state = .active
        ∧ t.slots[j].taken = min (s.slots[j].taken + 1) 65535 ∧ t.tube = some x ∧ x.order = some j
        ∧ memRead t.mem (slotAddr i 0) = 3#16 ∧ memRead t.mem (slotAddr j 0) = 2#16
        ∧ (s.slots[i].amendment.isSome = true →
            memRead t.mem (slotAddr i 2) = 6#16 ∧ memRead t.mem (slotAddr i 1) = 0#16
            ∧ t.attnCause &&& causeRequest = causeRequest))
    ∧ ∀ y, (i = j ∧ (m.recipe.lotCount = 0 → s.queue = []) ∧ s.slots[i].amendment = some y) →
      ∃ t x a, exec .headEvent s = .next t
        ∧ t.slots[i].snapshot = some { m with recipe := amendRecipe m.recipe y } ∧ t.slots[i].amendment = none
        ∧ t.current = some i ∧ t.queue = s.queue ∧ t.tube = some x ∧ x.order = some i
        ∧ hasFlag x.flags tfAmended = true ∧ x.opened = some a ∧ a.flags = sfAmended
        ∧ (∀ k : Head, t.chans[k].gain = y.g0 ∧ t.chans[k].dac = y.threshold)
        ∧ memRead t.mem (slotAddr i 2) = 1#16 ∧ memRead t.mem (slotAddr i 1) = 0#16
        ∧ t.attnCause &&& causeRequest = causeRequest

/-- The filtered edges (R121, R127). A falling edge in MEASURING is the tail event: z_tail is the present z, the outcome stays, the
tracker is IDLE, the gauge CLOSING, and with no shot in flight the close completes within the event (R134). A falling edge in
WAIT_CLEAR leads to ARMED. An edge in CLOSING is recorded and nothing else. While the filter does not sample, only the pin moves
(R120; log 22). -/
def Obligations.TailAndPresenceEdges : Prop :=
  ∀ s : State,
    (s.gauge = .measuring →
      ∃ u : State,
        u = { s with
          mem := u.mem, gauge := .closing, pins := { s.pins with present := false }, presence := { level := false, run := 0 },
          tracker := { s.tracker with state := .idle, stallLimit := none, episode := 0, fresh := false },
          tube := s.tube.map (fun x => { x with zTail := some s.tracker.z }) }
        ∧ Wrote s u ((stGauge, 4#16) :: ifChanged (s.tracker.state ≠ .idle) stTracking 0#16)
        ∧ exec .tailEvent s = if s.inFlight = none then exec .closeCompletion u else .next u)
    ∧ (s.gauge = .waitClear →
      ∃ t, exec .presenceClear s = .next t
        ∧ t = { s with
            mem := t.mem, gauge := .armed, pins := { s.pins with present := false }, presence := { level := false, run := 0 } }
        ∧ Wrote s t [(stGauge, 2#16)])
    ∧ (∀ high, s.gauge = .closing →
      exec (.presenceRecorded high) s =
        .next { s with pins := { s.pins with present := high }, presence := { level := high, run := 0 } })
    ∧ (∀ high, s.gauge = .init ∨ s.gauge = .halted →
      exec (.presenceRecorded high) s = .next { s with pins := { s.pins with present := high } })

/-- The CLOSING section completes once the shot that it awaits has ended; here z has run tail_skip past its end, so that it is written
at once. With a block free: the front block is the record's, its 64 words are the section's with the link none, the chain goes on to
it, the sections-written word follows, and ATTN SECTION is raised. With none free the section is lost. Either way it is offered to the
tube accumulators (R109, R129, R130, R132, R133, R162, R163). In general it goes to the end of the holdback queue, and a release pass
writes the front sections that may leave, in order (R109, R130, R132). -/
def Obligations.ClosingSectionCompletesAndIsWritten : Prop :=
  (∀ (s : State) (x : Tube) (c : Accum) (r : RecNo) (n : Snapshot),
    s.tube = some x → x.closing = some c → x.record = some r → s.tubeOrder = some n →
    (∀ p, s.inFlight = some p → p.2.stamp.secIdx ≠ c.index) →
    ∃ t, exec .closingSectionCompletion s = .next t ∧ t = { settled s x with mem := t.mem } ∧ Wrote s t (settledWords s x))
  ∧ ∀ (s : State) (x : Tube) (c : Accum) (r : RecNo) (n : Snapshot),
    s.tube = some x → x.closing = some c → x.record = some r → x.holdback = [] → s.tubeOrder = some n →
    (∀ p, s.inFlight = some p → p.2.stamp.secIdx ≠ c.index) →
    (c.index + 1) * n.recipe.lSec + n.recipe.tailSkip ≤ s.passZ →
    (let res := completeAccum n.recipe.lSec n.recipe.occMin c ((c.index + 1) * n.recipe.lSec) 0#16
     let sec := { res with flags := if c.index * n.recipe.lSec < n.recipe.headSkip then res.flags ||| sfExcludedHead else res.flags }
     (∀ b rest, s.pool.free = b :: rest →
        let count := min (x.written + 1) 65535
        let low := s.setup.isSome && s.pool.lowArmed && decide (rest.length < s.cfg.poolLow)
        ∃ t, exec .closingSectionCompletion s = .next t
          ∧ t = { s with
              mem := t.mem
              pool := { s.pool with
                free := rest, owner := vset s.pool.owner b (some r), lowArmed := s.pool.lowArmed && !low }
              attnCause := (if low then s.attnCause ||| causePoolLow else s.attnCause) ||| causeSection
              tube := some { x with
                closing := none, lastBlock := some b, written := count, accum := offer x.accum sec } }
          ∧ Wrote s t (((match x.lastBlock with
                | some p => [(blkAddr p 0, BitVec.ofNat 16 b.val)]
                | none => [(recAddr r 10, BitVec.ofNat 16 b.val)]) : List (Nat × Word))
              ++ wordsAt (blkAddr b 0) (blockWordsOf sec)
              ++ [(stFreeCount, BitVec.ofNat 16 rest.length), (recAddr r 11, BitVec.ofNat 16 count)]))
     ∧ (s.pool.free = [] →
        let count := min (x.lost + 1) 65535
        ∃ t, exec .closingSectionCompletion s = .next t
          ∧ t = { s with
              mem := t.mem
              tube := some { x with
                closing := none, lost := count, flags := x.flags ||| tfPoolExhausted, accum := offer x.accum sec } }
          ∧ Wrote s t (ifChanged (x.lost ≠ count) (recAddr r 12) (BitVec.ofNat 16 count))))

/-- The close of a tube without sections, no shot being in flight. A missed tube: the context goes and the gauge leaves CLOSING, by the
presence level (R125, R137). A NO_ORDER tube: the record is written, COMPLETE last, the status words, ATTN TUBE, and then the same (R135,
R136). Of the record the words 13 to 53 and 88 to 127 are written and no other: a model choice (log 17); its fifteen totals are 0, as R125
says (against R92 and Table 8-2: a model choice, log 34). With halt pending the gauge enters HALTED instead, the mark cleared, the timer
and the link stopped (R14, R15). -/
def Obligations.CloseOfTubeWithoutSections : Prop :=
  ∀ (s : State) (x : Tube), s.gauge = .closing → s.inFlight = none → s.tube = some x → x.order = none → x.opened = none →
    x.holdback = [] →
    (let next := if s.presence.level then .waitClear else .armed
     let z := x.zTail.getD s.tracker.z
     (s.haltPending = false → x.record = none →
        ∃ t, exec .closeCompletion s = .next t ∧ t = { s with mem := t.mem, gauge := next, tube := none }
          ∧ Wrote s t [(stGauge, if s.presence.level then 5#16 else 2#16)])
     ∧ (∀ r, s.haltPending = false → x.record = some r →
        let done := min (s.tubesCompleted + 1) 65535
        ∃ t, exec .closeCompletion s = .next t
          ∧ t = { s with
              mem := t.mem, gauge := next, tube := none, records := vset s.records r .complete, tubesCompleted := done,
              attnCause := s.attnCause ||| causeTube }
          ∧ Wrote s t ([(stGauge, if s.presence.level then 5#16 else 2#16), (stLastSerial, BitVec.ofNat 16 x.serial),
                (recAddr r 0, 2#16)]
              ++ wordsAt (recAddr r 13) (completionWords x z)
              ++ wordsAt (recAddr r 88) (List.replicate 40 0#16)
              ++ ifChanged (s.tubesCompleted ≠ done) stCompleted (BitVec.ofNat 16 done))
          ∧ ∀ off, 18 ≤ off → off < 48 → memRead t.mem (recAddr r off) = 0#16)
     ∧ (s.haltPending = true →
        ∃ t, exec .closeCompletion s = .next t ∧ t.gauge = .halted ∧ t.haltPending = false ∧ t.tube = none ∧ t.slot = none
          ∧ t.resumePending = false ∧ t.link.rx = Receiver.off ∧ t.link.asm = .awaitMarker ∧ t.link.source = .none
          ∧ t.link.counters = s.link.counters ∧ t.tracker.state = .idle ∧ t.tracker.z = s.tracker.z ∧ t.heads = s.heads
          ∧ t.slots = s.slots ∧ t.queue = s.queue ∧ t.current = s.current ∧ t.pool = s.pool
          ∧ memRead t.mem stGauge = 1#16 ∧ memRead t.mem stSource = 0#16
          ∧ (∀ r, x.record = some r → t.records[r] = .complete ∧ memRead t.mem (recAddr r 0) = 2#16)))

/-- The close of a tube with an order writes every held section and the partial one, in order: section i goes into the block that
stood at place i of the free list, owned by the record, with the section's words and a link to the next section's block, the last link
none; sections beyond the free list are lost. The record is COMPLETE, the lot is accounted for, and no tube is open (R112, R129, R132,
R135, R137, R148). Everything else too: the link from the tube's block before, or the first-block word, the sections-written and
sections-lost words, the free-block count, POOL_LOW and ATTN SECTION as `sectionsWritten` and `sectionWords` have them (R132, R162,
R163); the record's outcome, flags, length, totals and summary (R126, R133, R136, Table 11-7), of whose words 13 to 53 and 88 to 127 are
written and no other (a model choice: log 17); the last serial, tubes completed and ATTN TUBE (R135); a SPENT slot with a pending
amendment answered DROPPED (R148, R153); and HALTED with halt pending (R14, R15). Nothing besides changes. -/
def Obligations.CloseWritesEverySectionInItsChain : Prop :=
  ∀ (s : State) (x : Tube) (r : RecNo) (j : SlotNo) (n : Snapshot) (a : Accum), PoolOk s →
    s.gauge = .closing → s.inFlight = none → s.tube = some x → x.record = some r → x.order = some j →
    s.slots[j].snapshot = some n → x.opened = some a → x.closing = none →
    (∀ p : BlockNo, x.lastBlock = some p → s.pool.owner[p] = some r) →
    (let z := x.zTail.getD s.tracker.z
     let r0 := n.recipe
     let last := if a.index * r0.lSec < z then [markHead r0.lSec r0.headSkip (completeAccum r0.lSec r0.occMin a z sfPartial)] else []
     let xs := (x.holdback ++ last).map (markTail r0.tailSkip z)
     let spent := s.slots[j].finalTube || s.slots[j].cancelPending
     ∃ t, exec .closeCompletion s = .next t
      ∧ t.tube = none ∧ t.records = vset s.records r .complete
      ∧ t.gauge = (if s.haltPending then .halted else if s.presence.level then .waitClear else .armed)
      ∧ t.pool.free = s.pool.free.drop xs.length
      ∧ (∀ b : BlockNo, t.pool.owner[b] = if b ∈ s.pool.free.take xs.length then some r else s.pool.owner[b])
      ∧ (∀ (i : Nat) (b : BlockNo) (y : SectionResult), s.pool.free[i]? = some b → xs[i]? = some y →
          memRead t.mem (blkAddr b 0) =
              (if i + 1 < xs.length then ((s.pool.free[i + 1]?).map (fun q : BlockNo => BitVec.ofNat 16 q.val)).getD 0xFFFF#16
               else 0xFFFF#16)
            ∧ ∀ off, 1 ≤ off → off < 64 → memRead t.mem (blkAddr b off) = (blockWordsOf y).getD off 0#16)
      ∧ t.attnCause &&& causeTube = causeTube ∧ memRead t.mem (recAddr r 0) = 2#16
      ∧ t.slots = (if spent then vset s.slots j
            { state := .spent, snapshot := none, taken := s.slots[j].taken, finalTube := false, amendment := none,
              cancelPending := false } else s.slots)
      ∧ t.current = (if spent then none else s.current)
      ∧ (let u := sectionsWritten s r x xs
         let done := min (s.tubesCompleted + 1) 65535
         let dropped := spent && s.slots[j].amendment.isSome
         t = { s with
            mem := t.mem, gauge := t.gauge, tube := none, records := t.records, tubesCompleted := done, pool := u.pool
            attnCause := u.attnCause ||| causeTube ||| (if dropped then causeRequest else 0#8)
            slots := t.slots, current := t.current, haltPending := false
            slot := if s.haltPending then none else s.slot
            resumePending := if s.haltPending then false else s.resumePending
            tracker := if s.haltPending then { s.tracker with
                state := .idle, stallLimit := none, episode := 0, fresh := false, encLevel := false, encRun := 0, encPhase := 0 }
              else s.tracker
            link := if s.haltPending then { s.link with rx := Receiver.off, asm := .awaitMarker, gapAt := none, source := .none }
              else s.link }
         ∧ Wrote s t
            ([(stGauge, if s.haltPending then 1#16 else if s.presence.level then 5#16 else 2#16)]
              ++ ifChanged s.haltPending stSource 0#16
              ++ ifChanged (s.haltPending && s.tracker.state != .idle) stTracking 0#16
              ++ ifChanged spent stCurrent 0xFFFF#16 ++ ifChanged spent (slotAddr j 0) 3#16
              ++ ifChanged dropped (slotAddr j 1) 0#16 ++ ifChanged dropped (slotAddr j 2) 6#16
              ++ ifChanged (s.tubesCompleted ≠ done) stCompleted (BitVec.ofNat 16 done)
              ++ [(stLastSerial, BitVec.ofNat 16 x.serial), (recAddr r 0, 2#16)]
              ++ wordsAt (recAddr r 88) (List.replicate 40 0#16)
              ++ wordsAt (recAddr r 13) (recordWordsAfter x z (decide (s.pool.free.length < xs.length)) xs)
              ++ sectionWords s.pool.free r x xs)))

/-! ### Sections (chapter 7) -/

/-- The crossing of one boundary by a real step, section by section (`RealStepAdvancesPosition`, `StallAndSyntheticSteps` and
`PositionChangeEndsMeasuringOrSaturates` say it for every position change, with the release pass and the words written). A real step that
crosses the end of the OPEN section with no section in the queue and the crossed section still to wait for its release: with the shot in
flight stamped for it the section is CLOSING and the next is OPEN (R108); with none it completes at once into the queue. With a section
CLOSING already, that one completes first, LATE if its shot is still in flight, and the crossed one completes at once (R110). -/
def Obligations.CrossingClosesAndOpensSections : Prop :=
  ∀ (s : State) (us : Nat) (x : Tube) (j : SlotNo) (n : Snapshot) (a : Accum),
    s.gauge = .measuring → s.tracker.state = .tracking → s.tube = some x → x.order = some j → s.slots[j].snapshot = some n →
    x.zTail = none → x.opened = some a → x.holdback = [] →
    (let z := s.tracker.z + s.cfg.encStep
     let r := n.recipe
     s.cfg.encStep < r.lSec → s.tracker.z < (a.index + 1) * r.lSec → (a.index + 1) * r.lSec ≤ z → z < r.maxLen → z < 67108863 →
     let result := fun (b : Accum) (f : Word) =>
       markHead r.lSec r.headSkip (completeAccum r.lSec r.occMin b ((b.index + 1) * r.lSec) f)
     let stamped := fun i : Nat => ∃ p, s.inFlight = some p ∧ p.2.stamp.secIdx = i
     (x.closing = none → stamped a.index →
        ∃ t y, exec (.realStep us) s = .next t ∧ t.tube = some y ∧ y.opened = some (newAccum (a.index + 1) 0#16)
          ∧ y.closing = some a ∧ y.holdback = [])
     ∧ (x.closing = none → ¬stamped a.index → z < (a.index + 1) * r.lSec + r.tailSkip →
        ∃ t y, exec (.realStep us) s = .next t ∧ t.tube = some y ∧ y.opened = some (newAccum (a.index + 1) 0#16)
          ∧ y.closing = none ∧ y.holdback = [result a 0#16])
     ∧ ∀ c, x.closing = some c → c.index < a.index → stamped c.index → z < (c.index + 1) * r.lSec + r.tailSkip →
        ∃ t y, exec (.realStep us) s = .next t ∧ t.tube = some y ∧ y.opened = some (newAccum (a.index + 1) 0#16)
          ∧ y.closing = none ∧ y.holdback = [result c sfLate, result a 0#16])

/-- The statistics of a completed section: NO_DATA with every statistic 0 and the thin sector none where n = 0; else mean and T_mean
are "nearest" of their quotients, sd is the floor of the exact floor square root by n, each sector mean is "nearest" and 0 where the
sector is empty, occupied counts the others, and the thin sector is the first of the least occupied means (R114, R115, R116). The
eccentricity is that of R117 where occupied reaches occ_min, never above 1000 (law 9), and 0 with LOW_COVERAGE elsewhere (R118). min and
max are the accumulator's, and the counts of the outcomes, of short trains and of the heads are carried over (R113, Table 7-3). In the
block the result stands word by word as Table 11-9 has it, the valid count saturating. -/
def Obligations.SectionStatisticsAndEccentricity : Prop :=
  ∀ (lSec occMin endZ : Nat) (a : Accum) (f : Word), 8 ≤ occMin →
    (let x := completeAccum lSec occMin a endZ f
     (x.index = a.index ∧ x.startZ = a.index * lSec ∧ x.endZ = endZ ∧ x.n = a.n ∧ x.sumT = a.sumT ∧ x.ecc ≤ 1000)
     ∧ (x.noEcho = a.noEcho ∧ x.noPair = a.noPair ∧ x.outOfBand = a.outOfBand ∧ x.noisy = a.noisy ∧ x.misfire = a.misfire
        ∧ x.shortTrain = a.shortTrain ∧ x.heads = a.heads)
     ∧ (∀ lo hi, 0 < a.n → a.range = some (lo, hi) → x.min = lo ∧ x.max = hi)
     ∧ (let at0 := fun off : Nat => (blockWordsOf x).getD off 0#16
        let word := fun n : Nat => BitVec.ofNat 16 n
        (blockWordsOf x).length = 64 ∧ at0 0 = 0xFFFF#16 ∧ at0 1 = word x.index
        ∧ at0 2 = word (x.startZ % 65536) ∧ at0 3 = word (x.startZ / 65536) ∧ at0 4 = x.flags ∧ at0 5 = word (min x.n 65535)
        ∧ at0 6 = word x.noEcho ∧ at0 7 = word x.noPair ∧ at0 8 = word x.outOfBand ∧ at0 9 = word x.noisy
        ∧ at0 10 = word x.misfire ∧ at0 11 = word x.shortTrain
        ∧ at0 12 = word x.min ∧ at0 13 = word x.max ∧ at0 14 = word x.mean ∧ at0 15 = word x.sd
        ∧ at0 16 = word x.ecc ∧ at0 17 = (x.thin.map word).getD 0xFFFF#16 ∧ at0 18 = word x.occupied ∧ at0 19 = word x.tMean
        ∧ (∀ k : Head, at0 (20 + k.val) = word x.heads[k]) ∧ (∀ i : Fin 32, at0 (24 + i.val) = word x.means[i])
        ∧ at0 56 = word (x.endZ % 65536) ∧ at0 57 = word (x.endZ / 65536) ∧ ∀ off, 58 ≤ off → at0 off = 0#16)
     ∧ (a.n = 0 → x.min = 0 ∧ x.max = 0 ∧ x.mean = 0 ∧ x.sd = 0 ∧ x.tMean = 0 ∧ x.ecc = 0 ∧ x.occupied = 0 ∧ x.thin = none
          ∧ x.flags = a.flags ||| f ||| sfNoData ∧ ∀ i : Fin 32, x.means[i] = 0)
     ∧ (0 < a.n →
        let v := a.n * a.sumT2 - a.sumT * a.sumT
        IsNearest a.sumT a.n x.mean ∧ IsNearest a.sumTEff a.n x.tMean
        ∧ (∃ q, q * q ≤ v ∧ v < (q + 1) * (q + 1) ∧ x.sd = q / a.n)
        ∧ x.occupied = ((List.finRange 32).filter (fun i => a.counts[i] ≠ 0)).length
        ∧ (∀ i : Fin 32, a.counts[i] = 0 → x.means[i] = 0)
        ∧ (∀ i : Fin 32, a.counts[i] ≠ 0 → IsNearest a.sums[i] a.counts[i] x.means[i])
        ∧ (∀ i : Nat, x.thin = some i → ∃ h : i < 32, a.counts[i] ≠ 0
            ∧ (∀ k : Fin 32, a.counts[k] ≠ 0 → x.means[i] ≤ x.means[k])
            ∧ ∀ k : Fin 32, k.val < i → a.counts[k] ≠ 0 → x.means[i] < x.means[k])
        ∧ (x.thin = none ↔ x.occupied = 0)
        ∧ (x.occupied < occMin → x.ecc = 0 ∧ x.flags = a.flags ||| f ||| sfLowCoverage)
        ∧ (occMin ≤ x.occupied → x.flags = a.flags ||| f
            ∧ ∃ (mean amp q : Nat) (cr sr : Int),
                IsNearest x.means.toList.sum x.occupied mean
                ∧ IsNearest (((List.finRange 32).map (fun i => ((x.means[i] : Nat) : Int) * (weights.getD i.val (0, 0)).1)).sum) 16384 cr
                ∧ IsNearest (((List.finRange 32).map (fun i => ((x.means[i] : Nat) : Int) * (weights.getD i.val (0, 0)).2)).sum) 16384 sr
                ∧ ((q * q : Nat) : Int) ≤ cr * cr + sr * sr ∧ cr * cr + sr * sr < (((q + 1) * (q + 1) : Nat) : Int)
                ∧ IsNearest ((2 * q : Nat) : Int) x.occupied amp
                ∧ (mean ≠ 0 → ∃ e : Nat, IsNearest ((1000 * amp : Nat) : Int) mean e ∧ x.ecc = min 1000 e))))

/-- Law 8: an accumulator is consistent at its creation, and stays so with every shot record that it takes whose thickness, if it is
VALID, is at least 1 µm (R103, R105); and the result of a consistent accumulator with n > 0 has min ≤ mean ≤ max, and every nonzero
sector mean between min and max (R115, R116). -/
def Obligations.SectionExtremesBoundItsMeans : Prop :=
  (∀ i f, AccumOk (newAccum i f))
  ∧ (∀ (a : Accum) (r : ShotRecord), AccumOk a → (r.outcome = .valid → 1 ≤ r.t) → AccumOk (takeInto a r))
  ∧ ∀ (lSec occMin endZ : Nat) (a : Accum) (f : Word), AccumOk a → 0 < a.n →
      (let x := completeAccum lSec occMin a endZ f
       x.min ≤ x.mean ∧ x.mean ≤ x.max ∧ 1 ≤ x.min
         ∧ ∀ i : Fin 32, x.means[i] ≠ 0 → x.min ≤ x.means[i] ∧ x.means[i] ≤ x.max)

/-! ### Laws of the part: invariants that every step keeps -/

/-- The machine right after reset meets every invariant below. -/
def Obligations.ResetMeetsEveryInvariant : Prop :=
  MemOk State.reset ∧ GaugeOk State.reset ∧ PoolOk State.reset ∧ OrdersOk State.reset ∧ RecordsOk State.reset
    ∧ GainOk State.reset ∧ SectionsOk State.reset

/-- Every step keeps the memory in its canonical form (the form is the model's: log 5). -/
def Obligations.EveryStepKeepsMemoryCanonical : Prop :=
  ∀ s t : State, MemOk s → step s = .next t → MemOk t

/-- Every step keeps what the gauge state says of the other blocks (Table 1-1, R2, R17, R54, R90, R122). -/
def Obligations.EveryStepKeepsGaugeConsistent : Prop :=
  ∀ s t : State, GaugeOk s → step s = .next t → GaugeOk t

/-- Law 1: every step keeps each block either free once with owner FREE or owned and absent from the free list, and so the free blocks
and the owned ones are always 952 together (R161). -/
def Obligations.EveryStepKeepsPoolPartition : Prop :=
  (∀ s t : State, PoolOk s → step s = .next t → PoolOk t)
  ∧ ∀ s : State, PoolOk s → s.pool.free.length + (s.pool.owner.toList.filter Option.isSome).length = 952

/-- Law 12: every step keeps the order queue, the current order and the slot states together (R139, R145, R147). -/
def Obligations.EveryStepKeepsOrderQueue : Prop :=
  ∀ s t : State, OrdersOk s → step s = .next t → OrdersOk t

/-- Law 2: every step keeps the OPEN record the open tube's, FREE records without blocks, and the RELEASING records those of the
release queue and the scan (R122, R164 to R167). -/
def Obligations.EveryStepKeepsTubeRecords : Prop :=
  ∀ s t : State, GaugeOk s → RecordsOk s → step s = .next t → RecordsOk t

/-- Law 10: every step keeps the gain codes within the range of the order in force (R37 to R41). -/
def Obligations.EveryStepKeepsGainsInRange : Prop :=
  ∀ s t : State, GaugeOk s → OrdersOk s → GainOk s → step s = .next t → GainOk t

/-- Laws 3 and 4: every step keeps the CLOSING section below the OPEN one and the held sections ascending below both, none of which can
be written yet; and so the holdback queue holds at most 22 sections between events (R102, R130, R131). -/
def Obligations.EveryStepKeepsSectionsInOrder : Prop :=
  (∀ s t : State, GaugeOk s → OrdersOk s → SectionsOk s → step s = .next t → SectionsOk t)
  ∧ ∀ (s : State) (x : Tube), SectionsOk s → s.tube = some x → x.holdback.length ≤ 22

/-- Law 6: a command adds a pulse on FIRE_k only by the fire decision of head k, one pulse, in MEASURING, with firing PERMITTED, the
head ON and in the mask of the tube's order (R19, R22); and, where the laws hold, the gain code then lies within gmin to gmax of the
settings that are bound to the shot (law 10, R37). -/
def Obligations.FireOnlyUnderItsConditions : Prop :=
  ∀ (s t : State) (i : Instr) (k : Head), exec i s = .next t → s.heads[k].fires < t.heads[k].fires →
    t.heads[k].fires = s.heads[k].fires + 1
      ∧ (i = .fireDecision ∨ ∃ o p, i = .cycleStart o p) ∧ s.gauge = .measuring ∧ t.gauge = .measuring
      ∧ t.firing = .permitted ∧ t.heads[k].state = .on
      ∧ ∃ sh n, t.inFlight = some (k, sh) ∧ t.tubeOrder = some n ∧ inMask n.recipe.headMask k = true
        ∧ inMask sh.bound.recipe.headMask k = true
        ∧ (GaugeOk s → OrdersOk s → GainOk s →
            sh.bound.recipe.gmin ≤ t.chans[k].gain ∧ t.chans[k].gain ≤ sh.bound.recipe.gmax)

/-! ### One ct of the sampled inputs, and the way of a shot record -/

/-- One ct, nothing being due, on the samples that the outside gives for it (log 7; what is found waits in the queue, in this order:
logs 1, 2). The encoder filter samples at its interval (its phase: log 13) and takes a new level after three samples of it, or at once
with OFF; a rise is a real step, whose period is that of the running counter (R86; log 25). The presence filter takes a new level after D
samples of it (R120, R121). The receiver counts ct at mark in SETTLE, finds the start edge in READY, and samples a frame at t0 + H + j·B
(R55 to R57). Each comparator's output follows the signal with a hysteresis of 2 DAC codes, at the DAC code held at the fire decision
while a shot is in flight; one that rises is a crossing, at its time; at the beginning of the ct the outputs settle at the standing
signal, which is a crossing only in a quiet gate that was running (R42 to R44; log 33). In OPEN the peak detector holds the largest
excursion before the sample instant, from the level that stands at its entry on (R49). Several changes in one ct act one after another.
In HALTED nothing is sampled: the filters and the receiver stay, and no event is found; the pins and the comparators follow (R54, R86,
R120, R43). During INIT the clearing goes on by one word a ct (R5; its pace: log 14). -/
def Obligations.SampledInputsAreFiltered : Prop :=
  (∀ (s : State) (x : PinSample), s.pending = [] → s.due = none → runs s.gauge = true →
    x = s.inputs.headD { present := s.pins.present, enc := s.pins.enc, pyro := s.pins.pyro, echo := [] } →
    (let c := s.cfg
     let e := s.tracker
     let phase := e.encPhase + 2
     let interval := match c.encFilter with
       | .off => 2
       | .mhz10 => 5
       | .mhz2p5 => 20
       | .khz625 => 80
     let sampled := decide (interval ≤ phase)
     let flips := sampled && x.enc != e.encLevel && (c.encFilter == .off || decide (2 ≤ e.encRun))
     let p := s.presence
     let edge := x.present != p.level && decide ((if c.debounce = 0 then 1 else 25000 * c.debounce) ≤ p.run + 1)
     let bit := c.pyroDiv + 1
     let mark := x.pyro != c.pyroInverted
     let rx := s.link.rx
     let point := (rx.state == .data || rx.state == .parity || rx.state == .stop)
       && decide (rx.t0 + bit / 2 + (rx.bits.length + 1) * bit = s.now + 1)
     let events : List Instr :=
       (if flips && x.enc then [.realStep (min ((s.now + 1) / 25 - e.stepAt / 25) 16777215)] else [])
       ++ (if edge then [edgeRow s.gauge x.present] else [])
       ++ (if rx.state = .ready ∧ rx.prevMark = true ∧ mark = false then [.startEdge] else [])
     let standing := fun k : Head => s.pins.echo[k]
     let level0 := fun k : Head => heard s k (standing k)
     let slot0 := s.slot.bind (fun h => slotHears s.slot h.head (timeOn s h.head 0) (standing h.head))
     ∃ t, step s = .next t
      ∧ t = { s with
          now := s.now + 1, inputs := s.inputs.tail
          pins := { s.pins with present := x.present, enc := x.enc, pyro := x.pyro, echo := t.pins.echo }
          tracker := { e with
            encPhase := if sampled then phase - interval else phase
            encLevel := if flips then x.enc else e.encLevel
            encRun := if !sampled then e.encRun else if x.enc = e.encLevel ∨ flips = true then 0 else e.encRun + 1 }
          presence := { p with run := if x.present = p.level ∨ edge = true then 0 else p.run + 1 }
          link := { s.link with rx := { rx with
            prevMark := mark
            markRun := if rx.state ≠ .settle then rx.markRun else if mark then rx.markRun + 1 else 0
            bits := if point then rx.bits ++ [mark] else rx.bits
            state := if point = false then rx.state else if rx.bits.length < 7 then .data
              else if rx.bits.length = 7 ∧ c.pyroParity ≠ .none then .parity else .stop } }
          chans := t.chans, slot := t.slot, pending := t.pending }
      ∧ (x.echo = [] →
          t.pins.echo = s.pins.echo ∧ (∀ k, t.chans[k] = level0 k) ∧ t.slot = slot0
          ∧ t.pending = (List.finRange 4).flatMap (fun k =>
              if gateWasRunning s k then rises s k (standing k) 0 else []) ++ events)
      ∧ (∀ q : EchoPoint, x.echo = [q] → (∀ k, level0 k = s.chans[k]) →
          t.pins.echo = vset s.pins.echo q.head q.level ∧ t.chans = vset s.chans q.head (heard s q.head q.level)
          ∧ t.slot = slotHears slot0 q.head (timeOn s q.head q.offset) q.level
          ∧ t.pending = rises s q.head q.level (timeOn s q.head q.offset) ++ events)
      ∧ (let u := afterSignals (standingSignals s) x.echo
         t.pins.echo = u.1.pins.echo ∧ t.chans = u.1.chans ∧ t.slot = u.1.slot
          ∧ t.pending = (List.finRange 4).flatMap (fun k => if gateWasRunning s k then rises s k (standing k) 0 else [])
              ++ u.2 ++ events)))
  ∧ (∀ (s : State) (x : PinSample), s.pending = [] → s.due = none → s.gauge = .halted →
      x = s.inputs.headD { present := s.pins.present, enc := s.pins.enc, pyro := s.pins.pyro, echo := [] } →
      (let u := (afterSignals (standingSignals s) x.echo).1
       step s = .next { s with
        now := s.now + 1, inputs := s.inputs.tail
        pins := { s.pins with present := x.present, enc := x.enc, pyro := x.pyro, echo := u.pins.echo }
        chans := u.chans, slot := u.slot }))
  ∧ ∀ s : State, s.pending = [] → s.due = none → s.gauge = .init → s.resetActive = false →
      ∃ t, step s = .next t ∧ t.clearing = { s.clearing with next := s.clearing.next + 1 } ∧ t.gauge = .init ∧ t.pending = []
        ∧ ∀ a, a < Config.memWords → memRead t.mem a =
            if a = s.clearing.next ∧ ¬(s.clearing.soft = true ∧ 0x0100 ≤ a ∧ a ≤ 0x01FF) then 0#16 else memRead s.mem a

/-- A shot record reaches the open tube: the total of its outcome goes up by 1, those of UNMAPPED and of late shots besides, each
saturating; the flags of Table 8-2 are given; and of the tube's accumulators the one of the record's section takes it, none if the
record is UNMAPPED. A record below every accumulator is a late shot (R83, R104, R107, R126); one above every accumulator, which cannot
arise, is counted and goes to none: a model choice (log 30). An accumulator takes a VALID record with
its sector, sums, extremes and head count as long as n is below 4,294,967,295, the sector's count and sum as long as that count is below
65,535; another outcome adds 1 to its count; SHORT_TRAIN is counted and the marks give the section's flags (R105, R106, Table 7-2). -/
def Obligations.ShotRecordReachesTubeAndSection : Prop :=
  ∀ (r : ShotRecord) (x : Tube) (a : Accum),
    (let late := r.unmapped = false ∧ (∀ b ∈ x.opened, r.secIdx < b.index) ∧ ∀ b ∈ x.closing, r.secIdx < b.index
     let up := fun (p : Prop) [Decidable p] (n : Nat) => if p then min (n + 1) 4294967295 else n
     let u := x.totals
     let route := fun b : Accum => if r.unmapped = false ∧ b.index = r.secIdx then takeInto b r else b
     tubeTakes r x = { x with
       totals := { u with
         valid := up (r.outcome = .valid) u.valid, noEcho := up (r.outcome = .noEcho) u.noEcho
         noPair := up (r.outcome = .noPair) u.noPair, outOfBand := up (r.outcome = .outOfBand) u.outOfBand
         noisy := up (r.outcome = .noisy) u.noisy, misfire := up (r.outcome = .misfire) u.misfire
         unmapped := up (r.unmapped = true) u.unmapped, late := up late u.late }
       flags := x.flags ||| (if r.tempFallback then tfTempFallback else 0#16) ||| (if r.tempClamped then tfTempClamped else 0#16)
         ||| (if r.cut then tfWindowClamped else 0#16) ||| (if late then tfLateShots else 0#16)
       opened := x.opened.map route, closing := x.closing.map route })
    ∧ (let takes := r.outcome = .valid ∧ a.n < 4294967295
       let counts := takes ∧ a.counts[r.sector] < 65535
       let up := fun (p : Prop) [Decidable p] (n : Nat) => if p then min (n + 1) 65535 else n
       takeInto a r = { a with
         counts := if counts then vset a.counts r.sector (a.counts[r.sector] + 1) else a.counts
         sums := if counts then vset a.sums r.sector (a.sums[r.sector] + r.t) else a.sums
         n := if takes then a.n + 1 else a.n
         sumT := if takes then a.sumT + r.t else a.sumT
         sumT2 := if takes then a.sumT2 + r.t ^ 2 else a.sumT2
         sumTEff := if takes then a.sumTEff + r.tEff else a.sumTEff
         range := if takes then some (match a.range with
           | some (lo, hi) => (min lo r.t, max hi r.t)
           | none => (r.t, r.t)) else a.range
         heads := if takes then vset a.heads r.head (min (a.heads[r.head] + 1) 65535) else a.heads
         noEcho := up (r.outcome = .noEcho) a.noEcho, noPair := up (r.outcome = .noPair) a.noPair
         outOfBand := up (r.outcome = .outOfBand) a.outOfBand, noisy := up (r.outcome = .noisy) a.noisy
         misfire := up (r.outcome = .misfire) a.misfire, shortTrain := up (r.shortTrain = true) a.shortTrain
         flags := a.flags ||| (if r.estimated then sfEstimated else 0#16) ||| (if r.tempFallback then sfTempFallback else 0#16)
           ||| (if r.tempClamped then sfTempClamped else 0#16) })
end

