-- ==== Sys2Proof/Laws/Arith.lean ====
section
/-! SUPPORT. What the arithmetic of the rules does: rounding, square roots, clamps and gain moves, and the update of a table. -/

namespace Sys2Proof.Machine

open Safety

/-! ### Tables -/

@[simp] theorem vset_getElem {α : Type} {n : Nat} (v : Vector α n) (i : Fin n) (x : α) (j : Nat) (hj : j < n) :
    (vset v i x)[j] = if i.val = j then x else v[j] := by simp [vset, Vector.getElem_set]

@[simp] theorem vset_getFin {α : Type} {n : Nat} (v : Vector α n) (i j : Fin n) (x : α) :
    (vset v i x)[j] = if i = j then x else v[j] := by
  simp [vset, Vector.getElem_set, Fin.ext_iff]

theorem vset_vset {α : Type} {n : Nat} (v : Vector α n) (i : Fin n) (x y : α) : vset (vset v i x) i y = vset v i y := by
  ext j hj
  by_cases h : i.val = j <;> simp [h]

theorem vset_same {α : Type} {n : Nat} (v : Vector α n) (i : Fin n) : vset v i v[i] = v := by
  ext j hj
  by_cases h : i.val = j
  · subst h; simp
  · simp [h]

/-! ### Words -/

theorem toWord_toNat (a : Nat) (h : a < 65536) : (toWord a).toNat = a := by simp [toWord]; omega

/-! ### Nearest -/

theorem nearestNat_bounds (a b : Nat) (hb : 0 < b) :
    2 * a < 2 * b * nearestNat a b + b ∧ 2 * b * nearestNat a b ≤ 2 * a + b := by
  have h1 := Nat.div_mul_le_self (2 * a + b) (2 * b)
  have h2 := Nat.lt_div_mul_add (a := 2 * a + b) (b := 2 * b) (by omega)
  rw [show (2 * a + b) / (2 * b) = nearestNat a b from rfl, Nat.mul_comm (nearestNat a b)] at h1 h2
  constructor <;> omega

theorem nearestNat_isNearest (a b : Nat) (hb : 0 < b) : IsNearest a b (nearestNat a b) := by
  obtain ⟨h1, h2⟩ := nearestNat_bounds a b hb
  have e : (b : Int) * (nearestNat a b : Int) = ((b * nearestNat a b : Nat) : Int) := by push_cast; rfl
  rw [Nat.mul_assoc] at h1 h2
  have hab : |(a : Int)| = a := abs_of_nonneg (by omega)
  have hq : |(nearestNat a b : Int)| = nearestNat a b := abs_of_nonneg (by omega)
  unfold IsNearest
  rw [hab, hq, e]
  rcases abs_cases (((b * nearestNat a b : Nat) : Int) - (a : Int)) with h | h <;> constructor <;> omega

/-- "Nearest" of a signed quotient has the same size as that of its size (R1). -/
theorem nearestInt_isNearest (a : Int) (b : Nat) (hb : 0 < b) : IsNearest a b (nearestInt a b) := by
  unfold nearestInt
  split
  · rename_i h
    have := nearestNat_isNearest a.toNat b hb
    rwa [Int.toNat_of_nonneg h] at this
  · rename_i h
    have := nearestNat_isNearest (-a).toNat b hb
    rw [Int.toNat_of_nonneg (by omega)] at this
    obtain ⟨h1, h2⟩ := this
    have e : (b : Int) * -(nearestNat (-a).toNat b : Int) - a = -((b : Int) * (nearestNat (-a).toNat b : Int) - -a) := by ring
    unfold IsNearest
    rw [e, abs_neg, abs_neg]
    rw [abs_neg] at h2
    exact ⟨h1, h2⟩

theorem le_nearestNat (lo a b : Nat) (hb : 0 < b) (h : b * lo ≤ a) : lo ≤ nearestNat a b := by
  rw [nearestNat, Nat.le_div_iff_mul_le (by omega)]
  have : lo * (2 * b) = 2 * (b * lo) := by ring
  omega

theorem nearestNat_le (hi a b : Nat) (hb : 0 < b) (h : a ≤ b * hi) : nearestNat a b ≤ hi := by
  rw [nearestNat, ← Nat.lt_succ_iff, Nat.div_lt_iff_lt_mul (by omega)]
  have : hi.succ * (2 * b) = 2 * (b * hi) + 2 * b := by rw [Nat.succ_eq_add_one]; ring
  omega

/-! ### Ceil and isqrt -/

theorem ceilDiv_le_iff (a b c : Nat) (hb : 0 < b) : ceilDiv a b ≤ c ↔ a ≤ c * b := by
  rw [ceilDiv, ← Nat.lt_succ_iff, Nat.div_lt_iff_lt_mul hb, Nat.succ_eq_add_one, Nat.add_mul]
  omega

theorem isqrtBits_spec (k n r : Nat) (h1 : r * r ≤ n) (h2 : n < (r + 2 ^ k) * (r + 2 ^ k)) :
    isqrtBits k n r * isqrtBits k n r ≤ n ∧ n < (isqrtBits k n r + 1) * (isqrtBits k n r + 1) := by
  induction k generalizing r with
  | zero => simpa [isqrtBits] using ⟨h1, by simpa using h2⟩
  | succ k ih =>
    rw [isqrtBits]
    split
    · rename_i h
      refine ih _ h ?_
      rwa [Nat.add_assoc, ← Nat.two_mul, ← Nat.pow_succ']
    · rename_i h
      exact ih _ h1 (by omega)

/-- The square of isqrt is at most its argument, and that of the next number is above it (R1). -/
theorem isqrt_spec (n : Nat) : isqrt n * isqrt n ≤ n ∧ n < (isqrt n + 1) * (isqrt n + 1) := by
  refine isqrtBits_spec _ n 0 (by omega) ?_
  have h1 : n < 2 ^ (n.log2 + 1) := Nat.lt_log2_self
  have h2 : 2 ^ (n.log2 + 1) ≤ 2 ^ (n.log2 / 2 + 1) * 2 ^ (n.log2 / 2 + 1) := by
    rw [← Nat.pow_add]
    exact Nat.pow_le_pow_right (by omega) (by omega)
  rw [Nat.zero_add]
  omega

/-! ### Gains -/

theorem clampGain_bounds (lo hi g : Nat) (h : lo ≤ hi) : lo ≤ clampGain lo hi g ∧ clampGain lo hi g ≤ hi := by
  unfold clampGain
  split
  · omega
  · split <;> omega

theorem clampGain_of_within (lo hi g : Nat) (h1 : lo ≤ g) (h2 : g ≤ hi) : clampGain lo hi g = g := by
  unfold clampGain
  split
  · omega
  · split <;> omega

/-- A gain move keeps a code within a range that it is in (R40). -/
theorem movedGain_bounds (lo hi g : Nat) (m : GainMove) (h1 : lo ≤ g) (h2 : g ≤ hi) :
    lo ≤ movedGain lo hi g m ∧ movedGain lo hi g m ≤ hi := by
  cases m <;> simp only [movedGain] <;> (try split) <;> omega

/-- A gain move keeps a code within 0 to 15 where the range is (R37). -/
theorem movedGain_le (lo hi g : Nat) (m : GainMove) (h1 : g ≤ 15) (h2 : lo ≤ 15) (h3 : hi ≤ 15) : movedGain lo hi g m ≤ 15 := by
  cases m <;> simp only [movedGain] <;> (try split) <;> omega

/-- The gain step of the model is Table 3-3 with the bounds of R40. -/
theorem movedGain_eq_steppedGain (b n : Recipe) (g : Nat) (a1 : Option Byte) :
    movedGain n.gmin n.gmax g (gainMove b a1) = steppedGain b n g a1 := by
  unfold gainMove steppedGain
  cases hb : b.agcOn
  · simp [movedGain]
  · cases a1 with
    | none => simp [movedGain]
    | some a =>
      simp only [Bool.not_true, Bool.false_eq_true, if_false, Bool.true_eq_false]
      split
      · simp [movedGain]
      · split <;> simp [movedGain]

end Sys2Proof.Machine
end

