-- ==== Sys2Proof/Laws/State.lean ====
section
/-! SUPPORT. What each named update of the state does to each field: one lemma per field per update. -/

namespace Sys2Proof.Machine

/-! ### `put`: writing a word -/

@[simp] theorem State.put_gauge (s : State) (a : Nat) (v : Word) : (s.put a v).gauge = s.gauge := rfl
@[simp] theorem State.put_resetActive (s : State) (a : Nat) (v : Word) : (s.put a v).resetActive = s.resetActive := rfl
@[simp] theorem State.put_clearing (s : State) (a : Nat) (v : Word) : (s.put a v).clearing = s.clearing := rfl
@[simp] theorem State.put_haltPending (s : State) (a : Nat) (v : Word) : (s.put a v).haltPending = s.haltPending := rfl
@[simp] theorem State.put_mem (s : State) (a : Nat) (v : Word) : (s.put a v).mem = memWrite s.mem (toWord a) v := rfl
@[simp] theorem State.put_attnCause (s : State) (a : Nat) (v : Word) : (s.put a v).attnCause = s.attnCause := rfl
@[simp] theorem State.put_attnMask (s : State) (a : Nat) (v : Word) : (s.put a v).attnMask = s.attnMask := rfl
@[simp] theorem State.put_setup (s : State) (a : Nat) (v : Word) : (s.put a v).setup = s.setup := rfl
@[simp] theorem State.put_pins (s : State) (a : Nat) (v : Word) : (s.put a v).pins = s.pins := rfl
@[simp] theorem State.put_slots (s : State) (a : Nat) (v : Word) : (s.put a v).slots = s.slots := rfl
@[simp] theorem State.put_queue (s : State) (a : Nat) (v : Word) : (s.put a v).queue = s.queue := rfl
@[simp] theorem State.put_current (s : State) (a : Nat) (v : Word) : (s.put a v).current = s.current := rfl
@[simp] theorem State.put_slot (s : State) (a : Nat) (v : Word) : (s.put a v).slot = s.slot := rfl
@[simp] theorem State.put_cycleAt (s : State) (a : Nat) (v : Word) : (s.put a v).cycleAt = s.cycleAt := rfl
@[simp] theorem State.put_firing (s : State) (a : Nat) (v : Word) : (s.put a v).firing = s.firing := rfl
@[simp] theorem State.put_resumePending (s : State) (a : Nat) (v : Word) : (s.put a v).resumePending = s.resumePending := rfl
@[simp] theorem State.put_heads (s : State) (a : Nat) (v : Word) : (s.put a v).heads = s.heads := rfl
@[simp] theorem State.put_chans (s : State) (a : Nat) (v : Word) : (s.put a v).chans = s.chans := rfl
@[simp] theorem State.put_lastValid (s : State) (a : Nat) (v : Word) : (s.put a v).lastValid = s.lastValid := rfl
@[simp] theorem State.put_tracker (s : State) (a : Nat) (v : Word) : (s.put a v).tracker = s.tracker := rfl
@[simp] theorem State.put_presence (s : State) (a : Nat) (v : Word) : (s.put a v).presence = s.presence := rfl
@[simp] theorem State.put_link (s : State) (a : Nat) (v : Word) : (s.put a v).link = s.link := rfl
@[simp] theorem State.put_records (s : State) (a : Nat) (v : Word) : (s.put a v).records = s.records := rfl
@[simp] theorem State.put_serial (s : State) (a : Nat) (v : Word) : (s.put a v).serial = s.serial := rfl
@[simp] theorem State.put_nextSearch (s : State) (a : Nat) (v : Word) : (s.put a v).nextSearch = s.nextSearch := rfl
@[simp] theorem State.put_tubesCompleted (s : State) (a : Nat) (v : Word) : (s.put a v).tubesCompleted = s.tubesCompleted := rfl
@[simp] theorem State.put_tubesMissed (s : State) (a : Nat) (v : Word) : (s.put a v).tubesMissed = s.tubesMissed := rfl
@[simp] theorem State.put_tube (s : State) (a : Nat) (v : Word) : (s.put a v).tube = s.tube := rfl
@[simp] theorem State.put_pool (s : State) (a : Nat) (v : Word) : (s.put a v).pool = s.pool := rfl
@[simp] theorem State.put_now (s : State) (a : Nat) (v : Word) : (s.put a v).now = s.now := rfl
@[simp] theorem State.put_inputs (s : State) (a : Nat) (v : Word) : (s.put a v).inputs = s.inputs := rfl
@[simp] theorem State.put_pending (s : State) (a : Nat) (v : Word) : (s.put a v).pending = s.pending := rfl

/-! ### `putList`: writing words -/

@[simp] theorem State.putList_gauge (s : State) (a : Nat) (vs : List Word) : (s.putList a vs).gauge = s.gauge := rfl
@[simp] theorem State.putList_resetActive (s : State) (a : Nat) (vs : List Word) : (s.putList a vs).resetActive = s.resetActive := rfl
@[simp] theorem State.putList_clearing (s : State) (a : Nat) (vs : List Word) : (s.putList a vs).clearing = s.clearing := rfl
@[simp] theorem State.putList_haltPending (s : State) (a : Nat) (vs : List Word) : (s.putList a vs).haltPending = s.haltPending := rfl
@[simp] theorem State.putList_mem (s : State) (a : Nat) (vs : List Word) : (s.putList a vs).mem = memWriteList s.mem a vs := rfl
@[simp] theorem State.putList_attnCause (s : State) (a : Nat) (vs : List Word) : (s.putList a vs).attnCause = s.attnCause := rfl
@[simp] theorem State.putList_attnMask (s : State) (a : Nat) (vs : List Word) : (s.putList a vs).attnMask = s.attnMask := rfl
@[simp] theorem State.putList_setup (s : State) (a : Nat) (vs : List Word) : (s.putList a vs).setup = s.setup := rfl
@[simp] theorem State.putList_pins (s : State) (a : Nat) (vs : List Word) : (s.putList a vs).pins = s.pins := rfl
@[simp] theorem State.putList_slots (s : State) (a : Nat) (vs : List Word) : (s.putList a vs).slots = s.slots := rfl
@[simp] theorem State.putList_queue (s : State) (a : Nat) (vs : List Word) : (s.putList a vs).queue = s.queue := rfl
@[simp] theorem State.putList_current (s : State) (a : Nat) (vs : List Word) : (s.putList a vs).current = s.current := rfl
@[simp] theorem State.putList_slot (s : State) (a : Nat) (vs : List Word) : (s.putList a vs).slot = s.slot := rfl
@[simp] theorem State.putList_cycleAt (s : State) (a : Nat) (vs : List Word) : (s.putList a vs).cycleAt = s.cycleAt := rfl
@[simp] theorem State.putList_firing (s : State) (a : Nat) (vs : List Word) : (s.putList a vs).firing = s.firing := rfl
@[simp] theorem State.putList_resumePending (s : State) (a : Nat) (vs : List Word) : (s.putList a vs).resumePending = s.resumePending := rfl
@[simp] theorem State.putList_heads (s : State) (a : Nat) (vs : List Word) : (s.putList a vs).heads = s.heads := rfl
@[simp] theorem State.putList_chans (s : State) (a : Nat) (vs : List Word) : (s.putList a vs).chans = s.chans := rfl
@[simp] theorem State.putList_lastValid (s : State) (a : Nat) (vs : List Word) : (s.putList a vs).lastValid = s.lastValid := rfl
@[simp] theorem State.putList_tracker (s : State) (a : Nat) (vs : List Word) : (s.putList a vs).tracker = s.tracker := rfl
@[simp] theorem State.putList_presence (s : State) (a : Nat) (vs : List Word) : (s.putList a vs).presence = s.presence := rfl
@[simp] theorem State.putList_link (s : State) (a : Nat) (vs : List Word) : (s.putList a vs).link = s.link := rfl
@[simp] theorem State.putList_records (s : State) (a : Nat) (vs : List Word) : (s.putList a vs).records = s.records := rfl
@[simp] theorem State.putList_serial (s : State) (a : Nat) (vs : List Word) : (s.putList a vs).serial = s.serial := rfl
@[simp] theorem State.putList_nextSearch (s : State) (a : Nat) (vs : List Word) : (s.putList a vs).nextSearch = s.nextSearch := rfl
@[simp] theorem State.putList_tubesCompleted (s : State) (a : Nat) (vs : List Word) : (s.putList a vs).tubesCompleted = s.tubesCompleted := rfl
@[simp] theorem State.putList_tubesMissed (s : State) (a : Nat) (vs : List Word) : (s.putList a vs).tubesMissed = s.tubesMissed := rfl
@[simp] theorem State.putList_tube (s : State) (a : Nat) (vs : List Word) : (s.putList a vs).tube = s.tube := rfl
@[simp] theorem State.putList_pool (s : State) (a : Nat) (vs : List Word) : (s.putList a vs).pool = s.pool := rfl
@[simp] theorem State.putList_now (s : State) (a : Nat) (vs : List Word) : (s.putList a vs).now = s.now := rfl
@[simp] theorem State.putList_inputs (s : State) (a : Nat) (vs : List Word) : (s.putList a vs).inputs = s.inputs := rfl
@[simp] theorem State.putList_pending (s : State) (a : Nat) (vs : List Word) : (s.putList a vs).pending = s.pending := rfl

/-! ### `putIf`: rewriting a published word -/

@[simp] theorem State.putIf_gauge (s : State) (changed : Bool) (a : Nat) (v : Word) : (s.putIf changed a v).gauge = s.gauge := rfl
@[simp] theorem State.putIf_resetActive (s : State) (changed : Bool) (a : Nat) (v : Word) : (s.putIf changed a v).resetActive = s.resetActive := rfl
@[simp] theorem State.putIf_clearing (s : State) (changed : Bool) (a : Nat) (v : Word) : (s.putIf changed a v).clearing = s.clearing := rfl
@[simp] theorem State.putIf_haltPending (s : State) (changed : Bool) (a : Nat) (v : Word) : (s.putIf changed a v).haltPending = s.haltPending := rfl
@[simp] theorem State.putIf_mem (s : State) (changed : Bool) (a : Nat) (v : Word) : (s.putIf changed a v).mem = if changed then memWrite s.mem (toWord a) v else s.mem := rfl
@[simp] theorem State.putIf_attnCause (s : State) (changed : Bool) (a : Nat) (v : Word) : (s.putIf changed a v).attnCause = s.attnCause := rfl
@[simp] theorem State.putIf_attnMask (s : State) (changed : Bool) (a : Nat) (v : Word) : (s.putIf changed a v).attnMask = s.attnMask := rfl
@[simp] theorem State.putIf_setup (s : State) (changed : Bool) (a : Nat) (v : Word) : (s.putIf changed a v).setup = s.setup := rfl
@[simp] theorem State.putIf_pins (s : State) (changed : Bool) (a : Nat) (v : Word) : (s.putIf changed a v).pins = s.pins := rfl
@[simp] theorem State.putIf_slots (s : State) (changed : Bool) (a : Nat) (v : Word) : (s.putIf changed a v).slots = s.slots := rfl
@[simp] theorem State.putIf_queue (s : State) (changed : Bool) (a : Nat) (v : Word) : (s.putIf changed a v).queue = s.queue := rfl
@[simp] theorem State.putIf_current (s : State) (changed : Bool) (a : Nat) (v : Word) : (s.putIf changed a v).current = s.current := rfl
@[simp] theorem State.putIf_slot (s : State) (changed : Bool) (a : Nat) (v : Word) : (s.putIf changed a v).slot = s.slot := rfl
@[simp] theorem State.putIf_cycleAt (s : State) (changed : Bool) (a : Nat) (v : Word) : (s.putIf changed a v).cycleAt = s.cycleAt := rfl
@[simp] theorem State.putIf_firing (s : State) (changed : Bool) (a : Nat) (v : Word) : (s.putIf changed a v).firing = s.firing := rfl
@[simp] theorem State.putIf_resumePending (s : State) (changed : Bool) (a : Nat) (v : Word) : (s.putIf changed a v).resumePending = s.resumePending := rfl
@[simp] theorem State.putIf_heads (s : State) (changed : Bool) (a : Nat) (v : Word) : (s.putIf changed a v).heads = s.heads := rfl
@[simp] theorem State.putIf_chans (s : State) (changed : Bool) (a : Nat) (v : Word) : (s.putIf changed a v).chans = s.chans := rfl
@[simp] theorem State.putIf_lastValid (s : State) (changed : Bool) (a : Nat) (v : Word) : (s.putIf changed a v).lastValid = s.lastValid := rfl
@[simp] theorem State.putIf_tracker (s : State) (changed : Bool) (a : Nat) (v : Word) : (s.putIf changed a v).tracker = s.tracker := rfl
@[simp] theorem State.putIf_presence (s : State) (changed : Bool) (a : Nat) (v : Word) : (s.putIf changed a v).presence = s.presence := rfl
@[simp] theorem State.putIf_link (s : State) (changed : Bool) (a : Nat) (v : Word) : (s.putIf changed a v).link = s.link := rfl
@[simp] theorem State.putIf_records (s : State) (changed : Bool) (a : Nat) (v : Word) : (s.putIf changed a v).records = s.records := rfl
@[simp] theorem State.putIf_serial (s : State) (changed : Bool) (a : Nat) (v : Word) : (s.putIf changed a v).serial = s.serial := rfl
@[simp] theorem State.putIf_nextSearch (s : State) (changed : Bool) (a : Nat) (v : Word) : (s.putIf changed a v).nextSearch = s.nextSearch := rfl
@[simp] theorem State.putIf_tubesCompleted (s : State) (changed : Bool) (a : Nat) (v : Word) : (s.putIf changed a v).tubesCompleted = s.tubesCompleted := rfl
@[simp] theorem State.putIf_tubesMissed (s : State) (changed : Bool) (a : Nat) (v : Word) : (s.putIf changed a v).tubesMissed = s.tubesMissed := rfl
@[simp] theorem State.putIf_tube (s : State) (changed : Bool) (a : Nat) (v : Word) : (s.putIf changed a v).tube = s.tube := rfl
@[simp] theorem State.putIf_pool (s : State) (changed : Bool) (a : Nat) (v : Word) : (s.putIf changed a v).pool = s.pool := rfl
@[simp] theorem State.putIf_now (s : State) (changed : Bool) (a : Nat) (v : Word) : (s.putIf changed a v).now = s.now := rfl
@[simp] theorem State.putIf_inputs (s : State) (changed : Bool) (a : Nat) (v : Word) : (s.putIf changed a v).inputs = s.inputs := rfl
@[simp] theorem State.putIf_pending (s : State) (changed : Bool) (a : Nat) (v : Word) : (s.putIf changed a v).pending = s.pending := rfl

/-! ### `raise`: raising a cause -/

@[simp] theorem State.raise_gauge (s : State) (c : BitVec 8) : (s.raise c).gauge = s.gauge := rfl
@[simp] theorem State.raise_resetActive (s : State) (c : BitVec 8) : (s.raise c).resetActive = s.resetActive := rfl
@[simp] theorem State.raise_clearing (s : State) (c : BitVec 8) : (s.raise c).clearing = s.clearing := rfl
@[simp] theorem State.raise_haltPending (s : State) (c : BitVec 8) : (s.raise c).haltPending = s.haltPending := rfl
@[simp] theorem State.raise_mem (s : State) (c : BitVec 8) : (s.raise c).mem = s.mem := rfl
@[simp] theorem State.raise_attnCause (s : State) (c : BitVec 8) : (s.raise c).attnCause = s.attnCause ||| c := rfl
@[simp] theorem State.raise_attnMask (s : State) (c : BitVec 8) : (s.raise c).attnMask = s.attnMask := rfl
@[simp] theorem State.raise_setup (s : State) (c : BitVec 8) : (s.raise c).setup = s.setup := rfl
@[simp] theorem State.raise_pins (s : State) (c : BitVec 8) : (s.raise c).pins = s.pins := rfl
@[simp] theorem State.raise_slots (s : State) (c : BitVec 8) : (s.raise c).slots = s.slots := rfl
@[simp] theorem State.raise_queue (s : State) (c : BitVec 8) : (s.raise c).queue = s.queue := rfl
@[simp] theorem State.raise_current (s : State) (c : BitVec 8) : (s.raise c).current = s.current := rfl
@[simp] theorem State.raise_slot (s : State) (c : BitVec 8) : (s.raise c).slot = s.slot := rfl
@[simp] theorem State.raise_cycleAt (s : State) (c : BitVec 8) : (s.raise c).cycleAt = s.cycleAt := rfl
@[simp] theorem State.raise_firing (s : State) (c : BitVec 8) : (s.raise c).firing = s.firing := rfl
@[simp] theorem State.raise_resumePending (s : State) (c : BitVec 8) : (s.raise c).resumePending = s.resumePending := rfl
@[simp] theorem State.raise_heads (s : State) (c : BitVec 8) : (s.raise c).heads = s.heads := rfl
@[simp] theorem State.raise_chans (s : State) (c : BitVec 8) : (s.raise c).chans = s.chans := rfl
@[simp] theorem State.raise_lastValid (s : State) (c : BitVec 8) : (s.raise c).lastValid = s.lastValid := rfl
@[simp] theorem State.raise_tracker (s : State) (c : BitVec 8) : (s.raise c).tracker = s.tracker := rfl
@[simp] theorem State.raise_presence (s : State) (c : BitVec 8) : (s.raise c).presence = s.presence := rfl
@[simp] theorem State.raise_link (s : State) (c : BitVec 8) : (s.raise c).link = s.link := rfl
@[simp] theorem State.raise_records (s : State) (c : BitVec 8) : (s.raise c).records = s.records := rfl
@[simp] theorem State.raise_serial (s : State) (c : BitVec 8) : (s.raise c).serial = s.serial := rfl
@[simp] theorem State.raise_nextSearch (s : State) (c : BitVec 8) : (s.raise c).nextSearch = s.nextSearch := rfl
@[simp] theorem State.raise_tubesCompleted (s : State) (c : BitVec 8) : (s.raise c).tubesCompleted = s.tubesCompleted := rfl
@[simp] theorem State.raise_tubesMissed (s : State) (c : BitVec 8) : (s.raise c).tubesMissed = s.tubesMissed := rfl
@[simp] theorem State.raise_tube (s : State) (c : BitVec 8) : (s.raise c).tube = s.tube := rfl
@[simp] theorem State.raise_pool (s : State) (c : BitVec 8) : (s.raise c).pool = s.pool := rfl
@[simp] theorem State.raise_now (s : State) (c : BitVec 8) : (s.raise c).now = s.now := rfl
@[simp] theorem State.raise_inputs (s : State) (c : BitVec 8) : (s.raise c).inputs = s.inputs := rfl
@[simp] theorem State.raise_pending (s : State) (c : BitVec 8) : (s.raise c).pending = s.pending := rfl

/-! ### `answerCmd`: a command answer -/

@[simp] theorem State.answerCmd_gauge (s : State) (v : Word) : (s.answerCmd v).gauge = s.gauge := rfl
@[simp] theorem State.answerCmd_resetActive (s : State) (v : Word) : (s.answerCmd v).resetActive = s.resetActive := rfl
@[simp] theorem State.answerCmd_clearing (s : State) (v : Word) : (s.answerCmd v).clearing = s.clearing := rfl
@[simp] theorem State.answerCmd_haltPending (s : State) (v : Word) : (s.answerCmd v).haltPending = s.haltPending := rfl
@[simp] theorem State.answerCmd_mem (s : State) (v : Word) : (s.answerCmd v).mem = memWrite s.mem (toWord stCommand) v := rfl
@[simp] theorem State.answerCmd_attnCause (s : State) (v : Word) : (s.answerCmd v).attnCause = s.attnCause := rfl
@[simp] theorem State.answerCmd_attnMask (s : State) (v : Word) : (s.answerCmd v).attnMask = s.attnMask := rfl
@[simp] theorem State.answerCmd_setup (s : State) (v : Word) : (s.answerCmd v).setup = s.setup := rfl
@[simp] theorem State.answerCmd_pins (s : State) (v : Word) : (s.answerCmd v).pins = s.pins := rfl
@[simp] theorem State.answerCmd_slots (s : State) (v : Word) : (s.answerCmd v).slots = s.slots := rfl
@[simp] theorem State.answerCmd_queue (s : State) (v : Word) : (s.answerCmd v).queue = s.queue := rfl
@[simp] theorem State.answerCmd_current (s : State) (v : Word) : (s.answerCmd v).current = s.current := rfl
@[simp] theorem State.answerCmd_slot (s : State) (v : Word) : (s.answerCmd v).slot = s.slot := rfl
@[simp] theorem State.answerCmd_cycleAt (s : State) (v : Word) : (s.answerCmd v).cycleAt = s.cycleAt := rfl
@[simp] theorem State.answerCmd_firing (s : State) (v : Word) : (s.answerCmd v).firing = s.firing := rfl
@[simp] theorem State.answerCmd_resumePending (s : State) (v : Word) : (s.answerCmd v).resumePending = s.resumePending := rfl
@[simp] theorem State.answerCmd_heads (s : State) (v : Word) : (s.answerCmd v).heads = s.heads := rfl
@[simp] theorem State.answerCmd_chans (s : State) (v : Word) : (s.answerCmd v).chans = s.chans := rfl
@[simp] theorem State.answerCmd_lastValid (s : State) (v : Word) : (s.answerCmd v).lastValid = s.lastValid := rfl
@[simp] theorem State.answerCmd_tracker (s : State) (v : Word) : (s.answerCmd v).tracker = s.tracker := rfl
@[simp] theorem State.answerCmd_presence (s : State) (v : Word) : (s.answerCmd v).presence = s.presence := rfl
@[simp] theorem State.answerCmd_link (s : State) (v : Word) : (s.answerCmd v).link = s.link := rfl
@[simp] theorem State.answerCmd_records (s : State) (v : Word) : (s.answerCmd v).records = s.records := rfl
@[simp] theorem State.answerCmd_serial (s : State) (v : Word) : (s.answerCmd v).serial = s.serial := rfl
@[simp] theorem State.answerCmd_nextSearch (s : State) (v : Word) : (s.answerCmd v).nextSearch = s.nextSearch := rfl
@[simp] theorem State.answerCmd_tubesCompleted (s : State) (v : Word) : (s.answerCmd v).tubesCompleted = s.tubesCompleted := rfl
@[simp] theorem State.answerCmd_tubesMissed (s : State) (v : Word) : (s.answerCmd v).tubesMissed = s.tubesMissed := rfl
@[simp] theorem State.answerCmd_tube (s : State) (v : Word) : (s.answerCmd v).tube = s.tube := rfl
@[simp] theorem State.answerCmd_pool (s : State) (v : Word) : (s.answerCmd v).pool = s.pool := rfl
@[simp] theorem State.answerCmd_now (s : State) (v : Word) : (s.answerCmd v).now = s.now := rfl
@[simp] theorem State.answerCmd_inputs (s : State) (v : Word) : (s.answerCmd v).inputs = s.inputs := rfl
@[simp] theorem State.answerCmd_pending (s : State) (v : Word) : (s.answerCmd v).pending = s.pending := rfl

/-! ### `setGauge`: a gauge transition -/

@[simp] theorem State.setGauge_gauge (s : State) (g : GaugeState) : (s.setGauge g).gauge = g := rfl
@[simp] theorem State.setGauge_resetActive (s : State) (g : GaugeState) : (s.setGauge g).resetActive = s.resetActive := rfl
@[simp] theorem State.setGauge_clearing (s : State) (g : GaugeState) : (s.setGauge g).clearing = s.clearing := rfl
@[simp] theorem State.setGauge_haltPending (s : State) (g : GaugeState) : (s.setGauge g).haltPending = s.haltPending := rfl
@[simp] theorem State.setGauge_mem (s : State) (g : GaugeState) : (s.setGauge g).mem = memWrite s.mem (toWord stGauge) (gaugeCode g) := rfl
@[simp] theorem State.setGauge_attnCause (s : State) (g : GaugeState) : (s.setGauge g).attnCause = s.attnCause := rfl
@[simp] theorem State.setGauge_attnMask (s : State) (g : GaugeState) : (s.setGauge g).attnMask = s.attnMask := rfl
@[simp] theorem State.setGauge_setup (s : State) (g : GaugeState) : (s.setGauge g).setup = s.setup := rfl
@[simp] theorem State.setGauge_pins (s : State) (g : GaugeState) : (s.setGauge g).pins = s.pins := rfl
@[simp] theorem State.setGauge_slots (s : State) (g : GaugeState) : (s.setGauge g).slots = s.slots := rfl
@[simp] theorem State.setGauge_queue (s : State) (g : GaugeState) : (s.setGauge g).queue = s.queue := rfl
@[simp] theorem State.setGauge_current (s : State) (g : GaugeState) : (s.setGauge g).current = s.current := rfl
@[simp] theorem State.setGauge_slot (s : State) (g : GaugeState) : (s.setGauge g).slot = s.slot := rfl
@[simp] theorem State.setGauge_cycleAt (s : State) (g : GaugeState) : (s.setGauge g).cycleAt = s.cycleAt := rfl
@[simp] theorem State.setGauge_firing (s : State) (g : GaugeState) : (s.setGauge g).firing = s.firing := rfl
@[simp] theorem State.setGauge_resumePending (s : State) (g : GaugeState) : (s.setGauge g).resumePending = s.resumePending := rfl
@[simp] theorem State.setGauge_heads (s : State) (g : GaugeState) : (s.setGauge g).heads = s.heads := rfl
@[simp] theorem State.setGauge_chans (s : State) (g : GaugeState) : (s.setGauge g).chans = s.chans := rfl
@[simp] theorem State.setGauge_lastValid (s : State) (g : GaugeState) : (s.setGauge g).lastValid = s.lastValid := rfl
@[simp] theorem State.setGauge_tracker (s : State) (g : GaugeState) : (s.setGauge g).tracker = s.tracker := rfl
@[simp] theorem State.setGauge_presence (s : State) (g : GaugeState) : (s.setGauge g).presence = s.presence := rfl
@[simp] theorem State.setGauge_link (s : State) (g : GaugeState) : (s.setGauge g).link = s.link := rfl
@[simp] theorem State.setGauge_records (s : State) (g : GaugeState) : (s.setGauge g).records = s.records := rfl
@[simp] theorem State.setGauge_serial (s : State) (g : GaugeState) : (s.setGauge g).serial = s.serial := rfl
@[simp] theorem State.setGauge_nextSearch (s : State) (g : GaugeState) : (s.setGauge g).nextSearch = s.nextSearch := rfl
@[simp] theorem State.setGauge_tubesCompleted (s : State) (g : GaugeState) : (s.setGauge g).tubesCompleted = s.tubesCompleted := rfl
@[simp] theorem State.setGauge_tubesMissed (s : State) (g : GaugeState) : (s.setGauge g).tubesMissed = s.tubesMissed := rfl
@[simp] theorem State.setGauge_tube (s : State) (g : GaugeState) : (s.setGauge g).tube = s.tube := rfl
@[simp] theorem State.setGauge_pool (s : State) (g : GaugeState) : (s.setGauge g).pool = s.pool := rfl
@[simp] theorem State.setGauge_now (s : State) (g : GaugeState) : (s.setGauge g).now = s.now := rfl
@[simp] theorem State.setGauge_inputs (s : State) (g : GaugeState) : (s.setGauge g).inputs = s.inputs := rfl
@[simp] theorem State.setGauge_pending (s : State) (g : GaugeState) : (s.setGauge g).pending = s.pending := rfl

/-! ### `setHeadState`: a head state -/

@[simp] theorem State.setHeadState_gauge (s : State) (k : Head) (h : HeadState) : (s.setHeadState k h).gauge = s.gauge := rfl
@[simp] theorem State.setHeadState_resetActive (s : State) (k : Head) (h : HeadState) : (s.setHeadState k h).resetActive = s.resetActive := rfl
@[simp] theorem State.setHeadState_clearing (s : State) (k : Head) (h : HeadState) : (s.setHeadState k h).clearing = s.clearing := rfl
@[simp] theorem State.setHeadState_haltPending (s : State) (k : Head) (h : HeadState) : (s.setHeadState k h).haltPending = s.haltPending := rfl
@[simp] theorem State.setHeadState_attnCause (s : State) (k : Head) (h : HeadState) : (s.setHeadState k h).attnCause = s.attnCause := rfl
@[simp] theorem State.setHeadState_attnMask (s : State) (k : Head) (h : HeadState) : (s.setHeadState k h).attnMask = s.attnMask := rfl
@[simp] theorem State.setHeadState_setup (s : State) (k : Head) (h : HeadState) : (s.setHeadState k h).setup = s.setup := rfl
@[simp] theorem State.setHeadState_pins (s : State) (k : Head) (h : HeadState) : (s.setHeadState k h).pins = s.pins := rfl
@[simp] theorem State.setHeadState_slots (s : State) (k : Head) (h : HeadState) : (s.setHeadState k h).slots = s.slots := rfl
@[simp] theorem State.setHeadState_queue (s : State) (k : Head) (h : HeadState) : (s.setHeadState k h).queue = s.queue := rfl
@[simp] theorem State.setHeadState_current (s : State) (k : Head) (h : HeadState) : (s.setHeadState k h).current = s.current := rfl
@[simp] theorem State.setHeadState_slot (s : State) (k : Head) (h : HeadState) : (s.setHeadState k h).slot = s.slot := rfl
@[simp] theorem State.setHeadState_cycleAt (s : State) (k : Head) (h : HeadState) : (s.setHeadState k h).cycleAt = s.cycleAt := rfl
@[simp] theorem State.setHeadState_firing (s : State) (k : Head) (h : HeadState) : (s.setHeadState k h).firing = s.firing := rfl
@[simp] theorem State.setHeadState_resumePending (s : State) (k : Head) (h : HeadState) : (s.setHeadState k h).resumePending = s.resumePending := rfl
@[simp] theorem State.setHeadState_heads (s : State) (k : Head) (h : HeadState) : (s.setHeadState k h).heads = vset s.heads k { s.heads[k] with state := h } := rfl
@[simp] theorem State.setHeadState_chans (s : State) (k : Head) (h : HeadState) : (s.setHeadState k h).chans = s.chans := rfl
@[simp] theorem State.setHeadState_lastValid (s : State) (k : Head) (h : HeadState) : (s.setHeadState k h).lastValid = s.lastValid := rfl
@[simp] theorem State.setHeadState_tracker (s : State) (k : Head) (h : HeadState) : (s.setHeadState k h).tracker = s.tracker := rfl
@[simp] theorem State.setHeadState_presence (s : State) (k : Head) (h : HeadState) : (s.setHeadState k h).presence = s.presence := rfl
@[simp] theorem State.setHeadState_link (s : State) (k : Head) (h : HeadState) : (s.setHeadState k h).link = s.link := rfl
@[simp] theorem State.setHeadState_records (s : State) (k : Head) (h : HeadState) : (s.setHeadState k h).records = s.records := rfl
@[simp] theorem State.setHeadState_serial (s : State) (k : Head) (h : HeadState) : (s.setHeadState k h).serial = s.serial := rfl
@[simp] theorem State.setHeadState_nextSearch (s : State) (k : Head) (h : HeadState) : (s.setHeadState k h).nextSearch = s.nextSearch := rfl
@[simp] theorem State.setHeadState_tubesCompleted (s : State) (k : Head) (h : HeadState) : (s.setHeadState k h).tubesCompleted = s.tubesCompleted := rfl
@[simp] theorem State.setHeadState_tubesMissed (s : State) (k : Head) (h : HeadState) : (s.setHeadState k h).tubesMissed = s.tubesMissed := rfl
@[simp] theorem State.setHeadState_tube (s : State) (k : Head) (h : HeadState) : (s.setHeadState k h).tube = s.tube := rfl
@[simp] theorem State.setHeadState_pool (s : State) (k : Head) (h : HeadState) : (s.setHeadState k h).pool = s.pool := rfl
@[simp] theorem State.setHeadState_now (s : State) (k : Head) (h : HeadState) : (s.setHeadState k h).now = s.now := rfl
@[simp] theorem State.setHeadState_inputs (s : State) (k : Head) (h : HeadState) : (s.setHeadState k h).inputs = s.inputs := rfl
@[simp] theorem State.setHeadState_pending (s : State) (k : Head) (h : HeadState) : (s.setHeadState k h).pending = s.pending := rfl

/-! ### `setMisfires`: a misfire count -/

@[simp] theorem State.setMisfires_gauge (s : State) (k : Head) (n : Nat) : (s.setMisfires k n).gauge = s.gauge := rfl
@[simp] theorem State.setMisfires_resetActive (s : State) (k : Head) (n : Nat) : (s.setMisfires k n).resetActive = s.resetActive := rfl
@[simp] theorem State.setMisfires_clearing (s : State) (k : Head) (n : Nat) : (s.setMisfires k n).clearing = s.clearing := rfl
@[simp] theorem State.setMisfires_haltPending (s : State) (k : Head) (n : Nat) : (s.setMisfires k n).haltPending = s.haltPending := rfl
@[simp] theorem State.setMisfires_attnCause (s : State) (k : Head) (n : Nat) : (s.setMisfires k n).attnCause = s.attnCause := rfl
@[simp] theorem State.setMisfires_attnMask (s : State) (k : Head) (n : Nat) : (s.setMisfires k n).attnMask = s.attnMask := rfl
@[simp] theorem State.setMisfires_setup (s : State) (k : Head) (n : Nat) : (s.setMisfires k n).setup = s.setup := rfl
@[simp] theorem State.setMisfires_pins (s : State) (k : Head) (n : Nat) : (s.setMisfires k n).pins = s.pins := rfl
@[simp] theorem State.setMisfires_slots (s : State) (k : Head) (n : Nat) : (s.setMisfires k n).slots = s.slots := rfl
@[simp] theorem State.setMisfires_queue (s : State) (k : Head) (n : Nat) : (s.setMisfires k n).queue = s.queue := rfl
@[simp] theorem State.setMisfires_current (s : State) (k : Head) (n : Nat) : (s.setMisfires k n).current = s.current := rfl
@[simp] theorem State.setMisfires_slot (s : State) (k : Head) (n : Nat) : (s.setMisfires k n).slot = s.slot := rfl
@[simp] theorem State.setMisfires_cycleAt (s : State) (k : Head) (n : Nat) : (s.setMisfires k n).cycleAt = s.cycleAt := rfl
@[simp] theorem State.setMisfires_firing (s : State) (k : Head) (n : Nat) : (s.setMisfires k n).firing = s.firing := rfl
@[simp] theorem State.setMisfires_resumePending (s : State) (k : Head) (n : Nat) : (s.setMisfires k n).resumePending = s.resumePending := rfl
@[simp] theorem State.setMisfires_heads (s : State) (k : Head) (n : Nat) : (s.setMisfires k n).heads = vset s.heads k { s.heads[k] with misfires := n } := rfl
@[simp] theorem State.setMisfires_chans (s : State) (k : Head) (n : Nat) : (s.setMisfires k n).chans = s.chans := rfl
@[simp] theorem State.setMisfires_lastValid (s : State) (k : Head) (n : Nat) : (s.setMisfires k n).lastValid = s.lastValid := rfl
@[simp] theorem State.setMisfires_tracker (s : State) (k : Head) (n : Nat) : (s.setMisfires k n).tracker = s.tracker := rfl
@[simp] theorem State.setMisfires_presence (s : State) (k : Head) (n : Nat) : (s.setMisfires k n).presence = s.presence := rfl
@[simp] theorem State.setMisfires_link (s : State) (k : Head) (n : Nat) : (s.setMisfires k n).link = s.link := rfl
@[simp] theorem State.setMisfires_records (s : State) (k : Head) (n : Nat) : (s.setMisfires k n).records = s.records := rfl
@[simp] theorem State.setMisfires_serial (s : State) (k : Head) (n : Nat) : (s.setMisfires k n).serial = s.serial := rfl
@[simp] theorem State.setMisfires_nextSearch (s : State) (k : Head) (n : Nat) : (s.setMisfires k n).nextSearch = s.nextSearch := rfl
@[simp] theorem State.setMisfires_tubesCompleted (s : State) (k : Head) (n : Nat) : (s.setMisfires k n).tubesCompleted = s.tubesCompleted := rfl
@[simp] theorem State.setMisfires_tubesMissed (s : State) (k : Head) (n : Nat) : (s.setMisfires k n).tubesMissed = s.tubesMissed := rfl
@[simp] theorem State.setMisfires_tube (s : State) (k : Head) (n : Nat) : (s.setMisfires k n).tube = s.tube := rfl
@[simp] theorem State.setMisfires_pool (s : State) (k : Head) (n : Nat) : (s.setMisfires k n).pool = s.pool := rfl
@[simp] theorem State.setMisfires_now (s : State) (k : Head) (n : Nat) : (s.setMisfires k n).now = s.now := rfl
@[simp] theorem State.setMisfires_inputs (s : State) (k : Head) (n : Nat) : (s.setMisfires k n).inputs = s.inputs := rfl
@[simp] theorem State.setMisfires_pending (s : State) (k : Head) (n : Nat) : (s.setMisfires k n).pending = s.pending := rfl

/-! ### `setStray`: a stray-confirm count -/

@[simp] theorem State.setStray_gauge (s : State) (k : Head) (n : Nat) : (s.setStray k n).gauge = s.gauge := rfl
@[simp] theorem State.setStray_resetActive (s : State) (k : Head) (n : Nat) : (s.setStray k n).resetActive = s.resetActive := rfl
@[simp] theorem State.setStray_clearing (s : State) (k : Head) (n : Nat) : (s.setStray k n).clearing = s.clearing := rfl
@[simp] theorem State.setStray_haltPending (s : State) (k : Head) (n : Nat) : (s.setStray k n).haltPending = s.haltPending := rfl
@[simp] theorem State.setStray_attnCause (s : State) (k : Head) (n : Nat) : (s.setStray k n).attnCause = s.attnCause := rfl
@[simp] theorem State.setStray_attnMask (s : State) (k : Head) (n : Nat) : (s.setStray k n).attnMask = s.attnMask := rfl
@[simp] theorem State.setStray_setup (s : State) (k : Head) (n : Nat) : (s.setStray k n).setup = s.setup := rfl
@[simp] theorem State.setStray_pins (s : State) (k : Head) (n : Nat) : (s.setStray k n).pins = s.pins := rfl
@[simp] theorem State.setStray_slots (s : State) (k : Head) (n : Nat) : (s.setStray k n).slots = s.slots := rfl
@[simp] theorem State.setStray_queue (s : State) (k : Head) (n : Nat) : (s.setStray k n).queue = s.queue := rfl
@[simp] theorem State.setStray_current (s : State) (k : Head) (n : Nat) : (s.setStray k n).current = s.current := rfl
@[simp] theorem State.setStray_slot (s : State) (k : Head) (n : Nat) : (s.setStray k n).slot = s.slot := rfl
@[simp] theorem State.setStray_cycleAt (s : State) (k : Head) (n : Nat) : (s.setStray k n).cycleAt = s.cycleAt := rfl
@[simp] theorem State.setStray_firing (s : State) (k : Head) (n : Nat) : (s.setStray k n).firing = s.firing := rfl
@[simp] theorem State.setStray_resumePending (s : State) (k : Head) (n : Nat) : (s.setStray k n).resumePending = s.resumePending := rfl
@[simp] theorem State.setStray_heads (s : State) (k : Head) (n : Nat) : (s.setStray k n).heads = vset s.heads k { s.heads[k] with stray := n } := rfl
@[simp] theorem State.setStray_chans (s : State) (k : Head) (n : Nat) : (s.setStray k n).chans = s.chans := rfl
@[simp] theorem State.setStray_lastValid (s : State) (k : Head) (n : Nat) : (s.setStray k n).lastValid = s.lastValid := rfl
@[simp] theorem State.setStray_tracker (s : State) (k : Head) (n : Nat) : (s.setStray k n).tracker = s.tracker := rfl
@[simp] theorem State.setStray_presence (s : State) (k : Head) (n : Nat) : (s.setStray k n).presence = s.presence := rfl
@[simp] theorem State.setStray_link (s : State) (k : Head) (n : Nat) : (s.setStray k n).link = s.link := rfl
@[simp] theorem State.setStray_records (s : State) (k : Head) (n : Nat) : (s.setStray k n).records = s.records := rfl
@[simp] theorem State.setStray_serial (s : State) (k : Head) (n : Nat) : (s.setStray k n).serial = s.serial := rfl
@[simp] theorem State.setStray_nextSearch (s : State) (k : Head) (n : Nat) : (s.setStray k n).nextSearch = s.nextSearch := rfl
@[simp] theorem State.setStray_tubesCompleted (s : State) (k : Head) (n : Nat) : (s.setStray k n).tubesCompleted = s.tubesCompleted := rfl
@[simp] theorem State.setStray_tubesMissed (s : State) (k : Head) (n : Nat) : (s.setStray k n).tubesMissed = s.tubesMissed := rfl
@[simp] theorem State.setStray_tube (s : State) (k : Head) (n : Nat) : (s.setStray k n).tube = s.tube := rfl
@[simp] theorem State.setStray_pool (s : State) (k : Head) (n : Nat) : (s.setStray k n).pool = s.pool := rfl
@[simp] theorem State.setStray_now (s : State) (k : Head) (n : Nat) : (s.setStray k n).now = s.now := rfl
@[simp] theorem State.setStray_inputs (s : State) (k : Head) (n : Nat) : (s.setStray k n).inputs = s.inputs := rfl
@[simp] theorem State.setStray_pending (s : State) (k : Head) (n : Nat) : (s.setStray k n).pending = s.pending := rfl

/-! ### `pulse`: a FIRE pulse -/

@[simp] theorem State.pulse_gauge (s : State) (k : Head) : (s.pulse k).gauge = s.gauge := rfl
@[simp] theorem State.pulse_resetActive (s : State) (k : Head) : (s.pulse k).resetActive = s.resetActive := rfl
@[simp] theorem State.pulse_clearing (s : State) (k : Head) : (s.pulse k).clearing = s.clearing := rfl
@[simp] theorem State.pulse_haltPending (s : State) (k : Head) : (s.pulse k).haltPending = s.haltPending := rfl
@[simp] theorem State.pulse_mem (s : State) (k : Head) : (s.pulse k).mem = s.mem := rfl
@[simp] theorem State.pulse_attnCause (s : State) (k : Head) : (s.pulse k).attnCause = s.attnCause := rfl
@[simp] theorem State.pulse_attnMask (s : State) (k : Head) : (s.pulse k).attnMask = s.attnMask := rfl
@[simp] theorem State.pulse_setup (s : State) (k : Head) : (s.pulse k).setup = s.setup := rfl
@[simp] theorem State.pulse_pins (s : State) (k : Head) : (s.pulse k).pins = s.pins := rfl
@[simp] theorem State.pulse_slots (s : State) (k : Head) : (s.pulse k).slots = s.slots := rfl
@[simp] theorem State.pulse_queue (s : State) (k : Head) : (s.pulse k).queue = s.queue := rfl
@[simp] theorem State.pulse_current (s : State) (k : Head) : (s.pulse k).current = s.current := rfl
@[simp] theorem State.pulse_slot (s : State) (k : Head) : (s.pulse k).slot = s.slot := rfl
@[simp] theorem State.pulse_cycleAt (s : State) (k : Head) : (s.pulse k).cycleAt = s.cycleAt := rfl
@[simp] theorem State.pulse_firing (s : State) (k : Head) : (s.pulse k).firing = s.firing := rfl
@[simp] theorem State.pulse_resumePending (s : State) (k : Head) : (s.pulse k).resumePending = s.resumePending := rfl
@[simp] theorem State.pulse_heads (s : State) (k : Head) : (s.pulse k).heads = vset s.heads k { s.heads[k] with fires := s.heads[k].fires + 1 } := rfl
@[simp] theorem State.pulse_chans (s : State) (k : Head) : (s.pulse k).chans = s.chans := rfl
@[simp] theorem State.pulse_lastValid (s : State) (k : Head) : (s.pulse k).lastValid = s.lastValid := rfl
@[simp] theorem State.pulse_tracker (s : State) (k : Head) : (s.pulse k).tracker = s.tracker := rfl
@[simp] theorem State.pulse_presence (s : State) (k : Head) : (s.pulse k).presence = s.presence := rfl
@[simp] theorem State.pulse_link (s : State) (k : Head) : (s.pulse k).link = s.link := rfl
@[simp] theorem State.pulse_records (s : State) (k : Head) : (s.pulse k).records = s.records := rfl
@[simp] theorem State.pulse_serial (s : State) (k : Head) : (s.pulse k).serial = s.serial := rfl
@[simp] theorem State.pulse_nextSearch (s : State) (k : Head) : (s.pulse k).nextSearch = s.nextSearch := rfl
@[simp] theorem State.pulse_tubesCompleted (s : State) (k : Head) : (s.pulse k).tubesCompleted = s.tubesCompleted := rfl
@[simp] theorem State.pulse_tubesMissed (s : State) (k : Head) : (s.pulse k).tubesMissed = s.tubesMissed := rfl
@[simp] theorem State.pulse_tube (s : State) (k : Head) : (s.pulse k).tube = s.tube := rfl
@[simp] theorem State.pulse_pool (s : State) (k : Head) : (s.pulse k).pool = s.pool := rfl
@[simp] theorem State.pulse_now (s : State) (k : Head) : (s.pulse k).now = s.now := rfl
@[simp] theorem State.pulse_inputs (s : State) (k : Head) : (s.pulse k).inputs = s.inputs := rfl
@[simp] theorem State.pulse_pending (s : State) (k : Head) : (s.pulse k).pending = s.pending := rfl

/-! ### `setGain`: a gain code -/

@[simp] theorem State.setGain_gauge (s : State) (k : Head) (g : Nat) : (s.setGain k g).gauge = s.gauge := rfl
@[simp] theorem State.setGain_resetActive (s : State) (k : Head) (g : Nat) : (s.setGain k g).resetActive = s.resetActive := rfl
@[simp] theorem State.setGain_clearing (s : State) (k : Head) (g : Nat) : (s.setGain k g).clearing = s.clearing := rfl
@[simp] theorem State.setGain_haltPending (s : State) (k : Head) (g : Nat) : (s.setGain k g).haltPending = s.haltPending := rfl
@[simp] theorem State.setGain_attnCause (s : State) (k : Head) (g : Nat) : (s.setGain k g).attnCause = s.attnCause := rfl
@[simp] theorem State.setGain_attnMask (s : State) (k : Head) (g : Nat) : (s.setGain k g).attnMask = s.attnMask := rfl
@[simp] theorem State.setGain_setup (s : State) (k : Head) (g : Nat) : (s.setGain k g).setup = s.setup := rfl
@[simp] theorem State.setGain_pins (s : State) (k : Head) (g : Nat) : (s.setGain k g).pins = s.pins := rfl
@[simp] theorem State.setGain_slots (s : State) (k : Head) (g : Nat) : (s.setGain k g).slots = s.slots := rfl
@[simp] theorem State.setGain_queue (s : State) (k : Head) (g : Nat) : (s.setGain k g).queue = s.queue := rfl
@[simp] theorem State.setGain_current (s : State) (k : Head) (g : Nat) : (s.setGain k g).current = s.current := rfl
@[simp] theorem State.setGain_slot (s : State) (k : Head) (g : Nat) : (s.setGain k g).slot = s.slot := rfl
@[simp] theorem State.setGain_cycleAt (s : State) (k : Head) (g : Nat) : (s.setGain k g).cycleAt = s.cycleAt := rfl
@[simp] theorem State.setGain_firing (s : State) (k : Head) (g : Nat) : (s.setGain k g).firing = s.firing := rfl
@[simp] theorem State.setGain_resumePending (s : State) (k : Head) (g : Nat) : (s.setGain k g).resumePending = s.resumePending := rfl
@[simp] theorem State.setGain_heads (s : State) (k : Head) (g : Nat) : (s.setGain k g).heads = s.heads := rfl
@[simp] theorem State.setGain_chans (s : State) (k : Head) (g : Nat) : (s.setGain k g).chans = vset s.chans k { s.chans[k] with gain := g } := rfl
@[simp] theorem State.setGain_lastValid (s : State) (k : Head) (g : Nat) : (s.setGain k g).lastValid = s.lastValid := rfl
@[simp] theorem State.setGain_tracker (s : State) (k : Head) (g : Nat) : (s.setGain k g).tracker = s.tracker := rfl
@[simp] theorem State.setGain_presence (s : State) (k : Head) (g : Nat) : (s.setGain k g).presence = s.presence := rfl
@[simp] theorem State.setGain_link (s : State) (k : Head) (g : Nat) : (s.setGain k g).link = s.link := rfl
@[simp] theorem State.setGain_records (s : State) (k : Head) (g : Nat) : (s.setGain k g).records = s.records := rfl
@[simp] theorem State.setGain_serial (s : State) (k : Head) (g : Nat) : (s.setGain k g).serial = s.serial := rfl
@[simp] theorem State.setGain_nextSearch (s : State) (k : Head) (g : Nat) : (s.setGain k g).nextSearch = s.nextSearch := rfl
@[simp] theorem State.setGain_tubesCompleted (s : State) (k : Head) (g : Nat) : (s.setGain k g).tubesCompleted = s.tubesCompleted := rfl
@[simp] theorem State.setGain_tubesMissed (s : State) (k : Head) (g : Nat) : (s.setGain k g).tubesMissed = s.tubesMissed := rfl
@[simp] theorem State.setGain_tube (s : State) (k : Head) (g : Nat) : (s.setGain k g).tube = s.tube := rfl
@[simp] theorem State.setGain_pool (s : State) (k : Head) (g : Nat) : (s.setGain k g).pool = s.pool := rfl
@[simp] theorem State.setGain_now (s : State) (k : Head) (g : Nat) : (s.setGain k g).now = s.now := rfl
@[simp] theorem State.setGain_inputs (s : State) (k : Head) (g : Nat) : (s.setGain k g).inputs = s.inputs := rfl
@[simp] theorem State.setGain_pending (s : State) (k : Head) (g : Nat) : (s.setGain k g).pending = s.pending := rfl

/-! ### `setDac`: a DAC code -/

@[simp] theorem State.setDac_gauge (s : State) (k : Head) (c : Nat) : (s.setDac k c).gauge = s.gauge := rfl
@[simp] theorem State.setDac_resetActive (s : State) (k : Head) (c : Nat) : (s.setDac k c).resetActive = s.resetActive := rfl
@[simp] theorem State.setDac_clearing (s : State) (k : Head) (c : Nat) : (s.setDac k c).clearing = s.clearing := rfl
@[simp] theorem State.setDac_haltPending (s : State) (k : Head) (c : Nat) : (s.setDac k c).haltPending = s.haltPending := rfl
@[simp] theorem State.setDac_mem (s : State) (k : Head) (c : Nat) : (s.setDac k c).mem = s.mem := rfl
@[simp] theorem State.setDac_attnCause (s : State) (k : Head) (c : Nat) : (s.setDac k c).attnCause = s.attnCause := rfl
@[simp] theorem State.setDac_attnMask (s : State) (k : Head) (c : Nat) : (s.setDac k c).attnMask = s.attnMask := rfl
@[simp] theorem State.setDac_setup (s : State) (k : Head) (c : Nat) : (s.setDac k c).setup = s.setup := rfl
@[simp] theorem State.setDac_pins (s : State) (k : Head) (c : Nat) : (s.setDac k c).pins = s.pins := rfl
@[simp] theorem State.setDac_slots (s : State) (k : Head) (c : Nat) : (s.setDac k c).slots = s.slots := rfl
@[simp] theorem State.setDac_queue (s : State) (k : Head) (c : Nat) : (s.setDac k c).queue = s.queue := rfl
@[simp] theorem State.setDac_current (s : State) (k : Head) (c : Nat) : (s.setDac k c).current = s.current := rfl
@[simp] theorem State.setDac_slot (s : State) (k : Head) (c : Nat) : (s.setDac k c).slot = s.slot := rfl
@[simp] theorem State.setDac_cycleAt (s : State) (k : Head) (c : Nat) : (s.setDac k c).cycleAt = s.cycleAt := rfl
@[simp] theorem State.setDac_firing (s : State) (k : Head) (c : Nat) : (s.setDac k c).firing = s.firing := rfl
@[simp] theorem State.setDac_resumePending (s : State) (k : Head) (c : Nat) : (s.setDac k c).resumePending = s.resumePending := rfl
@[simp] theorem State.setDac_heads (s : State) (k : Head) (c : Nat) : (s.setDac k c).heads = s.heads := rfl
@[simp] theorem State.setDac_chans (s : State) (k : Head) (c : Nat) : (s.setDac k c).chans = vset s.chans k { s.chans[k] with dac := c } := rfl
@[simp] theorem State.setDac_lastValid (s : State) (k : Head) (c : Nat) : (s.setDac k c).lastValid = s.lastValid := rfl
@[simp] theorem State.setDac_tracker (s : State) (k : Head) (c : Nat) : (s.setDac k c).tracker = s.tracker := rfl
@[simp] theorem State.setDac_presence (s : State) (k : Head) (c : Nat) : (s.setDac k c).presence = s.presence := rfl
@[simp] theorem State.setDac_link (s : State) (k : Head) (c : Nat) : (s.setDac k c).link = s.link := rfl
@[simp] theorem State.setDac_records (s : State) (k : Head) (c : Nat) : (s.setDac k c).records = s.records := rfl
@[simp] theorem State.setDac_serial (s : State) (k : Head) (c : Nat) : (s.setDac k c).serial = s.serial := rfl
@[simp] theorem State.setDac_nextSearch (s : State) (k : Head) (c : Nat) : (s.setDac k c).nextSearch = s.nextSearch := rfl
@[simp] theorem State.setDac_tubesCompleted (s : State) (k : Head) (c : Nat) : (s.setDac k c).tubesCompleted = s.tubesCompleted := rfl
@[simp] theorem State.setDac_tubesMissed (s : State) (k : Head) (c : Nat) : (s.setDac k c).tubesMissed = s.tubesMissed := rfl
@[simp] theorem State.setDac_tube (s : State) (k : Head) (c : Nat) : (s.setDac k c).tube = s.tube := rfl
@[simp] theorem State.setDac_pool (s : State) (k : Head) (c : Nat) : (s.setDac k c).pool = s.pool := rfl
@[simp] theorem State.setDac_now (s : State) (k : Head) (c : Nat) : (s.setDac k c).now = s.now := rfl
@[simp] theorem State.setDac_inputs (s : State) (k : Head) (c : Nat) : (s.setDac k c).inputs = s.inputs := rfl
@[simp] theorem State.setDac_pending (s : State) (k : Head) (c : Nat) : (s.setDac k c).pending = s.pending := rfl

/-! ### `setPolarity`: a capture polarity -/

@[simp] theorem State.setPolarity_gauge (s : State) (k : Head) (p : Polarity) : (s.setPolarity k p).gauge = s.gauge := rfl
@[simp] theorem State.setPolarity_resetActive (s : State) (k : Head) (p : Polarity) : (s.setPolarity k p).resetActive = s.resetActive := rfl
@[simp] theorem State.setPolarity_clearing (s : State) (k : Head) (p : Polarity) : (s.setPolarity k p).clearing = s.clearing := rfl
@[simp] theorem State.setPolarity_haltPending (s : State) (k : Head) (p : Polarity) : (s.setPolarity k p).haltPending = s.haltPending := rfl
@[simp] theorem State.setPolarity_mem (s : State) (k : Head) (p : Polarity) : (s.setPolarity k p).mem = s.mem := rfl
@[simp] theorem State.setPolarity_attnCause (s : State) (k : Head) (p : Polarity) : (s.setPolarity k p).attnCause = s.attnCause := rfl
@[simp] theorem State.setPolarity_attnMask (s : State) (k : Head) (p : Polarity) : (s.setPolarity k p).attnMask = s.attnMask := rfl
@[simp] theorem State.setPolarity_setup (s : State) (k : Head) (p : Polarity) : (s.setPolarity k p).setup = s.setup := rfl
@[simp] theorem State.setPolarity_pins (s : State) (k : Head) (p : Polarity) : (s.setPolarity k p).pins = s.pins := rfl
@[simp] theorem State.setPolarity_slots (s : State) (k : Head) (p : Polarity) : (s.setPolarity k p).slots = s.slots := rfl
@[simp] theorem State.setPolarity_queue (s : State) (k : Head) (p : Polarity) : (s.setPolarity k p).queue = s.queue := rfl
@[simp] theorem State.setPolarity_current (s : State) (k : Head) (p : Polarity) : (s.setPolarity k p).current = s.current := rfl
@[simp] theorem State.setPolarity_slot (s : State) (k : Head) (p : Polarity) : (s.setPolarity k p).slot = s.slot := rfl
@[simp] theorem State.setPolarity_cycleAt (s : State) (k : Head) (p : Polarity) : (s.setPolarity k p).cycleAt = s.cycleAt := rfl
@[simp] theorem State.setPolarity_firing (s : State) (k : Head) (p : Polarity) : (s.setPolarity k p).firing = s.firing := rfl
@[simp] theorem State.setPolarity_resumePending (s : State) (k : Head) (p : Polarity) : (s.setPolarity k p).resumePending = s.resumePending := rfl
@[simp] theorem State.setPolarity_heads (s : State) (k : Head) (p : Polarity) : (s.setPolarity k p).heads = s.heads := rfl
@[simp] theorem State.setPolarity_chans (s : State) (k : Head) (p : Polarity) : (s.setPolarity k p).chans = vset s.chans k { s.chans[k] with polarity := p } := rfl
@[simp] theorem State.setPolarity_lastValid (s : State) (k : Head) (p : Polarity) : (s.setPolarity k p).lastValid = s.lastValid := rfl
@[simp] theorem State.setPolarity_tracker (s : State) (k : Head) (p : Polarity) : (s.setPolarity k p).tracker = s.tracker := rfl
@[simp] theorem State.setPolarity_presence (s : State) (k : Head) (p : Polarity) : (s.setPolarity k p).presence = s.presence := rfl
@[simp] theorem State.setPolarity_link (s : State) (k : Head) (p : Polarity) : (s.setPolarity k p).link = s.link := rfl
@[simp] theorem State.setPolarity_records (s : State) (k : Head) (p : Polarity) : (s.setPolarity k p).records = s.records := rfl
@[simp] theorem State.setPolarity_serial (s : State) (k : Head) (p : Polarity) : (s.setPolarity k p).serial = s.serial := rfl
@[simp] theorem State.setPolarity_nextSearch (s : State) (k : Head) (p : Polarity) : (s.setPolarity k p).nextSearch = s.nextSearch := rfl
@[simp] theorem State.setPolarity_tubesCompleted (s : State) (k : Head) (p : Polarity) : (s.setPolarity k p).tubesCompleted = s.tubesCompleted := rfl
@[simp] theorem State.setPolarity_tubesMissed (s : State) (k : Head) (p : Polarity) : (s.setPolarity k p).tubesMissed = s.tubesMissed := rfl
@[simp] theorem State.setPolarity_tube (s : State) (k : Head) (p : Polarity) : (s.setPolarity k p).tube = s.tube := rfl
@[simp] theorem State.setPolarity_pool (s : State) (k : Head) (p : Polarity) : (s.setPolarity k p).pool = s.pool := rfl
@[simp] theorem State.setPolarity_now (s : State) (k : Head) (p : Polarity) : (s.setPolarity k p).now = s.now := rfl
@[simp] theorem State.setPolarity_inputs (s : State) (k : Head) (p : Polarity) : (s.setPolarity k p).inputs = s.inputs := rfl
@[simp] theorem State.setPolarity_pending (s : State) (k : Head) (p : Polarity) : (s.setPolarity k p).pending = s.pending := rfl

/-! ### `setFiring`: the firing state -/

@[simp] theorem State.setFiring_gauge (s : State) (f : FiringState) : (s.setFiring f).gauge = s.gauge := rfl
@[simp] theorem State.setFiring_resetActive (s : State) (f : FiringState) : (s.setFiring f).resetActive = s.resetActive := rfl
@[simp] theorem State.setFiring_clearing (s : State) (f : FiringState) : (s.setFiring f).clearing = s.clearing := rfl
@[simp] theorem State.setFiring_haltPending (s : State) (f : FiringState) : (s.setFiring f).haltPending = s.haltPending := rfl
@[simp] theorem State.setFiring_attnCause (s : State) (f : FiringState) : (s.setFiring f).attnCause = s.attnCause := rfl
@[simp] theorem State.setFiring_attnMask (s : State) (f : FiringState) : (s.setFiring f).attnMask = s.attnMask := rfl
@[simp] theorem State.setFiring_setup (s : State) (f : FiringState) : (s.setFiring f).setup = s.setup := rfl
@[simp] theorem State.setFiring_pins (s : State) (f : FiringState) : (s.setFiring f).pins = s.pins := rfl
@[simp] theorem State.setFiring_slots (s : State) (f : FiringState) : (s.setFiring f).slots = s.slots := rfl
@[simp] theorem State.setFiring_queue (s : State) (f : FiringState) : (s.setFiring f).queue = s.queue := rfl
@[simp] theorem State.setFiring_current (s : State) (f : FiringState) : (s.setFiring f).current = s.current := rfl
@[simp] theorem State.setFiring_slot (s : State) (f : FiringState) : (s.setFiring f).slot = s.slot := rfl
@[simp] theorem State.setFiring_cycleAt (s : State) (f : FiringState) : (s.setFiring f).cycleAt = s.cycleAt := rfl
@[simp] theorem State.setFiring_firing (s : State) (f : FiringState) : (s.setFiring f).firing = f := rfl
@[simp] theorem State.setFiring_resumePending (s : State) (f : FiringState) : (s.setFiring f).resumePending = s.resumePending := rfl
@[simp] theorem State.setFiring_heads (s : State) (f : FiringState) : (s.setFiring f).heads = s.heads := rfl
@[simp] theorem State.setFiring_chans (s : State) (f : FiringState) : (s.setFiring f).chans = s.chans := rfl
@[simp] theorem State.setFiring_lastValid (s : State) (f : FiringState) : (s.setFiring f).lastValid = s.lastValid := rfl
@[simp] theorem State.setFiring_tracker (s : State) (f : FiringState) : (s.setFiring f).tracker = s.tracker := rfl
@[simp] theorem State.setFiring_presence (s : State) (f : FiringState) : (s.setFiring f).presence = s.presence := rfl
@[simp] theorem State.setFiring_link (s : State) (f : FiringState) : (s.setFiring f).link = s.link := rfl
@[simp] theorem State.setFiring_records (s : State) (f : FiringState) : (s.setFiring f).records = s.records := rfl
@[simp] theorem State.setFiring_serial (s : State) (f : FiringState) : (s.setFiring f).serial = s.serial := rfl
@[simp] theorem State.setFiring_nextSearch (s : State) (f : FiringState) : (s.setFiring f).nextSearch = s.nextSearch := rfl
@[simp] theorem State.setFiring_tubesCompleted (s : State) (f : FiringState) : (s.setFiring f).tubesCompleted = s.tubesCompleted := rfl
@[simp] theorem State.setFiring_tubesMissed (s : State) (f : FiringState) : (s.setFiring f).tubesMissed = s.tubesMissed := rfl
@[simp] theorem State.setFiring_tube (s : State) (f : FiringState) : (s.setFiring f).tube = s.tube := rfl
@[simp] theorem State.setFiring_pool (s : State) (f : FiringState) : (s.setFiring f).pool = s.pool := rfl
@[simp] theorem State.setFiring_now (s : State) (f : FiringState) : (s.setFiring f).now = s.now := rfl
@[simp] theorem State.setFiring_inputs (s : State) (f : FiringState) : (s.setFiring f).inputs = s.inputs := rfl
@[simp] theorem State.setFiring_pending (s : State) (f : FiringState) : (s.setFiring f).pending = s.pending := rfl

/-! ### `setPhase`: a channel phase -/

@[simp] theorem State.setPhase_gauge (s : State) (p : Phase) : (s.setPhase p).gauge = s.gauge := rfl
@[simp] theorem State.setPhase_resetActive (s : State) (p : Phase) : (s.setPhase p).resetActive = s.resetActive := rfl
@[simp] theorem State.setPhase_clearing (s : State) (p : Phase) : (s.setPhase p).clearing = s.clearing := rfl
@[simp] theorem State.setPhase_haltPending (s : State) (p : Phase) : (s.setPhase p).haltPending = s.haltPending := rfl
@[simp] theorem State.setPhase_mem (s : State) (p : Phase) : (s.setPhase p).mem = s.mem := rfl
@[simp] theorem State.setPhase_attnCause (s : State) (p : Phase) : (s.setPhase p).attnCause = s.attnCause := rfl
@[simp] theorem State.setPhase_attnMask (s : State) (p : Phase) : (s.setPhase p).attnMask = s.attnMask := rfl
@[simp] theorem State.setPhase_setup (s : State) (p : Phase) : (s.setPhase p).setup = s.setup := rfl
@[simp] theorem State.setPhase_pins (s : State) (p : Phase) : (s.setPhase p).pins = s.pins := rfl
@[simp] theorem State.setPhase_slots (s : State) (p : Phase) : (s.setPhase p).slots = s.slots := rfl
@[simp] theorem State.setPhase_queue (s : State) (p : Phase) : (s.setPhase p).queue = s.queue := rfl
@[simp] theorem State.setPhase_current (s : State) (p : Phase) : (s.setPhase p).current = s.current := rfl
@[simp] theorem State.setPhase_slot (s : State) (p : Phase) : (s.setPhase p).slot = s.slot.map (fun h => { h with phase := p }) := rfl
@[simp] theorem State.setPhase_cycleAt (s : State) (p : Phase) : (s.setPhase p).cycleAt = s.cycleAt := rfl
@[simp] theorem State.setPhase_firing (s : State) (p : Phase) : (s.setPhase p).firing = s.firing := rfl
@[simp] theorem State.setPhase_resumePending (s : State) (p : Phase) : (s.setPhase p).resumePending = s.resumePending := rfl
@[simp] theorem State.setPhase_heads (s : State) (p : Phase) : (s.setPhase p).heads = s.heads := rfl
@[simp] theorem State.setPhase_chans (s : State) (p : Phase) : (s.setPhase p).chans = s.chans := rfl
@[simp] theorem State.setPhase_lastValid (s : State) (p : Phase) : (s.setPhase p).lastValid = s.lastValid := rfl
@[simp] theorem State.setPhase_tracker (s : State) (p : Phase) : (s.setPhase p).tracker = s.tracker := rfl
@[simp] theorem State.setPhase_presence (s : State) (p : Phase) : (s.setPhase p).presence = s.presence := rfl
@[simp] theorem State.setPhase_link (s : State) (p : Phase) : (s.setPhase p).link = s.link := rfl
@[simp] theorem State.setPhase_records (s : State) (p : Phase) : (s.setPhase p).records = s.records := rfl
@[simp] theorem State.setPhase_serial (s : State) (p : Phase) : (s.setPhase p).serial = s.serial := rfl
@[simp] theorem State.setPhase_nextSearch (s : State) (p : Phase) : (s.setPhase p).nextSearch = s.nextSearch := rfl
@[simp] theorem State.setPhase_tubesCompleted (s : State) (p : Phase) : (s.setPhase p).tubesCompleted = s.tubesCompleted := rfl
@[simp] theorem State.setPhase_tubesMissed (s : State) (p : Phase) : (s.setPhase p).tubesMissed = s.tubesMissed := rfl
@[simp] theorem State.setPhase_tube (s : State) (p : Phase) : (s.setPhase p).tube = s.tube := rfl
@[simp] theorem State.setPhase_pool (s : State) (p : Phase) : (s.setPhase p).pool = s.pool := rfl
@[simp] theorem State.setPhase_now (s : State) (p : Phase) : (s.setPhase p).now = s.now := rfl
@[simp] theorem State.setPhase_inputs (s : State) (p : Phase) : (s.setPhase p).inputs = s.inputs := rfl
@[simp] theorem State.setPhase_pending (s : State) (p : Phase) : (s.setPhase p).pending = s.pending := rfl

/-! ### `setTrack`: a tracking state -/

@[simp] theorem State.setTrack_gauge (s : State) (t : TrackState) : (s.setTrack t).gauge = s.gauge := rfl
@[simp] theorem State.setTrack_resetActive (s : State) (t : TrackState) : (s.setTrack t).resetActive = s.resetActive := rfl
@[simp] theorem State.setTrack_clearing (s : State) (t : TrackState) : (s.setTrack t).clearing = s.clearing := rfl
@[simp] theorem State.setTrack_haltPending (s : State) (t : TrackState) : (s.setTrack t).haltPending = s.haltPending := rfl
@[simp] theorem State.setTrack_attnCause (s : State) (t : TrackState) : (s.setTrack t).attnCause = s.attnCause := rfl
@[simp] theorem State.setTrack_attnMask (s : State) (t : TrackState) : (s.setTrack t).attnMask = s.attnMask := rfl
@[simp] theorem State.setTrack_setup (s : State) (t : TrackState) : (s.setTrack t).setup = s.setup := rfl
@[simp] theorem State.setTrack_pins (s : State) (t : TrackState) : (s.setTrack t).pins = s.pins := rfl
@[simp] theorem State.setTrack_slots (s : State) (t : TrackState) : (s.setTrack t).slots = s.slots := rfl
@[simp] theorem State.setTrack_queue (s : State) (t : TrackState) : (s.setTrack t).queue = s.queue := rfl
@[simp] theorem State.setTrack_current (s : State) (t : TrackState) : (s.setTrack t).current = s.current := rfl
@[simp] theorem State.setTrack_slot (s : State) (t : TrackState) : (s.setTrack t).slot = s.slot := rfl
@[simp] theorem State.setTrack_cycleAt (s : State) (t : TrackState) : (s.setTrack t).cycleAt = s.cycleAt := rfl
@[simp] theorem State.setTrack_firing (s : State) (t : TrackState) : (s.setTrack t).firing = s.firing := rfl
@[simp] theorem State.setTrack_resumePending (s : State) (t : TrackState) : (s.setTrack t).resumePending = s.resumePending := rfl
@[simp] theorem State.setTrack_heads (s : State) (t : TrackState) : (s.setTrack t).heads = s.heads := rfl
@[simp] theorem State.setTrack_chans (s : State) (t : TrackState) : (s.setTrack t).chans = s.chans := rfl
@[simp] theorem State.setTrack_lastValid (s : State) (t : TrackState) : (s.setTrack t).lastValid = s.lastValid := rfl
@[simp] theorem State.setTrack_tracker (s : State) (t : TrackState) : (s.setTrack t).tracker = { s.tracker with state := t } := rfl
@[simp] theorem State.setTrack_presence (s : State) (t : TrackState) : (s.setTrack t).presence = s.presence := rfl
@[simp] theorem State.setTrack_link (s : State) (t : TrackState) : (s.setTrack t).link = s.link := rfl
@[simp] theorem State.setTrack_records (s : State) (t : TrackState) : (s.setTrack t).records = s.records := rfl
@[simp] theorem State.setTrack_serial (s : State) (t : TrackState) : (s.setTrack t).serial = s.serial := rfl
@[simp] theorem State.setTrack_nextSearch (s : State) (t : TrackState) : (s.setTrack t).nextSearch = s.nextSearch := rfl
@[simp] theorem State.setTrack_tubesCompleted (s : State) (t : TrackState) : (s.setTrack t).tubesCompleted = s.tubesCompleted := rfl
@[simp] theorem State.setTrack_tubesMissed (s : State) (t : TrackState) : (s.setTrack t).tubesMissed = s.tubesMissed := rfl
@[simp] theorem State.setTrack_tube (s : State) (t : TrackState) : (s.setTrack t).tube = s.tube := rfl
@[simp] theorem State.setTrack_pool (s : State) (t : TrackState) : (s.setTrack t).pool = s.pool := rfl
@[simp] theorem State.setTrack_now (s : State) (t : TrackState) : (s.setTrack t).now = s.now := rfl
@[simp] theorem State.setTrack_inputs (s : State) (t : TrackState) : (s.setTrack t).inputs = s.inputs := rfl
@[simp] theorem State.setTrack_pending (s : State) (t : TrackState) : (s.setTrack t).pending = s.pending := rfl

/-! ### `setZ`: the position -/

@[simp] theorem State.setZ_gauge (s : State) (z : Nat) : (s.setZ z).gauge = s.gauge := rfl
@[simp] theorem State.setZ_resetActive (s : State) (z : Nat) : (s.setZ z).resetActive = s.resetActive := rfl
@[simp] theorem State.setZ_clearing (s : State) (z : Nat) : (s.setZ z).clearing = s.clearing := rfl
@[simp] theorem State.setZ_haltPending (s : State) (z : Nat) : (s.setZ z).haltPending = s.haltPending := rfl
@[simp] theorem State.setZ_attnCause (s : State) (z : Nat) : (s.setZ z).attnCause = s.attnCause := rfl
@[simp] theorem State.setZ_attnMask (s : State) (z : Nat) : (s.setZ z).attnMask = s.attnMask := rfl
@[simp] theorem State.setZ_setup (s : State) (z : Nat) : (s.setZ z).setup = s.setup := rfl
@[simp] theorem State.setZ_pins (s : State) (z : Nat) : (s.setZ z).pins = s.pins := rfl
@[simp] theorem State.setZ_slots (s : State) (z : Nat) : (s.setZ z).slots = s.slots := rfl
@[simp] theorem State.setZ_queue (s : State) (z : Nat) : (s.setZ z).queue = s.queue := rfl
@[simp] theorem State.setZ_current (s : State) (z : Nat) : (s.setZ z).current = s.current := rfl
@[simp] theorem State.setZ_slot (s : State) (z : Nat) : (s.setZ z).slot = s.slot := rfl
@[simp] theorem State.setZ_cycleAt (s : State) (z : Nat) : (s.setZ z).cycleAt = s.cycleAt := rfl
@[simp] theorem State.setZ_firing (s : State) (z : Nat) : (s.setZ z).firing = s.firing := rfl
@[simp] theorem State.setZ_resumePending (s : State) (z : Nat) : (s.setZ z).resumePending = s.resumePending := rfl
@[simp] theorem State.setZ_heads (s : State) (z : Nat) : (s.setZ z).heads = s.heads := rfl
@[simp] theorem State.setZ_chans (s : State) (z : Nat) : (s.setZ z).chans = s.chans := rfl
@[simp] theorem State.setZ_lastValid (s : State) (z : Nat) : (s.setZ z).lastValid = s.lastValid := rfl
@[simp] theorem State.setZ_tracker (s : State) (z : Nat) : (s.setZ z).tracker = { s.tracker with z := z } := rfl
@[simp] theorem State.setZ_presence (s : State) (z : Nat) : (s.setZ z).presence = s.presence := rfl
@[simp] theorem State.setZ_link (s : State) (z : Nat) : (s.setZ z).link = s.link := rfl
@[simp] theorem State.setZ_records (s : State) (z : Nat) : (s.setZ z).records = s.records := rfl
@[simp] theorem State.setZ_serial (s : State) (z : Nat) : (s.setZ z).serial = s.serial := rfl
@[simp] theorem State.setZ_nextSearch (s : State) (z : Nat) : (s.setZ z).nextSearch = s.nextSearch := rfl
@[simp] theorem State.setZ_tubesCompleted (s : State) (z : Nat) : (s.setZ z).tubesCompleted = s.tubesCompleted := rfl
@[simp] theorem State.setZ_tubesMissed (s : State) (z : Nat) : (s.setZ z).tubesMissed = s.tubesMissed := rfl
@[simp] theorem State.setZ_tube (s : State) (z : Nat) : (s.setZ z).tube = s.tube := rfl
@[simp] theorem State.setZ_pool (s : State) (z : Nat) : (s.setZ z).pool = s.pool := rfl
@[simp] theorem State.setZ_now (s : State) (z : Nat) : (s.setZ z).now = s.now := rfl
@[simp] theorem State.setZ_inputs (s : State) (z : Nat) : (s.setZ z).inputs = s.inputs := rfl
@[simp] theorem State.setZ_pending (s : State) (z : Nat) : (s.setZ z).pending = s.pending := rfl

/-! ### `setPLast`: the held period -/

@[simp] theorem State.setPLast_gauge (s : State) (p : Option Nat) : (s.setPLast p).gauge = s.gauge := rfl
@[simp] theorem State.setPLast_resetActive (s : State) (p : Option Nat) : (s.setPLast p).resetActive = s.resetActive := rfl
@[simp] theorem State.setPLast_clearing (s : State) (p : Option Nat) : (s.setPLast p).clearing = s.clearing := rfl
@[simp] theorem State.setPLast_haltPending (s : State) (p : Option Nat) : (s.setPLast p).haltPending = s.haltPending := rfl
@[simp] theorem State.setPLast_attnCause (s : State) (p : Option Nat) : (s.setPLast p).attnCause = s.attnCause := rfl
@[simp] theorem State.setPLast_attnMask (s : State) (p : Option Nat) : (s.setPLast p).attnMask = s.attnMask := rfl
@[simp] theorem State.setPLast_setup (s : State) (p : Option Nat) : (s.setPLast p).setup = s.setup := rfl
@[simp] theorem State.setPLast_pins (s : State) (p : Option Nat) : (s.setPLast p).pins = s.pins := rfl
@[simp] theorem State.setPLast_slots (s : State) (p : Option Nat) : (s.setPLast p).slots = s.slots := rfl
@[simp] theorem State.setPLast_queue (s : State) (p : Option Nat) : (s.setPLast p).queue = s.queue := rfl
@[simp] theorem State.setPLast_current (s : State) (p : Option Nat) : (s.setPLast p).current = s.current := rfl
@[simp] theorem State.setPLast_slot (s : State) (p : Option Nat) : (s.setPLast p).slot = s.slot := rfl
@[simp] theorem State.setPLast_cycleAt (s : State) (p : Option Nat) : (s.setPLast p).cycleAt = s.cycleAt := rfl
@[simp] theorem State.setPLast_firing (s : State) (p : Option Nat) : (s.setPLast p).firing = s.firing := rfl
@[simp] theorem State.setPLast_resumePending (s : State) (p : Option Nat) : (s.setPLast p).resumePending = s.resumePending := rfl
@[simp] theorem State.setPLast_heads (s : State) (p : Option Nat) : (s.setPLast p).heads = s.heads := rfl
@[simp] theorem State.setPLast_chans (s : State) (p : Option Nat) : (s.setPLast p).chans = s.chans := rfl
@[simp] theorem State.setPLast_lastValid (s : State) (p : Option Nat) : (s.setPLast p).lastValid = s.lastValid := rfl
@[simp] theorem State.setPLast_tracker (s : State) (p : Option Nat) : (s.setPLast p).tracker = { s.tracker with pLast := p } := rfl
@[simp] theorem State.setPLast_presence (s : State) (p : Option Nat) : (s.setPLast p).presence = s.presence := rfl
@[simp] theorem State.setPLast_link (s : State) (p : Option Nat) : (s.setPLast p).link = s.link := rfl
@[simp] theorem State.setPLast_records (s : State) (p : Option Nat) : (s.setPLast p).records = s.records := rfl
@[simp] theorem State.setPLast_serial (s : State) (p : Option Nat) : (s.setPLast p).serial = s.serial := rfl
@[simp] theorem State.setPLast_nextSearch (s : State) (p : Option Nat) : (s.setPLast p).nextSearch = s.nextSearch := rfl
@[simp] theorem State.setPLast_tubesCompleted (s : State) (p : Option Nat) : (s.setPLast p).tubesCompleted = s.tubesCompleted := rfl
@[simp] theorem State.setPLast_tubesMissed (s : State) (p : Option Nat) : (s.setPLast p).tubesMissed = s.tubesMissed := rfl
@[simp] theorem State.setPLast_tube (s : State) (p : Option Nat) : (s.setPLast p).tube = s.tube := rfl
@[simp] theorem State.setPLast_pool (s : State) (p : Option Nat) : (s.setPLast p).pool = s.pool := rfl
@[simp] theorem State.setPLast_now (s : State) (p : Option Nat) : (s.setPLast p).now = s.now := rfl
@[simp] theorem State.setPLast_inputs (s : State) (p : Option Nat) : (s.setPLast p).inputs = s.inputs := rfl
@[simp] theorem State.setPLast_pending (s : State) (p : Option Nat) : (s.setPLast p).pending = s.pending := rfl

/-! ### `modTube`: a change of the open tube -/

@[simp] theorem State.modTube_gauge (s : State) (f : Tube → Tube) : (s.modTube f).gauge = s.gauge := rfl
@[simp] theorem State.modTube_resetActive (s : State) (f : Tube → Tube) : (s.modTube f).resetActive = s.resetActive := rfl
@[simp] theorem State.modTube_clearing (s : State) (f : Tube → Tube) : (s.modTube f).clearing = s.clearing := rfl
@[simp] theorem State.modTube_haltPending (s : State) (f : Tube → Tube) : (s.modTube f).haltPending = s.haltPending := rfl
@[simp] theorem State.modTube_mem (s : State) (f : Tube → Tube) : (s.modTube f).mem = s.mem := rfl
@[simp] theorem State.modTube_attnCause (s : State) (f : Tube → Tube) : (s.modTube f).attnCause = s.attnCause := rfl
@[simp] theorem State.modTube_attnMask (s : State) (f : Tube → Tube) : (s.modTube f).attnMask = s.attnMask := rfl
@[simp] theorem State.modTube_setup (s : State) (f : Tube → Tube) : (s.modTube f).setup = s.setup := rfl
@[simp] theorem State.modTube_pins (s : State) (f : Tube → Tube) : (s.modTube f).pins = s.pins := rfl
@[simp] theorem State.modTube_slots (s : State) (f : Tube → Tube) : (s.modTube f).slots = s.slots := rfl
@[simp] theorem State.modTube_queue (s : State) (f : Tube → Tube) : (s.modTube f).queue = s.queue := rfl
@[simp] theorem State.modTube_current (s : State) (f : Tube → Tube) : (s.modTube f).current = s.current := rfl
@[simp] theorem State.modTube_slot (s : State) (f : Tube → Tube) : (s.modTube f).slot = s.slot := rfl
@[simp] theorem State.modTube_cycleAt (s : State) (f : Tube → Tube) : (s.modTube f).cycleAt = s.cycleAt := rfl
@[simp] theorem State.modTube_firing (s : State) (f : Tube → Tube) : (s.modTube f).firing = s.firing := rfl
@[simp] theorem State.modTube_resumePending (s : State) (f : Tube → Tube) : (s.modTube f).resumePending = s.resumePending := rfl
@[simp] theorem State.modTube_heads (s : State) (f : Tube → Tube) : (s.modTube f).heads = s.heads := rfl
@[simp] theorem State.modTube_chans (s : State) (f : Tube → Tube) : (s.modTube f).chans = s.chans := rfl
@[simp] theorem State.modTube_lastValid (s : State) (f : Tube → Tube) : (s.modTube f).lastValid = s.lastValid := rfl
@[simp] theorem State.modTube_tracker (s : State) (f : Tube → Tube) : (s.modTube f).tracker = s.tracker := rfl
@[simp] theorem State.modTube_presence (s : State) (f : Tube → Tube) : (s.modTube f).presence = s.presence := rfl
@[simp] theorem State.modTube_link (s : State) (f : Tube → Tube) : (s.modTube f).link = s.link := rfl
@[simp] theorem State.modTube_records (s : State) (f : Tube → Tube) : (s.modTube f).records = s.records := rfl
@[simp] theorem State.modTube_serial (s : State) (f : Tube → Tube) : (s.modTube f).serial = s.serial := rfl
@[simp] theorem State.modTube_nextSearch (s : State) (f : Tube → Tube) : (s.modTube f).nextSearch = s.nextSearch := rfl
@[simp] theorem State.modTube_tubesCompleted (s : State) (f : Tube → Tube) : (s.modTube f).tubesCompleted = s.tubesCompleted := rfl
@[simp] theorem State.modTube_tubesMissed (s : State) (f : Tube → Tube) : (s.modTube f).tubesMissed = s.tubesMissed := rfl
@[simp] theorem State.modTube_tube (s : State) (f : Tube → Tube) : (s.modTube f).tube = s.tube.map f := rfl
@[simp] theorem State.modTube_pool (s : State) (f : Tube → Tube) : (s.modTube f).pool = s.pool := rfl
@[simp] theorem State.modTube_now (s : State) (f : Tube → Tube) : (s.modTube f).now = s.now := rfl
@[simp] theorem State.modTube_inputs (s : State) (f : Tube → Tube) : (s.modTube f).inputs = s.inputs := rfl
@[simp] theorem State.modTube_pending (s : State) (f : Tube → Tube) : (s.modTube f).pending = s.pending := rfl

/-! ### `modOpen`: a change of an open tube with a record -/

@[simp] theorem State.modOpen_gauge (s : State) (f : Tube → Tube) : (s.modOpen f).gauge = s.gauge := rfl
@[simp] theorem State.modOpen_resetActive (s : State) (f : Tube → Tube) : (s.modOpen f).resetActive = s.resetActive := rfl
@[simp] theorem State.modOpen_clearing (s : State) (f : Tube → Tube) : (s.modOpen f).clearing = s.clearing := rfl
@[simp] theorem State.modOpen_haltPending (s : State) (f : Tube → Tube) : (s.modOpen f).haltPending = s.haltPending := rfl
@[simp] theorem State.modOpen_mem (s : State) (f : Tube → Tube) : (s.modOpen f).mem = s.mem := rfl
@[simp] theorem State.modOpen_attnCause (s : State) (f : Tube → Tube) : (s.modOpen f).attnCause = s.attnCause := rfl
@[simp] theorem State.modOpen_attnMask (s : State) (f : Tube → Tube) : (s.modOpen f).attnMask = s.attnMask := rfl
@[simp] theorem State.modOpen_setup (s : State) (f : Tube → Tube) : (s.modOpen f).setup = s.setup := rfl
@[simp] theorem State.modOpen_pins (s : State) (f : Tube → Tube) : (s.modOpen f).pins = s.pins := rfl
@[simp] theorem State.modOpen_slots (s : State) (f : Tube → Tube) : (s.modOpen f).slots = s.slots := rfl
@[simp] theorem State.modOpen_queue (s : State) (f : Tube → Tube) : (s.modOpen f).queue = s.queue := rfl
@[simp] theorem State.modOpen_current (s : State) (f : Tube → Tube) : (s.modOpen f).current = s.current := rfl
@[simp] theorem State.modOpen_slot (s : State) (f : Tube → Tube) : (s.modOpen f).slot = s.slot := rfl
@[simp] theorem State.modOpen_cycleAt (s : State) (f : Tube → Tube) : (s.modOpen f).cycleAt = s.cycleAt := rfl
@[simp] theorem State.modOpen_firing (s : State) (f : Tube → Tube) : (s.modOpen f).firing = s.firing := rfl
@[simp] theorem State.modOpen_resumePending (s : State) (f : Tube → Tube) : (s.modOpen f).resumePending = s.resumePending := rfl
@[simp] theorem State.modOpen_heads (s : State) (f : Tube → Tube) : (s.modOpen f).heads = s.heads := rfl
@[simp] theorem State.modOpen_chans (s : State) (f : Tube → Tube) : (s.modOpen f).chans = s.chans := rfl
@[simp] theorem State.modOpen_lastValid (s : State) (f : Tube → Tube) : (s.modOpen f).lastValid = s.lastValid := rfl
@[simp] theorem State.modOpen_tracker (s : State) (f : Tube → Tube) : (s.modOpen f).tracker = s.tracker := rfl
@[simp] theorem State.modOpen_presence (s : State) (f : Tube → Tube) : (s.modOpen f).presence = s.presence := rfl
@[simp] theorem State.modOpen_link (s : State) (f : Tube → Tube) : (s.modOpen f).link = s.link := rfl
@[simp] theorem State.modOpen_records (s : State) (f : Tube → Tube) : (s.modOpen f).records = s.records := rfl
@[simp] theorem State.modOpen_serial (s : State) (f : Tube → Tube) : (s.modOpen f).serial = s.serial := rfl
@[simp] theorem State.modOpen_nextSearch (s : State) (f : Tube → Tube) : (s.modOpen f).nextSearch = s.nextSearch := rfl
@[simp] theorem State.modOpen_tubesCompleted (s : State) (f : Tube → Tube) : (s.modOpen f).tubesCompleted = s.tubesCompleted := rfl
@[simp] theorem State.modOpen_tubesMissed (s : State) (f : Tube → Tube) : (s.modOpen f).tubesMissed = s.tubesMissed := rfl
@[simp] theorem State.modOpen_tube (s : State) (f : Tube → Tube) : (s.modOpen f).tube = s.tube.map (fun t => if t.record.isSome then f t else t) := rfl
@[simp] theorem State.modOpen_pool (s : State) (f : Tube → Tube) : (s.modOpen f).pool = s.pool := rfl
@[simp] theorem State.modOpen_now (s : State) (f : Tube → Tube) : (s.modOpen f).now = s.now := rfl
@[simp] theorem State.modOpen_inputs (s : State) (f : Tube → Tube) : (s.modOpen f).inputs = s.inputs := rfl
@[simp] theorem State.modOpen_pending (s : State) (f : Tube → Tube) : (s.modOpen f).pending = s.pending := rfl

/-! ### `giveFlag`: a tube flag -/

@[simp] theorem State.giveFlag_gauge (s : State) (f : Word) : (s.giveFlag f).gauge = s.gauge := rfl
@[simp] theorem State.giveFlag_resetActive (s : State) (f : Word) : (s.giveFlag f).resetActive = s.resetActive := rfl
@[simp] theorem State.giveFlag_clearing (s : State) (f : Word) : (s.giveFlag f).clearing = s.clearing := rfl
@[simp] theorem State.giveFlag_haltPending (s : State) (f : Word) : (s.giveFlag f).haltPending = s.haltPending := rfl
@[simp] theorem State.giveFlag_mem (s : State) (f : Word) : (s.giveFlag f).mem = s.mem := rfl
@[simp] theorem State.giveFlag_attnCause (s : State) (f : Word) : (s.giveFlag f).attnCause = s.attnCause := rfl
@[simp] theorem State.giveFlag_attnMask (s : State) (f : Word) : (s.giveFlag f).attnMask = s.attnMask := rfl
@[simp] theorem State.giveFlag_setup (s : State) (f : Word) : (s.giveFlag f).setup = s.setup := rfl
@[simp] theorem State.giveFlag_pins (s : State) (f : Word) : (s.giveFlag f).pins = s.pins := rfl
@[simp] theorem State.giveFlag_slots (s : State) (f : Word) : (s.giveFlag f).slots = s.slots := rfl
@[simp] theorem State.giveFlag_queue (s : State) (f : Word) : (s.giveFlag f).queue = s.queue := rfl
@[simp] theorem State.giveFlag_current (s : State) (f : Word) : (s.giveFlag f).current = s.current := rfl
@[simp] theorem State.giveFlag_slot (s : State) (f : Word) : (s.giveFlag f).slot = s.slot := rfl
@[simp] theorem State.giveFlag_cycleAt (s : State) (f : Word) : (s.giveFlag f).cycleAt = s.cycleAt := rfl
@[simp] theorem State.giveFlag_firing (s : State) (f : Word) : (s.giveFlag f).firing = s.firing := rfl
@[simp] theorem State.giveFlag_resumePending (s : State) (f : Word) : (s.giveFlag f).resumePending = s.resumePending := rfl
@[simp] theorem State.giveFlag_heads (s : State) (f : Word) : (s.giveFlag f).heads = s.heads := rfl
@[simp] theorem State.giveFlag_chans (s : State) (f : Word) : (s.giveFlag f).chans = s.chans := rfl
@[simp] theorem State.giveFlag_lastValid (s : State) (f : Word) : (s.giveFlag f).lastValid = s.lastValid := rfl
@[simp] theorem State.giveFlag_tracker (s : State) (f : Word) : (s.giveFlag f).tracker = s.tracker := rfl
@[simp] theorem State.giveFlag_presence (s : State) (f : Word) : (s.giveFlag f).presence = s.presence := rfl
@[simp] theorem State.giveFlag_link (s : State) (f : Word) : (s.giveFlag f).link = s.link := rfl
@[simp] theorem State.giveFlag_records (s : State) (f : Word) : (s.giveFlag f).records = s.records := rfl
@[simp] theorem State.giveFlag_serial (s : State) (f : Word) : (s.giveFlag f).serial = s.serial := rfl
@[simp] theorem State.giveFlag_nextSearch (s : State) (f : Word) : (s.giveFlag f).nextSearch = s.nextSearch := rfl
@[simp] theorem State.giveFlag_tubesCompleted (s : State) (f : Word) : (s.giveFlag f).tubesCompleted = s.tubesCompleted := rfl
@[simp] theorem State.giveFlag_tubesMissed (s : State) (f : Word) : (s.giveFlag f).tubesMissed = s.tubesMissed := rfl
@[simp] theorem State.giveFlag_tube (s : State) (f : Word) : (s.giveFlag f).tube = s.tube.map (fun t => if t.record.isSome then { t with flags := t.flags ||| f } else t) := rfl
@[simp] theorem State.giveFlag_pool (s : State) (f : Word) : (s.giveFlag f).pool = s.pool := rfl
@[simp] theorem State.giveFlag_now (s : State) (f : Word) : (s.giveFlag f).now = s.now := rfl
@[simp] theorem State.giveFlag_inputs (s : State) (f : Word) : (s.giveFlag f).inputs = s.inputs := rfl
@[simp] theorem State.giveFlag_pending (s : State) (f : Word) : (s.giveFlag f).pending = s.pending := rfl

/-! ### `addTotals`: a tube total -/

@[simp] theorem State.addTotals_gauge (s : State) (f : Totals → Totals) : (s.addTotals f).gauge = s.gauge := rfl
@[simp] theorem State.addTotals_resetActive (s : State) (f : Totals → Totals) : (s.addTotals f).resetActive = s.resetActive := rfl
@[simp] theorem State.addTotals_clearing (s : State) (f : Totals → Totals) : (s.addTotals f).clearing = s.clearing := rfl
@[simp] theorem State.addTotals_haltPending (s : State) (f : Totals → Totals) : (s.addTotals f).haltPending = s.haltPending := rfl
@[simp] theorem State.addTotals_mem (s : State) (f : Totals → Totals) : (s.addTotals f).mem = s.mem := rfl
@[simp] theorem State.addTotals_attnCause (s : State) (f : Totals → Totals) : (s.addTotals f).attnCause = s.attnCause := rfl
@[simp] theorem State.addTotals_attnMask (s : State) (f : Totals → Totals) : (s.addTotals f).attnMask = s.attnMask := rfl
@[simp] theorem State.addTotals_setup (s : State) (f : Totals → Totals) : (s.addTotals f).setup = s.setup := rfl
@[simp] theorem State.addTotals_pins (s : State) (f : Totals → Totals) : (s.addTotals f).pins = s.pins := rfl
@[simp] theorem State.addTotals_slots (s : State) (f : Totals → Totals) : (s.addTotals f).slots = s.slots := rfl
@[simp] theorem State.addTotals_queue (s : State) (f : Totals → Totals) : (s.addTotals f).queue = s.queue := rfl
@[simp] theorem State.addTotals_current (s : State) (f : Totals → Totals) : (s.addTotals f).current = s.current := rfl
@[simp] theorem State.addTotals_slot (s : State) (f : Totals → Totals) : (s.addTotals f).slot = s.slot := rfl
@[simp] theorem State.addTotals_cycleAt (s : State) (f : Totals → Totals) : (s.addTotals f).cycleAt = s.cycleAt := rfl
@[simp] theorem State.addTotals_firing (s : State) (f : Totals → Totals) : (s.addTotals f).firing = s.firing := rfl
@[simp] theorem State.addTotals_resumePending (s : State) (f : Totals → Totals) : (s.addTotals f).resumePending = s.resumePending := rfl
@[simp] theorem State.addTotals_heads (s : State) (f : Totals → Totals) : (s.addTotals f).heads = s.heads := rfl
@[simp] theorem State.addTotals_chans (s : State) (f : Totals → Totals) : (s.addTotals f).chans = s.chans := rfl
@[simp] theorem State.addTotals_lastValid (s : State) (f : Totals → Totals) : (s.addTotals f).lastValid = s.lastValid := rfl
@[simp] theorem State.addTotals_tracker (s : State) (f : Totals → Totals) : (s.addTotals f).tracker = s.tracker := rfl
@[simp] theorem State.addTotals_presence (s : State) (f : Totals → Totals) : (s.addTotals f).presence = s.presence := rfl
@[simp] theorem State.addTotals_link (s : State) (f : Totals → Totals) : (s.addTotals f).link = s.link := rfl
@[simp] theorem State.addTotals_records (s : State) (f : Totals → Totals) : (s.addTotals f).records = s.records := rfl
@[simp] theorem State.addTotals_serial (s : State) (f : Totals → Totals) : (s.addTotals f).serial = s.serial := rfl
@[simp] theorem State.addTotals_nextSearch (s : State) (f : Totals → Totals) : (s.addTotals f).nextSearch = s.nextSearch := rfl
@[simp] theorem State.addTotals_tubesCompleted (s : State) (f : Totals → Totals) : (s.addTotals f).tubesCompleted = s.tubesCompleted := rfl
@[simp] theorem State.addTotals_tubesMissed (s : State) (f : Totals → Totals) : (s.addTotals f).tubesMissed = s.tubesMissed := rfl
@[simp] theorem State.addTotals_tube (s : State) (f : Totals → Totals) : (s.addTotals f).tube = s.tube.map (fun t => if t.record.isSome then { t with totals := f t.totals } else t) := rfl
@[simp] theorem State.addTotals_pool (s : State) (f : Totals → Totals) : (s.addTotals f).pool = s.pool := rfl
@[simp] theorem State.addTotals_now (s : State) (f : Totals → Totals) : (s.addTotals f).now = s.now := rfl
@[simp] theorem State.addTotals_inputs (s : State) (f : Totals → Totals) : (s.addTotals f).inputs = s.inputs := rfl
@[simp] theorem State.addTotals_pending (s : State) (f : Totals → Totals) : (s.addTotals f).pending = s.pending := rfl

/-! ### `setSlot`: an order slot -/

@[simp] theorem State.setSlot_gauge (s : State) (j : SlotNo) (x : OrderSlot) : (s.setSlot j x).gauge = s.gauge := rfl
@[simp] theorem State.setSlot_resetActive (s : State) (j : SlotNo) (x : OrderSlot) : (s.setSlot j x).resetActive = s.resetActive := rfl
@[simp] theorem State.setSlot_clearing (s : State) (j : SlotNo) (x : OrderSlot) : (s.setSlot j x).clearing = s.clearing := rfl
@[simp] theorem State.setSlot_haltPending (s : State) (j : SlotNo) (x : OrderSlot) : (s.setSlot j x).haltPending = s.haltPending := rfl
@[simp] theorem State.setSlot_mem (s : State) (j : SlotNo) (x : OrderSlot) : (s.setSlot j x).mem = s.mem := rfl
@[simp] theorem State.setSlot_attnCause (s : State) (j : SlotNo) (x : OrderSlot) : (s.setSlot j x).attnCause = s.attnCause := rfl
@[simp] theorem State.setSlot_attnMask (s : State) (j : SlotNo) (x : OrderSlot) : (s.setSlot j x).attnMask = s.attnMask := rfl
@[simp] theorem State.setSlot_setup (s : State) (j : SlotNo) (x : OrderSlot) : (s.setSlot j x).setup = s.setup := rfl
@[simp] theorem State.setSlot_pins (s : State) (j : SlotNo) (x : OrderSlot) : (s.setSlot j x).pins = s.pins := rfl
@[simp] theorem State.setSlot_slots (s : State) (j : SlotNo) (x : OrderSlot) : (s.setSlot j x).slots = vset s.slots j x := rfl
@[simp] theorem State.setSlot_queue (s : State) (j : SlotNo) (x : OrderSlot) : (s.setSlot j x).queue = s.queue := rfl
@[simp] theorem State.setSlot_current (s : State) (j : SlotNo) (x : OrderSlot) : (s.setSlot j x).current = s.current := rfl
@[simp] theorem State.setSlot_slot (s : State) (j : SlotNo) (x : OrderSlot) : (s.setSlot j x).slot = s.slot := rfl
@[simp] theorem State.setSlot_cycleAt (s : State) (j : SlotNo) (x : OrderSlot) : (s.setSlot j x).cycleAt = s.cycleAt := rfl
@[simp] theorem State.setSlot_firing (s : State) (j : SlotNo) (x : OrderSlot) : (s.setSlot j x).firing = s.firing := rfl
@[simp] theorem State.setSlot_resumePending (s : State) (j : SlotNo) (x : OrderSlot) : (s.setSlot j x).resumePending = s.resumePending := rfl
@[simp] theorem State.setSlot_heads (s : State) (j : SlotNo) (x : OrderSlot) : (s.setSlot j x).heads = s.heads := rfl
@[simp] theorem State.setSlot_chans (s : State) (j : SlotNo) (x : OrderSlot) : (s.setSlot j x).chans = s.chans := rfl
@[simp] theorem State.setSlot_lastValid (s : State) (j : SlotNo) (x : OrderSlot) : (s.setSlot j x).lastValid = s.lastValid := rfl
@[simp] theorem State.setSlot_tracker (s : State) (j : SlotNo) (x : OrderSlot) : (s.setSlot j x).tracker = s.tracker := rfl
@[simp] theorem State.setSlot_presence (s : State) (j : SlotNo) (x : OrderSlot) : (s.setSlot j x).presence = s.presence := rfl
@[simp] theorem State.setSlot_link (s : State) (j : SlotNo) (x : OrderSlot) : (s.setSlot j x).link = s.link := rfl
@[simp] theorem State.setSlot_records (s : State) (j : SlotNo) (x : OrderSlot) : (s.setSlot j x).records = s.records := rfl
@[simp] theorem State.setSlot_serial (s : State) (j : SlotNo) (x : OrderSlot) : (s.setSlot j x).serial = s.serial := rfl
@[simp] theorem State.setSlot_nextSearch (s : State) (j : SlotNo) (x : OrderSlot) : (s.setSlot j x).nextSearch = s.nextSearch := rfl
@[simp] theorem State.setSlot_tubesCompleted (s : State) (j : SlotNo) (x : OrderSlot) : (s.setSlot j x).tubesCompleted = s.tubesCompleted := rfl
@[simp] theorem State.setSlot_tubesMissed (s : State) (j : SlotNo) (x : OrderSlot) : (s.setSlot j x).tubesMissed = s.tubesMissed := rfl
@[simp] theorem State.setSlot_tube (s : State) (j : SlotNo) (x : OrderSlot) : (s.setSlot j x).tube = s.tube := rfl
@[simp] theorem State.setSlot_pool (s : State) (j : SlotNo) (x : OrderSlot) : (s.setSlot j x).pool = s.pool := rfl
@[simp] theorem State.setSlot_now (s : State) (j : SlotNo) (x : OrderSlot) : (s.setSlot j x).now = s.now := rfl
@[simp] theorem State.setSlot_inputs (s : State) (j : SlotNo) (x : OrderSlot) : (s.setSlot j x).inputs = s.inputs := rfl
@[simp] theorem State.setSlot_pending (s : State) (j : SlotNo) (x : OrderSlot) : (s.setSlot j x).pending = s.pending := rfl

/-! ### `setRecState`: a record state -/

@[simp] theorem State.setRecState_gauge (s : State) (r : RecNo) (x : RecState) : (s.setRecState r x).gauge = s.gauge := rfl
@[simp] theorem State.setRecState_resetActive (s : State) (r : RecNo) (x : RecState) : (s.setRecState r x).resetActive = s.resetActive := rfl
@[simp] theorem State.setRecState_clearing (s : State) (r : RecNo) (x : RecState) : (s.setRecState r x).clearing = s.clearing := rfl
@[simp] theorem State.setRecState_haltPending (s : State) (r : RecNo) (x : RecState) : (s.setRecState r x).haltPending = s.haltPending := rfl
@[simp] theorem State.setRecState_mem (s : State) (r : RecNo) (x : RecState) : (s.setRecState r x).mem = memWrite s.mem (toWord (recAddr r 0)) (recCode x) := rfl
@[simp] theorem State.setRecState_attnCause (s : State) (r : RecNo) (x : RecState) : (s.setRecState r x).attnCause = s.attnCause := rfl
@[simp] theorem State.setRecState_attnMask (s : State) (r : RecNo) (x : RecState) : (s.setRecState r x).attnMask = s.attnMask := rfl
@[simp] theorem State.setRecState_setup (s : State) (r : RecNo) (x : RecState) : (s.setRecState r x).setup = s.setup := rfl
@[simp] theorem State.setRecState_pins (s : State) (r : RecNo) (x : RecState) : (s.setRecState r x).pins = s.pins := rfl
@[simp] theorem State.setRecState_slots (s : State) (r : RecNo) (x : RecState) : (s.setRecState r x).slots = s.slots := rfl
@[simp] theorem State.setRecState_queue (s : State) (r : RecNo) (x : RecState) : (s.setRecState r x).queue = s.queue := rfl
@[simp] theorem State.setRecState_current (s : State) (r : RecNo) (x : RecState) : (s.setRecState r x).current = s.current := rfl
@[simp] theorem State.setRecState_slot (s : State) (r : RecNo) (x : RecState) : (s.setRecState r x).slot = s.slot := rfl
@[simp] theorem State.setRecState_cycleAt (s : State) (r : RecNo) (x : RecState) : (s.setRecState r x).cycleAt = s.cycleAt := rfl
@[simp] theorem State.setRecState_firing (s : State) (r : RecNo) (x : RecState) : (s.setRecState r x).firing = s.firing := rfl
@[simp] theorem State.setRecState_resumePending (s : State) (r : RecNo) (x : RecState) : (s.setRecState r x).resumePending = s.resumePending := rfl
@[simp] theorem State.setRecState_heads (s : State) (r : RecNo) (x : RecState) : (s.setRecState r x).heads = s.heads := rfl
@[simp] theorem State.setRecState_chans (s : State) (r : RecNo) (x : RecState) : (s.setRecState r x).chans = s.chans := rfl
@[simp] theorem State.setRecState_lastValid (s : State) (r : RecNo) (x : RecState) : (s.setRecState r x).lastValid = s.lastValid := rfl
@[simp] theorem State.setRecState_tracker (s : State) (r : RecNo) (x : RecState) : (s.setRecState r x).tracker = s.tracker := rfl
@[simp] theorem State.setRecState_presence (s : State) (r : RecNo) (x : RecState) : (s.setRecState r x).presence = s.presence := rfl
@[simp] theorem State.setRecState_link (s : State) (r : RecNo) (x : RecState) : (s.setRecState r x).link = s.link := rfl
@[simp] theorem State.setRecState_records (s : State) (r : RecNo) (x : RecState) : (s.setRecState r x).records = vset s.records r x := rfl
@[simp] theorem State.setRecState_serial (s : State) (r : RecNo) (x : RecState) : (s.setRecState r x).serial = s.serial := rfl
@[simp] theorem State.setRecState_nextSearch (s : State) (r : RecNo) (x : RecState) : (s.setRecState r x).nextSearch = s.nextSearch := rfl
@[simp] theorem State.setRecState_tubesCompleted (s : State) (r : RecNo) (x : RecState) : (s.setRecState r x).tubesCompleted = s.tubesCompleted := rfl
@[simp] theorem State.setRecState_tubesMissed (s : State) (r : RecNo) (x : RecState) : (s.setRecState r x).tubesMissed = s.tubesMissed := rfl
@[simp] theorem State.setRecState_tube (s : State) (r : RecNo) (x : RecState) : (s.setRecState r x).tube = s.tube := rfl
@[simp] theorem State.setRecState_pool (s : State) (r : RecNo) (x : RecState) : (s.setRecState r x).pool = s.pool := rfl
@[simp] theorem State.setRecState_now (s : State) (r : RecNo) (x : RecState) : (s.setRecState r x).now = s.now := rfl
@[simp] theorem State.setRecState_inputs (s : State) (r : RecNo) (x : RecState) : (s.setRecState r x).inputs = s.inputs := rfl
@[simp] theorem State.setRecState_pending (s : State) (r : RecNo) (x : RecState) : (s.setRecState r x).pending = s.pending := rfl

/-! ### `modLink`: a change of the link -/

@[simp] theorem State.modLink_gauge (s : State) (f : Link → Link) : (s.modLink f).gauge = s.gauge := rfl
@[simp] theorem State.modLink_resetActive (s : State) (f : Link → Link) : (s.modLink f).resetActive = s.resetActive := rfl
@[simp] theorem State.modLink_clearing (s : State) (f : Link → Link) : (s.modLink f).clearing = s.clearing := rfl
@[simp] theorem State.modLink_haltPending (s : State) (f : Link → Link) : (s.modLink f).haltPending = s.haltPending := rfl
@[simp] theorem State.modLink_mem (s : State) (f : Link → Link) : (s.modLink f).mem = s.mem := rfl
@[simp] theorem State.modLink_attnCause (s : State) (f : Link → Link) : (s.modLink f).attnCause = s.attnCause := rfl
@[simp] theorem State.modLink_attnMask (s : State) (f : Link → Link) : (s.modLink f).attnMask = s.attnMask := rfl
@[simp] theorem State.modLink_setup (s : State) (f : Link → Link) : (s.modLink f).setup = s.setup := rfl
@[simp] theorem State.modLink_pins (s : State) (f : Link → Link) : (s.modLink f).pins = s.pins := rfl
@[simp] theorem State.modLink_slots (s : State) (f : Link → Link) : (s.modLink f).slots = s.slots := rfl
@[simp] theorem State.modLink_queue (s : State) (f : Link → Link) : (s.modLink f).queue = s.queue := rfl
@[simp] theorem State.modLink_current (s : State) (f : Link → Link) : (s.modLink f).current = s.current := rfl
@[simp] theorem State.modLink_slot (s : State) (f : Link → Link) : (s.modLink f).slot = s.slot := rfl
@[simp] theorem State.modLink_cycleAt (s : State) (f : Link → Link) : (s.modLink f).cycleAt = s.cycleAt := rfl
@[simp] theorem State.modLink_firing (s : State) (f : Link → Link) : (s.modLink f).firing = s.firing := rfl
@[simp] theorem State.modLink_resumePending (s : State) (f : Link → Link) : (s.modLink f).resumePending = s.resumePending := rfl
@[simp] theorem State.modLink_heads (s : State) (f : Link → Link) : (s.modLink f).heads = s.heads := rfl
@[simp] theorem State.modLink_chans (s : State) (f : Link → Link) : (s.modLink f).chans = s.chans := rfl
@[simp] theorem State.modLink_lastValid (s : State) (f : Link → Link) : (s.modLink f).lastValid = s.lastValid := rfl
@[simp] theorem State.modLink_tracker (s : State) (f : Link → Link) : (s.modLink f).tracker = s.tracker := rfl
@[simp] theorem State.modLink_presence (s : State) (f : Link → Link) : (s.modLink f).presence = s.presence := rfl
@[simp] theorem State.modLink_link (s : State) (f : Link → Link) : (s.modLink f).link = f s.link := rfl
@[simp] theorem State.modLink_records (s : State) (f : Link → Link) : (s.modLink f).records = s.records := rfl
@[simp] theorem State.modLink_serial (s : State) (f : Link → Link) : (s.modLink f).serial = s.serial := rfl
@[simp] theorem State.modLink_nextSearch (s : State) (f : Link → Link) : (s.modLink f).nextSearch = s.nextSearch := rfl
@[simp] theorem State.modLink_tubesCompleted (s : State) (f : Link → Link) : (s.modLink f).tubesCompleted = s.tubesCompleted := rfl
@[simp] theorem State.modLink_tubesMissed (s : State) (f : Link → Link) : (s.modLink f).tubesMissed = s.tubesMissed := rfl
@[simp] theorem State.modLink_tube (s : State) (f : Link → Link) : (s.modLink f).tube = s.tube := rfl
@[simp] theorem State.modLink_pool (s : State) (f : Link → Link) : (s.modLink f).pool = s.pool := rfl
@[simp] theorem State.modLink_now (s : State) (f : Link → Link) : (s.modLink f).now = s.now := rfl
@[simp] theorem State.modLink_inputs (s : State) (f : Link → Link) : (s.modLink f).inputs = s.inputs := rfl
@[simp] theorem State.modLink_pending (s : State) (f : Link → Link) : (s.modLink f).pending = s.pending := rfl

end Sys2Proof.Machine
end

