-- ==== Sys2Proof/Laws/Link.lean ====
section
/-! SUPPORT. What the temperature link's operations change. For each operation, one lemma that says which parts of the state it leaves alone. -/

namespace Sys2Proof.Machine

@[simp] theorem State.setRx_frame (s : State) (x : RxState) :
    (s.setRx x).gauge = s.gauge ∧ (s.setRx x).resetActive = s.resetActive ∧ (s.setRx x).clearing = s.clearing
      ∧ (s.setRx x).haltPending = s.haltPending ∧ (s.setRx x).mem = s.mem ∧ (s.setRx x).attnCause = s.attnCause
      ∧ (s.setRx x).attnMask = s.attnMask ∧ (s.setRx x).setup = s.setup ∧ (s.setRx x).pins = s.pins
      ∧ (s.setRx x).slots = s.slots ∧ (s.setRx x).queue = s.queue ∧ (s.setRx x).current = s.current ∧ (s.setRx x).slot = s.slot
      ∧ (s.setRx x).cycleAt = s.cycleAt ∧ (s.setRx x).firing = s.firing ∧ (s.setRx x).resumePending = s.resumePending
      ∧ (s.setRx x).heads = s.heads ∧ (s.setRx x).chans = s.chans ∧ (s.setRx x).lastValid = s.lastValid
      ∧ (s.setRx x).tracker = s.tracker ∧ (s.setRx x).presence = s.presence ∧ (s.setRx x).records = s.records
      ∧ (s.setRx x).serial = s.serial ∧ (s.setRx x).nextSearch = s.nextSearch ∧ (s.setRx x).tubesCompleted = s.tubesCompleted
      ∧ (s.setRx x).tubesMissed = s.tubesMissed ∧ (s.setRx x).tube = s.tube ∧ (s.setRx x).pool = s.pool
      ∧ (s.setRx x).now = s.now ∧ (s.setRx x).inputs = s.inputs ∧ (s.setRx x).pending = s.pending := by
  simp only [State.setRx]
  simp

@[simp] theorem State.enterSettle_frame (s : State) :
    s.enterSettle.gauge = s.gauge ∧ s.enterSettle.resetActive = s.resetActive ∧ s.enterSettle.clearing = s.clearing
      ∧ s.enterSettle.haltPending = s.haltPending ∧ s.enterSettle.mem = s.mem ∧ s.enterSettle.attnCause = s.attnCause
      ∧ s.enterSettle.attnMask = s.attnMask ∧ s.enterSettle.setup = s.setup ∧ s.enterSettle.pins = s.pins
      ∧ s.enterSettle.slots = s.slots ∧ s.enterSettle.queue = s.queue ∧ s.enterSettle.current = s.current
      ∧ s.enterSettle.slot = s.slot ∧ s.enterSettle.cycleAt = s.cycleAt ∧ s.enterSettle.firing = s.firing
      ∧ s.enterSettle.resumePending = s.resumePending ∧ s.enterSettle.heads = s.heads ∧ s.enterSettle.chans = s.chans
      ∧ s.enterSettle.lastValid = s.lastValid ∧ s.enterSettle.tracker = s.tracker ∧ s.enterSettle.presence = s.presence
      ∧ s.enterSettle.records = s.records ∧ s.enterSettle.serial = s.serial ∧ s.enterSettle.nextSearch = s.nextSearch
      ∧ s.enterSettle.tubesCompleted = s.tubesCompleted ∧ s.enterSettle.tubesMissed = s.tubesMissed
      ∧ s.enterSettle.tube = s.tube ∧ s.enterSettle.pool = s.pool ∧ s.enterSettle.now = s.now ∧ s.enterSettle.inputs = s.inputs
      ∧ s.enterSettle.pending = s.pending := by
  simp only [State.enterSettle]
  simp

@[simp] theorem State.count_frame (s : State) (i : Nat) (f : LinkCounters → LinkCounters) :
    (s.count i f).gauge = s.gauge ∧ (s.count i f).resetActive = s.resetActive ∧ (s.count i f).clearing = s.clearing
      ∧ (s.count i f).haltPending = s.haltPending ∧ (s.count i f).attnCause = s.attnCause ∧ (s.count i f).attnMask = s.attnMask
      ∧ (s.count i f).setup = s.setup ∧ (s.count i f).pins = s.pins ∧ (s.count i f).slots = s.slots
      ∧ (s.count i f).queue = s.queue ∧ (s.count i f).current = s.current ∧ (s.count i f).slot = s.slot
      ∧ (s.count i f).cycleAt = s.cycleAt ∧ (s.count i f).firing = s.firing ∧ (s.count i f).resumePending = s.resumePending
      ∧ (s.count i f).heads = s.heads ∧ (s.count i f).chans = s.chans ∧ (s.count i f).lastValid = s.lastValid
      ∧ (s.count i f).tracker = s.tracker ∧ (s.count i f).presence = s.presence ∧ (s.count i f).records = s.records
      ∧ (s.count i f).serial = s.serial ∧ (s.count i f).nextSearch = s.nextSearch
      ∧ (s.count i f).tubesCompleted = s.tubesCompleted ∧ (s.count i f).tubesMissed = s.tubesMissed
      ∧ (s.count i f).tube = s.tube ∧ (s.count i f).pool = s.pool ∧ (s.count i f).now = s.now ∧ (s.count i f).inputs = s.inputs
      ∧ (s.count i f).pending = s.pending := by
  simp only [State.count]
  simp

@[simp] theorem State.countAccepted_frame (s : State) :
    s.countAccepted.gauge = s.gauge ∧ s.countAccepted.resetActive = s.resetActive ∧ s.countAccepted.clearing = s.clearing
      ∧ s.countAccepted.haltPending = s.haltPending ∧ s.countAccepted.attnCause = s.attnCause
      ∧ s.countAccepted.attnMask = s.attnMask ∧ s.countAccepted.setup = s.setup ∧ s.countAccepted.pins = s.pins
      ∧ s.countAccepted.slots = s.slots ∧ s.countAccepted.queue = s.queue ∧ s.countAccepted.current = s.current
      ∧ s.countAccepted.slot = s.slot ∧ s.countAccepted.cycleAt = s.cycleAt ∧ s.countAccepted.firing = s.firing
      ∧ s.countAccepted.resumePending = s.resumePending ∧ s.countAccepted.heads = s.heads ∧ s.countAccepted.chans = s.chans
      ∧ s.countAccepted.lastValid = s.lastValid ∧ s.countAccepted.tracker = s.tracker ∧ s.countAccepted.presence = s.presence
      ∧ s.countAccepted.records = s.records ∧ s.countAccepted.serial = s.serial ∧ s.countAccepted.nextSearch = s.nextSearch
      ∧ s.countAccepted.tubesCompleted = s.tubesCompleted ∧ s.countAccepted.tubesMissed = s.tubesMissed
      ∧ s.countAccepted.tube = s.tube ∧ s.countAccepted.pool = s.pool ∧ s.countAccepted.now = s.now
      ∧ s.countAccepted.inputs = s.inputs ∧ s.countAccepted.pending = s.pending := by
  simp only [State.countAccepted]
  simp

@[simp] theorem State.countFraming_frame (s : State) :
    s.countFraming.gauge = s.gauge ∧ s.countFraming.resetActive = s.resetActive ∧ s.countFraming.clearing = s.clearing
      ∧ s.countFraming.haltPending = s.haltPending ∧ s.countFraming.attnCause = s.attnCause
      ∧ s.countFraming.attnMask = s.attnMask ∧ s.countFraming.setup = s.setup ∧ s.countFraming.pins = s.pins
      ∧ s.countFraming.slots = s.slots ∧ s.countFraming.queue = s.queue ∧ s.countFraming.current = s.current
      ∧ s.countFraming.slot = s.slot ∧ s.countFraming.cycleAt = s.cycleAt ∧ s.countFraming.firing = s.firing
      ∧ s.countFraming.resumePending = s.resumePending ∧ s.countFraming.heads = s.heads ∧ s.countFraming.chans = s.chans
      ∧ s.countFraming.lastValid = s.lastValid ∧ s.countFraming.tracker = s.tracker ∧ s.countFraming.presence = s.presence
      ∧ s.countFraming.records = s.records ∧ s.countFraming.serial = s.serial ∧ s.countFraming.nextSearch = s.nextSearch
      ∧ s.countFraming.tubesCompleted = s.tubesCompleted ∧ s.countFraming.tubesMissed = s.tubesMissed
      ∧ s.countFraming.tube = s.tube ∧ s.countFraming.pool = s.pool ∧ s.countFraming.now = s.now
      ∧ s.countFraming.inputs = s.inputs ∧ s.countFraming.pending = s.pending := by
  simp only [State.countFraming]
  simp

@[simp] theorem State.countParity_frame (s : State) :
    s.countParity.gauge = s.gauge ∧ s.countParity.resetActive = s.resetActive ∧ s.countParity.clearing = s.clearing
      ∧ s.countParity.haltPending = s.haltPending ∧ s.countParity.attnCause = s.attnCause ∧ s.countParity.attnMask = s.attnMask
      ∧ s.countParity.setup = s.setup ∧ s.countParity.pins = s.pins ∧ s.countParity.slots = s.slots
      ∧ s.countParity.queue = s.queue ∧ s.countParity.current = s.current ∧ s.countParity.slot = s.slot
      ∧ s.countParity.cycleAt = s.cycleAt ∧ s.countParity.firing = s.firing ∧ s.countParity.resumePending = s.resumePending
      ∧ s.countParity.heads = s.heads ∧ s.countParity.chans = s.chans ∧ s.countParity.lastValid = s.lastValid
      ∧ s.countParity.tracker = s.tracker ∧ s.countParity.presence = s.presence ∧ s.countParity.records = s.records
      ∧ s.countParity.serial = s.serial ∧ s.countParity.nextSearch = s.nextSearch
      ∧ s.countParity.tubesCompleted = s.tubesCompleted ∧ s.countParity.tubesMissed = s.tubesMissed
      ∧ s.countParity.tube = s.tube ∧ s.countParity.pool = s.pool ∧ s.countParity.now = s.now ∧ s.countParity.inputs = s.inputs
      ∧ s.countParity.pending = s.pending := by
  simp only [State.countParity]
  simp

@[simp] theorem State.countChecksum_frame (s : State) :
    s.countChecksum.gauge = s.gauge ∧ s.countChecksum.resetActive = s.resetActive ∧ s.countChecksum.clearing = s.clearing
      ∧ s.countChecksum.haltPending = s.haltPending ∧ s.countChecksum.attnCause = s.attnCause
      ∧ s.countChecksum.attnMask = s.attnMask ∧ s.countChecksum.setup = s.setup ∧ s.countChecksum.pins = s.pins
      ∧ s.countChecksum.slots = s.slots ∧ s.countChecksum.queue = s.queue ∧ s.countChecksum.current = s.current
      ∧ s.countChecksum.slot = s.slot ∧ s.countChecksum.cycleAt = s.cycleAt ∧ s.countChecksum.firing = s.firing
      ∧ s.countChecksum.resumePending = s.resumePending ∧ s.countChecksum.heads = s.heads ∧ s.countChecksum.chans = s.chans
      ∧ s.countChecksum.lastValid = s.lastValid ∧ s.countChecksum.tracker = s.tracker ∧ s.countChecksum.presence = s.presence
      ∧ s.countChecksum.records = s.records ∧ s.countChecksum.serial = s.serial ∧ s.countChecksum.nextSearch = s.nextSearch
      ∧ s.countChecksum.tubesCompleted = s.tubesCompleted ∧ s.countChecksum.tubesMissed = s.tubesMissed
      ∧ s.countChecksum.tube = s.tube ∧ s.countChecksum.pool = s.pool ∧ s.countChecksum.now = s.now
      ∧ s.countChecksum.inputs = s.inputs ∧ s.countChecksum.pending = s.pending := by
  simp only [State.countChecksum]
  simp

@[simp] theorem State.countTruncated_frame (s : State) :
    s.countTruncated.gauge = s.gauge ∧ s.countTruncated.resetActive = s.resetActive ∧ s.countTruncated.clearing = s.clearing
      ∧ s.countTruncated.haltPending = s.haltPending ∧ s.countTruncated.attnCause = s.attnCause
      ∧ s.countTruncated.attnMask = s.attnMask ∧ s.countTruncated.setup = s.setup ∧ s.countTruncated.pins = s.pins
      ∧ s.countTruncated.slots = s.slots ∧ s.countTruncated.queue = s.queue ∧ s.countTruncated.current = s.current
      ∧ s.countTruncated.slot = s.slot ∧ s.countTruncated.cycleAt = s.cycleAt ∧ s.countTruncated.firing = s.firing
      ∧ s.countTruncated.resumePending = s.resumePending ∧ s.countTruncated.heads = s.heads ∧ s.countTruncated.chans = s.chans
      ∧ s.countTruncated.lastValid = s.lastValid ∧ s.countTruncated.tracker = s.tracker ∧ s.countTruncated.presence = s.presence
      ∧ s.countTruncated.records = s.records ∧ s.countTruncated.serial = s.serial ∧ s.countTruncated.nextSearch = s.nextSearch
      ∧ s.countTruncated.tubesCompleted = s.tubesCompleted ∧ s.countTruncated.tubesMissed = s.tubesMissed
      ∧ s.countTruncated.tube = s.tube ∧ s.countTruncated.pool = s.pool ∧ s.countTruncated.now = s.now
      ∧ s.countTruncated.inputs = s.inputs ∧ s.countTruncated.pending = s.pending := by
  simp only [State.countTruncated]
  simp

@[simp] theorem State.countRejected_frame (s : State) :
    s.countRejected.gauge = s.gauge ∧ s.countRejected.resetActive = s.resetActive ∧ s.countRejected.clearing = s.clearing
      ∧ s.countRejected.haltPending = s.haltPending ∧ s.countRejected.attnCause = s.attnCause
      ∧ s.countRejected.attnMask = s.attnMask ∧ s.countRejected.setup = s.setup ∧ s.countRejected.pins = s.pins
      ∧ s.countRejected.slots = s.slots ∧ s.countRejected.queue = s.queue ∧ s.countRejected.current = s.current
      ∧ s.countRejected.slot = s.slot ∧ s.countRejected.cycleAt = s.cycleAt ∧ s.countRejected.firing = s.firing
      ∧ s.countRejected.resumePending = s.resumePending ∧ s.countRejected.heads = s.heads ∧ s.countRejected.chans = s.chans
      ∧ s.countRejected.lastValid = s.lastValid ∧ s.countRejected.tracker = s.tracker ∧ s.countRejected.presence = s.presence
      ∧ s.countRejected.records = s.records ∧ s.countRejected.serial = s.serial ∧ s.countRejected.nextSearch = s.nextSearch
      ∧ s.countRejected.tubesCompleted = s.tubesCompleted ∧ s.countRejected.tubesMissed = s.tubesMissed
      ∧ s.countRejected.tube = s.tube ∧ s.countRejected.pool = s.pool ∧ s.countRejected.now = s.now
      ∧ s.countRejected.inputs = s.inputs ∧ s.countRejected.pending = s.pending := by
  simp only [State.countRejected]
  simp

@[simp] theorem State.countStray_frame (s : State) :
    s.countStray.gauge = s.gauge ∧ s.countStray.resetActive = s.resetActive ∧ s.countStray.clearing = s.clearing
      ∧ s.countStray.haltPending = s.haltPending ∧ s.countStray.attnCause = s.attnCause ∧ s.countStray.attnMask = s.attnMask
      ∧ s.countStray.setup = s.setup ∧ s.countStray.pins = s.pins ∧ s.countStray.slots = s.slots ∧ s.countStray.queue = s.queue
      ∧ s.countStray.current = s.current ∧ s.countStray.slot = s.slot ∧ s.countStray.cycleAt = s.cycleAt
      ∧ s.countStray.firing = s.firing ∧ s.countStray.resumePending = s.resumePending ∧ s.countStray.heads = s.heads
      ∧ s.countStray.chans = s.chans ∧ s.countStray.lastValid = s.lastValid ∧ s.countStray.tracker = s.tracker
      ∧ s.countStray.presence = s.presence ∧ s.countStray.records = s.records ∧ s.countStray.serial = s.serial
      ∧ s.countStray.nextSearch = s.nextSearch ∧ s.countStray.tubesCompleted = s.tubesCompleted
      ∧ s.countStray.tubesMissed = s.tubesMissed ∧ s.countStray.tube = s.tube ∧ s.countStray.pool = s.pool
      ∧ s.countStray.now = s.now ∧ s.countStray.inputs = s.inputs ∧ s.countStray.pending = s.pending := by
  simp only [State.countStray]
  simp

@[simp] theorem State.setSource_frame (s : State) (x : TempSource) :
    (s.setSource x).gauge = s.gauge ∧ (s.setSource x).resetActive = s.resetActive ∧ (s.setSource x).clearing = s.clearing
      ∧ (s.setSource x).haltPending = s.haltPending ∧ (s.setSource x).attnCause = s.attnCause
      ∧ (s.setSource x).attnMask = s.attnMask ∧ (s.setSource x).setup = s.setup ∧ (s.setSource x).pins = s.pins
      ∧ (s.setSource x).slots = s.slots ∧ (s.setSource x).queue = s.queue ∧ (s.setSource x).current = s.current
      ∧ (s.setSource x).slot = s.slot ∧ (s.setSource x).cycleAt = s.cycleAt ∧ (s.setSource x).firing = s.firing
      ∧ (s.setSource x).resumePending = s.resumePending ∧ (s.setSource x).heads = s.heads ∧ (s.setSource x).chans = s.chans
      ∧ (s.setSource x).lastValid = s.lastValid ∧ (s.setSource x).tracker = s.tracker ∧ (s.setSource x).presence = s.presence
      ∧ (s.setSource x).records = s.records ∧ (s.setSource x).serial = s.serial ∧ (s.setSource x).nextSearch = s.nextSearch
      ∧ (s.setSource x).tubesCompleted = s.tubesCompleted ∧ (s.setSource x).tubesMissed = s.tubesMissed
      ∧ (s.setSource x).tube = s.tube ∧ (s.setSource x).pool = s.pool ∧ (s.setSource x).now = s.now
      ∧ (s.setSource x).inputs = s.inputs ∧ (s.setSource x).pending = s.pending := by
  simp only [State.setSource]
  simp

@[simp] theorem State.setAge_frame (s : State) (n : Nat) :
    (s.setAge n).gauge = s.gauge ∧ (s.setAge n).resetActive = s.resetActive ∧ (s.setAge n).clearing = s.clearing
      ∧ (s.setAge n).haltPending = s.haltPending ∧ (s.setAge n).attnCause = s.attnCause ∧ (s.setAge n).attnMask = s.attnMask
      ∧ (s.setAge n).setup = s.setup ∧ (s.setAge n).pins = s.pins ∧ (s.setAge n).slots = s.slots ∧ (s.setAge n).queue = s.queue
      ∧ (s.setAge n).current = s.current ∧ (s.setAge n).slot = s.slot ∧ (s.setAge n).cycleAt = s.cycleAt
      ∧ (s.setAge n).firing = s.firing ∧ (s.setAge n).resumePending = s.resumePending ∧ (s.setAge n).heads = s.heads
      ∧ (s.setAge n).chans = s.chans ∧ (s.setAge n).lastValid = s.lastValid ∧ (s.setAge n).tracker = s.tracker
      ∧ (s.setAge n).presence = s.presence ∧ (s.setAge n).records = s.records ∧ (s.setAge n).serial = s.serial
      ∧ (s.setAge n).nextSearch = s.nextSearch ∧ (s.setAge n).tubesCompleted = s.tubesCompleted
      ∧ (s.setAge n).tubesMissed = s.tubesMissed ∧ (s.setAge n).tube = s.tube ∧ (s.setAge n).pool = s.pool
      ∧ (s.setAge n).now = s.now ∧ (s.setAge n).inputs = s.inputs ∧ (s.setAge n).pending = s.pending := by
  simp only [State.setAge]
  simp

@[simp] theorem State.setSurface_frame (s : State) (n : Nat) :
    (s.setSurface n).gauge = s.gauge ∧ (s.setSurface n).resetActive = s.resetActive ∧ (s.setSurface n).clearing = s.clearing
      ∧ (s.setSurface n).haltPending = s.haltPending ∧ (s.setSurface n).attnCause = s.attnCause
      ∧ (s.setSurface n).attnMask = s.attnMask ∧ (s.setSurface n).setup = s.setup ∧ (s.setSurface n).pins = s.pins
      ∧ (s.setSurface n).slots = s.slots ∧ (s.setSurface n).queue = s.queue ∧ (s.setSurface n).current = s.current
      ∧ (s.setSurface n).slot = s.slot ∧ (s.setSurface n).cycleAt = s.cycleAt ∧ (s.setSurface n).firing = s.firing
      ∧ (s.setSurface n).resumePending = s.resumePending ∧ (s.setSurface n).heads = s.heads ∧ (s.setSurface n).chans = s.chans
      ∧ (s.setSurface n).lastValid = s.lastValid ∧ (s.setSurface n).tracker = s.tracker ∧ (s.setSurface n).presence = s.presence
      ∧ (s.setSurface n).records = s.records ∧ (s.setSurface n).serial = s.serial ∧ (s.setSurface n).nextSearch = s.nextSearch
      ∧ (s.setSurface n).tubesCompleted = s.tubesCompleted ∧ (s.setSurface n).tubesMissed = s.tubesMissed
      ∧ (s.setSurface n).tube = s.tube ∧ (s.setSurface n).pool = s.pool ∧ (s.setSurface n).now = s.now
      ∧ (s.setSurface n).inputs = s.inputs ∧ (s.setSurface n).pending = s.pending := by
  simp only [State.setSurface]
  simp

@[simp] theorem State.startLink_frame (s : State) :
    s.startLink.gauge = s.gauge ∧ s.startLink.resetActive = s.resetActive ∧ s.startLink.clearing = s.clearing
      ∧ s.startLink.haltPending = s.haltPending ∧ s.startLink.attnCause = s.attnCause ∧ s.startLink.attnMask = s.attnMask
      ∧ s.startLink.setup = s.setup ∧ s.startLink.pins = s.pins ∧ s.startLink.slots = s.slots ∧ s.startLink.queue = s.queue
      ∧ s.startLink.current = s.current ∧ s.startLink.slot = s.slot ∧ s.startLink.cycleAt = s.cycleAt
      ∧ s.startLink.firing = s.firing ∧ s.startLink.resumePending = s.resumePending ∧ s.startLink.heads = s.heads
      ∧ s.startLink.chans = s.chans ∧ s.startLink.lastValid = s.lastValid ∧ s.startLink.tracker = s.tracker
      ∧ s.startLink.presence = s.presence ∧ s.startLink.records = s.records ∧ s.startLink.serial = s.serial
      ∧ s.startLink.nextSearch = s.nextSearch ∧ s.startLink.tubesCompleted = s.tubesCompleted
      ∧ s.startLink.tubesMissed = s.tubesMissed ∧ s.startLink.tube = s.tube ∧ s.startLink.pool = s.pool
      ∧ s.startLink.now = s.now ∧ s.startLink.inputs = s.inputs ∧ s.startLink.pending = s.pending := by
  simp only [State.startLink]
  simp

@[simp] theorem State.acceptTelegram_frame (s : State) (t : Nat) :
    (s.acceptTelegram t).gauge = s.gauge ∧ (s.acceptTelegram t).resetActive = s.resetActive
      ∧ (s.acceptTelegram t).clearing = s.clearing ∧ (s.acceptTelegram t).haltPending = s.haltPending
      ∧ (s.acceptTelegram t).attnCause = s.attnCause ∧ (s.acceptTelegram t).attnMask = s.attnMask
      ∧ (s.acceptTelegram t).setup = s.setup ∧ (s.acceptTelegram t).pins = s.pins ∧ (s.acceptTelegram t).slots = s.slots
      ∧ (s.acceptTelegram t).queue = s.queue ∧ (s.acceptTelegram t).current = s.current ∧ (s.acceptTelegram t).slot = s.slot
      ∧ (s.acceptTelegram t).cycleAt = s.cycleAt ∧ (s.acceptTelegram t).firing = s.firing
      ∧ (s.acceptTelegram t).resumePending = s.resumePending ∧ (s.acceptTelegram t).heads = s.heads
      ∧ (s.acceptTelegram t).chans = s.chans ∧ (s.acceptTelegram t).lastValid = s.lastValid
      ∧ (s.acceptTelegram t).tracker = s.tracker ∧ (s.acceptTelegram t).presence = s.presence
      ∧ (s.acceptTelegram t).records = s.records ∧ (s.acceptTelegram t).serial = s.serial
      ∧ (s.acceptTelegram t).nextSearch = s.nextSearch ∧ (s.acceptTelegram t).tubesCompleted = s.tubesCompleted
      ∧ (s.acceptTelegram t).tubesMissed = s.tubesMissed ∧ (s.acceptTelegram t).tube = s.tube
      ∧ (s.acceptTelegram t).pool = s.pool ∧ (s.acceptTelegram t).now = s.now ∧ (s.acceptTelegram t).inputs = s.inputs
      ∧ (s.acceptTelegram t).pending = s.pending := by
  simp only [State.acceptTelegram]
  simp

@[simp] theorem State.judgeTelegram_frame (s : State) (a b c d : Byte) :
    (s.judgeTelegram a b c d).gauge = s.gauge ∧ (s.judgeTelegram a b c d).resetActive = s.resetActive
      ∧ (s.judgeTelegram a b c d).clearing = s.clearing ∧ (s.judgeTelegram a b c d).haltPending = s.haltPending
      ∧ (s.judgeTelegram a b c d).attnCause = s.attnCause ∧ (s.judgeTelegram a b c d).attnMask = s.attnMask
      ∧ (s.judgeTelegram a b c d).setup = s.setup ∧ (s.judgeTelegram a b c d).pins = s.pins
      ∧ (s.judgeTelegram a b c d).slots = s.slots ∧ (s.judgeTelegram a b c d).queue = s.queue
      ∧ (s.judgeTelegram a b c d).current = s.current ∧ (s.judgeTelegram a b c d).slot = s.slot
      ∧ (s.judgeTelegram a b c d).cycleAt = s.cycleAt ∧ (s.judgeTelegram a b c d).firing = s.firing
      ∧ (s.judgeTelegram a b c d).resumePending = s.resumePending ∧ (s.judgeTelegram a b c d).heads = s.heads
      ∧ (s.judgeTelegram a b c d).chans = s.chans ∧ (s.judgeTelegram a b c d).lastValid = s.lastValid
      ∧ (s.judgeTelegram a b c d).tracker = s.tracker ∧ (s.judgeTelegram a b c d).presence = s.presence
      ∧ (s.judgeTelegram a b c d).records = s.records ∧ (s.judgeTelegram a b c d).serial = s.serial
      ∧ (s.judgeTelegram a b c d).nextSearch = s.nextSearch ∧ (s.judgeTelegram a b c d).tubesCompleted = s.tubesCompleted
      ∧ (s.judgeTelegram a b c d).tubesMissed = s.tubesMissed ∧ (s.judgeTelegram a b c d).tube = s.tube
      ∧ (s.judgeTelegram a b c d).pool = s.pool ∧ (s.judgeTelegram a b c d).now = s.now
      ∧ (s.judgeTelegram a b c d).inputs = s.inputs ∧ (s.judgeTelegram a b c d).pending = s.pending := by
  simp only [State.judgeTelegram]
  repeat' split
  all_goals simp

@[simp] theorem State.dropTelegram_frame (s : State) :
    s.dropTelegram.gauge = s.gauge ∧ s.dropTelegram.resetActive = s.resetActive ∧ s.dropTelegram.clearing = s.clearing
      ∧ s.dropTelegram.haltPending = s.haltPending ∧ s.dropTelegram.mem = s.mem ∧ s.dropTelegram.attnCause = s.attnCause
      ∧ s.dropTelegram.attnMask = s.attnMask ∧ s.dropTelegram.setup = s.setup ∧ s.dropTelegram.pins = s.pins
      ∧ s.dropTelegram.slots = s.slots ∧ s.dropTelegram.queue = s.queue ∧ s.dropTelegram.current = s.current
      ∧ s.dropTelegram.slot = s.slot ∧ s.dropTelegram.cycleAt = s.cycleAt ∧ s.dropTelegram.firing = s.firing
      ∧ s.dropTelegram.resumePending = s.resumePending ∧ s.dropTelegram.heads = s.heads ∧ s.dropTelegram.chans = s.chans
      ∧ s.dropTelegram.lastValid = s.lastValid ∧ s.dropTelegram.tracker = s.tracker ∧ s.dropTelegram.presence = s.presence
      ∧ s.dropTelegram.records = s.records ∧ s.dropTelegram.serial = s.serial ∧ s.dropTelegram.nextSearch = s.nextSearch
      ∧ s.dropTelegram.tubesCompleted = s.tubesCompleted ∧ s.dropTelegram.tubesMissed = s.tubesMissed
      ∧ s.dropTelegram.tube = s.tube ∧ s.dropTelegram.pool = s.pool ∧ s.dropTelegram.now = s.now
      ∧ s.dropTelegram.inputs = s.inputs ∧ s.dropTelegram.pending = s.pending := by
  simp only [State.dropTelegram]
  simp

@[simp] theorem State.collect_frame (s : State) (bs : List Byte) :
    (s.collect bs).gauge = s.gauge ∧ (s.collect bs).resetActive = s.resetActive ∧ (s.collect bs).clearing = s.clearing
      ∧ (s.collect bs).haltPending = s.haltPending ∧ (s.collect bs).mem = s.mem ∧ (s.collect bs).attnCause = s.attnCause
      ∧ (s.collect bs).attnMask = s.attnMask ∧ (s.collect bs).setup = s.setup ∧ (s.collect bs).pins = s.pins
      ∧ (s.collect bs).slots = s.slots ∧ (s.collect bs).queue = s.queue ∧ (s.collect bs).current = s.current
      ∧ (s.collect bs).slot = s.slot ∧ (s.collect bs).cycleAt = s.cycleAt ∧ (s.collect bs).firing = s.firing
      ∧ (s.collect bs).resumePending = s.resumePending ∧ (s.collect bs).heads = s.heads ∧ (s.collect bs).chans = s.chans
      ∧ (s.collect bs).lastValid = s.lastValid ∧ (s.collect bs).tracker = s.tracker ∧ (s.collect bs).presence = s.presence
      ∧ (s.collect bs).records = s.records ∧ (s.collect bs).serial = s.serial ∧ (s.collect bs).nextSearch = s.nextSearch
      ∧ (s.collect bs).tubesCompleted = s.tubesCompleted ∧ (s.collect bs).tubesMissed = s.tubesMissed
      ∧ (s.collect bs).tube = s.tube ∧ (s.collect bs).pool = s.pool ∧ (s.collect bs).now = s.now
      ∧ (s.collect bs).inputs = s.inputs ∧ (s.collect bs).pending = s.pending := by
  simp only [State.collect]
  simp

@[simp] theorem State.takeByte_frame (s : State) (b : Byte) :
    (s.takeByte b).gauge = s.gauge ∧ (s.takeByte b).resetActive = s.resetActive ∧ (s.takeByte b).clearing = s.clearing
      ∧ (s.takeByte b).haltPending = s.haltPending ∧ (s.takeByte b).attnCause = s.attnCause
      ∧ (s.takeByte b).attnMask = s.attnMask ∧ (s.takeByte b).setup = s.setup ∧ (s.takeByte b).pins = s.pins
      ∧ (s.takeByte b).slots = s.slots ∧ (s.takeByte b).queue = s.queue ∧ (s.takeByte b).current = s.current
      ∧ (s.takeByte b).slot = s.slot ∧ (s.takeByte b).cycleAt = s.cycleAt ∧ (s.takeByte b).firing = s.firing
      ∧ (s.takeByte b).resumePending = s.resumePending ∧ (s.takeByte b).heads = s.heads ∧ (s.takeByte b).chans = s.chans
      ∧ (s.takeByte b).lastValid = s.lastValid ∧ (s.takeByte b).tracker = s.tracker ∧ (s.takeByte b).presence = s.presence
      ∧ (s.takeByte b).records = s.records ∧ (s.takeByte b).serial = s.serial ∧ (s.takeByte b).nextSearch = s.nextSearch
      ∧ (s.takeByte b).tubesCompleted = s.tubesCompleted ∧ (s.takeByte b).tubesMissed = s.tubesMissed
      ∧ (s.takeByte b).tube = s.tube ∧ (s.takeByte b).pool = s.pool ∧ (s.takeByte b).now = s.now
      ∧ (s.takeByte b).inputs = s.inputs ∧ (s.takeByte b).pending = s.pending := by
  simp only [State.takeByte]
  repeat' split
  all_goals simp

@[simp] theorem State.takeFramingError_frame (s : State) :
    s.takeFramingError.gauge = s.gauge ∧ s.takeFramingError.resetActive = s.resetActive
      ∧ s.takeFramingError.clearing = s.clearing ∧ s.takeFramingError.haltPending = s.haltPending
      ∧ s.takeFramingError.attnCause = s.attnCause ∧ s.takeFramingError.attnMask = s.attnMask
      ∧ s.takeFramingError.setup = s.setup ∧ s.takeFramingError.pins = s.pins ∧ s.takeFramingError.slots = s.slots
      ∧ s.takeFramingError.queue = s.queue ∧ s.takeFramingError.current = s.current ∧ s.takeFramingError.slot = s.slot
      ∧ s.takeFramingError.cycleAt = s.cycleAt ∧ s.takeFramingError.firing = s.firing
      ∧ s.takeFramingError.resumePending = s.resumePending ∧ s.takeFramingError.heads = s.heads
      ∧ s.takeFramingError.chans = s.chans ∧ s.takeFramingError.lastValid = s.lastValid ∧ s.takeFramingError.tracker = s.tracker
      ∧ s.takeFramingError.presence = s.presence ∧ s.takeFramingError.records = s.records ∧ s.takeFramingError.serial = s.serial
      ∧ s.takeFramingError.nextSearch = s.nextSearch ∧ s.takeFramingError.tubesCompleted = s.tubesCompleted
      ∧ s.takeFramingError.tubesMissed = s.tubesMissed ∧ s.takeFramingError.tube = s.tube ∧ s.takeFramingError.pool = s.pool
      ∧ s.takeFramingError.now = s.now ∧ s.takeFramingError.inputs = s.inputs ∧ s.takeFramingError.pending = s.pending := by
  simp only [State.takeFramingError]
  simp

@[simp] theorem State.takeParityError_frame (s : State) :
    s.takeParityError.gauge = s.gauge ∧ s.takeParityError.resetActive = s.resetActive ∧ s.takeParityError.clearing = s.clearing
      ∧ s.takeParityError.haltPending = s.haltPending ∧ s.takeParityError.attnCause = s.attnCause
      ∧ s.takeParityError.attnMask = s.attnMask ∧ s.takeParityError.setup = s.setup ∧ s.takeParityError.pins = s.pins
      ∧ s.takeParityError.slots = s.slots ∧ s.takeParityError.queue = s.queue ∧ s.takeParityError.current = s.current
      ∧ s.takeParityError.slot = s.slot ∧ s.takeParityError.cycleAt = s.cycleAt ∧ s.takeParityError.firing = s.firing
      ∧ s.takeParityError.resumePending = s.resumePending ∧ s.takeParityError.heads = s.heads
      ∧ s.takeParityError.chans = s.chans ∧ s.takeParityError.lastValid = s.lastValid ∧ s.takeParityError.tracker = s.tracker
      ∧ s.takeParityError.presence = s.presence ∧ s.takeParityError.records = s.records ∧ s.takeParityError.serial = s.serial
      ∧ s.takeParityError.nextSearch = s.nextSearch ∧ s.takeParityError.tubesCompleted = s.tubesCompleted
      ∧ s.takeParityError.tubesMissed = s.tubesMissed ∧ s.takeParityError.tube = s.tube ∧ s.takeParityError.pool = s.pool
      ∧ s.takeParityError.now = s.now ∧ s.takeParityError.inputs = s.inputs ∧ s.takeParityError.pending = s.pending := by
  simp only [State.takeParityError]
  simp

@[simp] theorem State.takeFrame_frame (s : State) (f : Frame) :
    (s.takeFrame f).gauge = s.gauge ∧ (s.takeFrame f).resetActive = s.resetActive ∧ (s.takeFrame f).clearing = s.clearing
      ∧ (s.takeFrame f).haltPending = s.haltPending ∧ (s.takeFrame f).attnCause = s.attnCause
      ∧ (s.takeFrame f).attnMask = s.attnMask ∧ (s.takeFrame f).setup = s.setup ∧ (s.takeFrame f).pins = s.pins
      ∧ (s.takeFrame f).slots = s.slots ∧ (s.takeFrame f).queue = s.queue ∧ (s.takeFrame f).current = s.current
      ∧ (s.takeFrame f).slot = s.slot ∧ (s.takeFrame f).cycleAt = s.cycleAt ∧ (s.takeFrame f).firing = s.firing
      ∧ (s.takeFrame f).resumePending = s.resumePending ∧ (s.takeFrame f).heads = s.heads ∧ (s.takeFrame f).chans = s.chans
      ∧ (s.takeFrame f).lastValid = s.lastValid ∧ (s.takeFrame f).tracker = s.tracker ∧ (s.takeFrame f).presence = s.presence
      ∧ (s.takeFrame f).records = s.records ∧ (s.takeFrame f).serial = s.serial ∧ (s.takeFrame f).nextSearch = s.nextSearch
      ∧ (s.takeFrame f).tubesCompleted = s.tubesCompleted ∧ (s.takeFrame f).tubesMissed = s.tubesMissed
      ∧ (s.takeFrame f).tube = s.tube ∧ (s.takeFrame f).pool = s.pool ∧ (s.takeFrame f).now = s.now
      ∧ (s.takeFrame f).inputs = s.inputs ∧ (s.takeFrame f).pending = s.pending := by
  simp only [State.takeFrame]
  repeat' split
  all_goals simp

@[simp] theorem State.lineSettled_frame (s : State) :
    s.lineSettled.gauge = s.gauge ∧ s.lineSettled.resetActive = s.resetActive ∧ s.lineSettled.clearing = s.clearing
      ∧ s.lineSettled.haltPending = s.haltPending ∧ s.lineSettled.mem = s.mem ∧ s.lineSettled.attnCause = s.attnCause
      ∧ s.lineSettled.attnMask = s.attnMask ∧ s.lineSettled.setup = s.setup ∧ s.lineSettled.pins = s.pins
      ∧ s.lineSettled.slots = s.slots ∧ s.lineSettled.queue = s.queue ∧ s.lineSettled.current = s.current
      ∧ s.lineSettled.slot = s.slot ∧ s.lineSettled.cycleAt = s.cycleAt ∧ s.lineSettled.firing = s.firing
      ∧ s.lineSettled.resumePending = s.resumePending ∧ s.lineSettled.heads = s.heads ∧ s.lineSettled.chans = s.chans
      ∧ s.lineSettled.lastValid = s.lastValid ∧ s.lineSettled.tracker = s.tracker ∧ s.lineSettled.presence = s.presence
      ∧ s.lineSettled.records = s.records ∧ s.lineSettled.serial = s.serial ∧ s.lineSettled.nextSearch = s.nextSearch
      ∧ s.lineSettled.tubesCompleted = s.tubesCompleted ∧ s.lineSettled.tubesMissed = s.tubesMissed
      ∧ s.lineSettled.tube = s.tube ∧ s.lineSettled.pool = s.pool ∧ s.lineSettled.now = s.now ∧ s.lineSettled.inputs = s.inputs
      ∧ s.lineSettled.pending = s.pending := by
  simp only [State.lineSettled]
  repeat' split
  all_goals simp

@[simp] theorem State.startEdge_frame (s : State) :
    s.startEdge.gauge = s.gauge ∧ s.startEdge.resetActive = s.resetActive ∧ s.startEdge.clearing = s.clearing
      ∧ s.startEdge.haltPending = s.haltPending ∧ s.startEdge.mem = s.mem ∧ s.startEdge.attnCause = s.attnCause
      ∧ s.startEdge.attnMask = s.attnMask ∧ s.startEdge.setup = s.setup ∧ s.startEdge.pins = s.pins
      ∧ s.startEdge.slots = s.slots ∧ s.startEdge.queue = s.queue ∧ s.startEdge.current = s.current ∧ s.startEdge.slot = s.slot
      ∧ s.startEdge.cycleAt = s.cycleAt ∧ s.startEdge.firing = s.firing ∧ s.startEdge.resumePending = s.resumePending
      ∧ s.startEdge.heads = s.heads ∧ s.startEdge.chans = s.chans ∧ s.startEdge.lastValid = s.lastValid
      ∧ s.startEdge.tracker = s.tracker ∧ s.startEdge.presence = s.presence ∧ s.startEdge.records = s.records
      ∧ s.startEdge.serial = s.serial ∧ s.startEdge.nextSearch = s.nextSearch ∧ s.startEdge.tubesCompleted = s.tubesCompleted
      ∧ s.startEdge.tubesMissed = s.tubesMissed ∧ s.startEdge.tube = s.tube ∧ s.startEdge.pool = s.pool
      ∧ s.startEdge.now = s.now ∧ s.startEdge.inputs = s.inputs ∧ s.startEdge.pending = s.pending := by
  simp only [State.startEdge]
  repeat' split
  all_goals simp

@[simp] theorem State.midStart_frame (s : State) (m : Bool) :
    (s.midStart m).gauge = s.gauge ∧ (s.midStart m).resetActive = s.resetActive ∧ (s.midStart m).clearing = s.clearing
      ∧ (s.midStart m).haltPending = s.haltPending ∧ (s.midStart m).mem = s.mem ∧ (s.midStart m).attnCause = s.attnCause
      ∧ (s.midStart m).attnMask = s.attnMask ∧ (s.midStart m).setup = s.setup ∧ (s.midStart m).pins = s.pins
      ∧ (s.midStart m).slots = s.slots ∧ (s.midStart m).queue = s.queue ∧ (s.midStart m).current = s.current
      ∧ (s.midStart m).slot = s.slot ∧ (s.midStart m).cycleAt = s.cycleAt ∧ (s.midStart m).firing = s.firing
      ∧ (s.midStart m).resumePending = s.resumePending ∧ (s.midStart m).heads = s.heads ∧ (s.midStart m).chans = s.chans
      ∧ (s.midStart m).lastValid = s.lastValid ∧ (s.midStart m).tracker = s.tracker ∧ (s.midStart m).presence = s.presence
      ∧ (s.midStart m).records = s.records ∧ (s.midStart m).serial = s.serial ∧ (s.midStart m).nextSearch = s.nextSearch
      ∧ (s.midStart m).tubesCompleted = s.tubesCompleted ∧ (s.midStart m).tubesMissed = s.tubesMissed
      ∧ (s.midStart m).tube = s.tube ∧ (s.midStart m).pool = s.pool ∧ (s.midStart m).now = s.now
      ∧ (s.midStart m).inputs = s.inputs ∧ (s.midStart m).pending = s.pending := by
  simp only [State.midStart]
  repeat' split
  all_goals simp

@[simp] theorem State.gapExpires_frame (s : State) :
    s.gapExpires.gauge = s.gauge ∧ s.gapExpires.resetActive = s.resetActive ∧ s.gapExpires.clearing = s.clearing
      ∧ s.gapExpires.haltPending = s.haltPending ∧ s.gapExpires.attnCause = s.attnCause ∧ s.gapExpires.attnMask = s.attnMask
      ∧ s.gapExpires.setup = s.setup ∧ s.gapExpires.pins = s.pins ∧ s.gapExpires.slots = s.slots ∧ s.gapExpires.queue = s.queue
      ∧ s.gapExpires.current = s.current ∧ s.gapExpires.slot = s.slot ∧ s.gapExpires.cycleAt = s.cycleAt
      ∧ s.gapExpires.firing = s.firing ∧ s.gapExpires.resumePending = s.resumePending ∧ s.gapExpires.heads = s.heads
      ∧ s.gapExpires.chans = s.chans ∧ s.gapExpires.lastValid = s.lastValid ∧ s.gapExpires.tracker = s.tracker
      ∧ s.gapExpires.presence = s.presence ∧ s.gapExpires.records = s.records ∧ s.gapExpires.serial = s.serial
      ∧ s.gapExpires.nextSearch = s.nextSearch ∧ s.gapExpires.tubesCompleted = s.tubesCompleted
      ∧ s.gapExpires.tubesMissed = s.tubesMissed ∧ s.gapExpires.tube = s.tube ∧ s.gapExpires.pool = s.pool
      ∧ s.gapExpires.now = s.now ∧ s.gapExpires.inputs = s.inputs ∧ s.gapExpires.pending = s.pending := by
  simp only [State.gapExpires]
  repeat' split
  all_goals simp

@[simp] theorem State.ageOne_frame (s : State) :
    s.ageOne.gauge = s.gauge ∧ s.ageOne.resetActive = s.resetActive ∧ s.ageOne.clearing = s.clearing
      ∧ s.ageOne.haltPending = s.haltPending ∧ s.ageOne.attnCause = s.attnCause ∧ s.ageOne.attnMask = s.attnMask
      ∧ s.ageOne.setup = s.setup ∧ s.ageOne.pins = s.pins ∧ s.ageOne.slots = s.slots ∧ s.ageOne.queue = s.queue
      ∧ s.ageOne.current = s.current ∧ s.ageOne.slot = s.slot ∧ s.ageOne.cycleAt = s.cycleAt ∧ s.ageOne.firing = s.firing
      ∧ s.ageOne.resumePending = s.resumePending ∧ s.ageOne.heads = s.heads ∧ s.ageOne.chans = s.chans
      ∧ s.ageOne.lastValid = s.lastValid ∧ s.ageOne.tracker = s.tracker ∧ s.ageOne.presence = s.presence
      ∧ s.ageOne.records = s.records ∧ s.ageOne.serial = s.serial ∧ s.ageOne.nextSearch = s.nextSearch
      ∧ s.ageOne.tubesCompleted = s.tubesCompleted ∧ s.ageOne.tubesMissed = s.tubesMissed ∧ s.ageOne.tube = s.tube
      ∧ s.ageOne.pool = s.pool ∧ s.ageOne.now = s.now ∧ s.ageOne.inputs = s.inputs ∧ s.ageOne.pending = s.pending := by
  simp only [State.ageOne]
  repeat' split
  all_goals simp

end Sys2Proof.Machine
end

