-- ==== Sys2Proof/Laws/Pool.lean ====
section
/-! SUPPORT. What the block pool manager's operations change, and what each of them does. For each operation, one lemma that says which parts of the state it leaves alone. -/

namespace Sys2Proof.Machine

@[simp] theorem State.putFreeCount_frame (s : State) :
    s.putFreeCount.gauge = s.gauge ∧ s.putFreeCount.resetActive = s.resetActive ∧ s.putFreeCount.clearing = s.clearing
      ∧ s.putFreeCount.haltPending = s.haltPending ∧ s.putFreeCount.attnCause = s.attnCause
      ∧ s.putFreeCount.attnMask = s.attnMask ∧ s.putFreeCount.setup = s.setup ∧ s.putFreeCount.pins = s.pins
      ∧ s.putFreeCount.slots = s.slots ∧ s.putFreeCount.queue = s.queue ∧ s.putFreeCount.current = s.current
      ∧ s.putFreeCount.slot = s.slot ∧ s.putFreeCount.cycleAt = s.cycleAt ∧ s.putFreeCount.firing = s.firing
      ∧ s.putFreeCount.resumePending = s.resumePending ∧ s.putFreeCount.heads = s.heads ∧ s.putFreeCount.chans = s.chans
      ∧ s.putFreeCount.lastValid = s.lastValid ∧ s.putFreeCount.tracker = s.tracker ∧ s.putFreeCount.presence = s.presence
      ∧ s.putFreeCount.link = s.link ∧ s.putFreeCount.records = s.records ∧ s.putFreeCount.serial = s.serial
      ∧ s.putFreeCount.nextSearch = s.nextSearch ∧ s.putFreeCount.tubesCompleted = s.tubesCompleted
      ∧ s.putFreeCount.tubesMissed = s.tubesMissed ∧ s.putFreeCount.tube = s.tube ∧ s.putFreeCount.pool = s.pool
      ∧ s.putFreeCount.now = s.now ∧ s.putFreeCount.inputs = s.inputs ∧ s.putFreeCount.pending = s.pending := by
  simp only [State.putFreeCount]
  simp

@[simp] theorem State.judgeLow_frame (s : State) :
    s.judgeLow.gauge = s.gauge ∧ s.judgeLow.resetActive = s.resetActive ∧ s.judgeLow.clearing = s.clearing
      ∧ s.judgeLow.haltPending = s.haltPending ∧ s.judgeLow.mem = s.mem ∧ s.judgeLow.attnMask = s.attnMask
      ∧ s.judgeLow.setup = s.setup ∧ s.judgeLow.pins = s.pins ∧ s.judgeLow.slots = s.slots ∧ s.judgeLow.queue = s.queue
      ∧ s.judgeLow.current = s.current ∧ s.judgeLow.slot = s.slot ∧ s.judgeLow.cycleAt = s.cycleAt
      ∧ s.judgeLow.firing = s.firing ∧ s.judgeLow.resumePending = s.resumePending ∧ s.judgeLow.heads = s.heads
      ∧ s.judgeLow.chans = s.chans ∧ s.judgeLow.lastValid = s.lastValid ∧ s.judgeLow.tracker = s.tracker
      ∧ s.judgeLow.presence = s.presence ∧ s.judgeLow.link = s.link ∧ s.judgeLow.records = s.records
      ∧ s.judgeLow.serial = s.serial ∧ s.judgeLow.nextSearch = s.nextSearch ∧ s.judgeLow.tubesCompleted = s.tubesCompleted
      ∧ s.judgeLow.tubesMissed = s.tubesMissed ∧ s.judgeLow.tube = s.tube ∧ s.judgeLow.now = s.now
      ∧ s.judgeLow.inputs = s.inputs ∧ s.judgeLow.pending = s.pending := by
  simp only [State.judgeLow]
  repeat' split
  all_goals simp

@[simp] theorem State.rearmLow_frame (s : State) :
    s.rearmLow.gauge = s.gauge ∧ s.rearmLow.resetActive = s.resetActive ∧ s.rearmLow.clearing = s.clearing
      ∧ s.rearmLow.haltPending = s.haltPending ∧ s.rearmLow.mem = s.mem ∧ s.rearmLow.attnCause = s.attnCause
      ∧ s.rearmLow.attnMask = s.attnMask ∧ s.rearmLow.setup = s.setup ∧ s.rearmLow.pins = s.pins ∧ s.rearmLow.slots = s.slots
      ∧ s.rearmLow.queue = s.queue ∧ s.rearmLow.current = s.current ∧ s.rearmLow.slot = s.slot ∧ s.rearmLow.cycleAt = s.cycleAt
      ∧ s.rearmLow.firing = s.firing ∧ s.rearmLow.resumePending = s.resumePending ∧ s.rearmLow.heads = s.heads
      ∧ s.rearmLow.chans = s.chans ∧ s.rearmLow.lastValid = s.lastValid ∧ s.rearmLow.tracker = s.tracker
      ∧ s.rearmLow.presence = s.presence ∧ s.rearmLow.link = s.link ∧ s.rearmLow.records = s.records
      ∧ s.rearmLow.serial = s.serial ∧ s.rearmLow.nextSearch = s.nextSearch ∧ s.rearmLow.tubesCompleted = s.tubesCompleted
      ∧ s.rearmLow.tubesMissed = s.tubesMissed ∧ s.rearmLow.tube = s.tube ∧ s.rearmLow.now = s.now
      ∧ s.rearmLow.inputs = s.inputs ∧ s.rearmLow.pending = s.pending := by
  simp only [State.rearmLow]
  repeat' split
  all_goals simp

@[simp] theorem State.judgeLowAtRun_frame (s : State) :
    s.judgeLowAtRun.gauge = s.gauge ∧ s.judgeLowAtRun.resetActive = s.resetActive ∧ s.judgeLowAtRun.clearing = s.clearing
      ∧ s.judgeLowAtRun.haltPending = s.haltPending ∧ s.judgeLowAtRun.mem = s.mem ∧ s.judgeLowAtRun.attnMask = s.attnMask
      ∧ s.judgeLowAtRun.setup = s.setup ∧ s.judgeLowAtRun.pins = s.pins ∧ s.judgeLowAtRun.slots = s.slots
      ∧ s.judgeLowAtRun.queue = s.queue ∧ s.judgeLowAtRun.current = s.current ∧ s.judgeLowAtRun.slot = s.slot
      ∧ s.judgeLowAtRun.cycleAt = s.cycleAt ∧ s.judgeLowAtRun.firing = s.firing
      ∧ s.judgeLowAtRun.resumePending = s.resumePending ∧ s.judgeLowAtRun.heads = s.heads ∧ s.judgeLowAtRun.chans = s.chans
      ∧ s.judgeLowAtRun.lastValid = s.lastValid ∧ s.judgeLowAtRun.tracker = s.tracker ∧ s.judgeLowAtRun.presence = s.presence
      ∧ s.judgeLowAtRun.link = s.link ∧ s.judgeLowAtRun.records = s.records ∧ s.judgeLowAtRun.serial = s.serial
      ∧ s.judgeLowAtRun.nextSearch = s.nextSearch ∧ s.judgeLowAtRun.tubesCompleted = s.tubesCompleted
      ∧ s.judgeLowAtRun.tubesMissed = s.tubesMissed ∧ s.judgeLowAtRun.tube = s.tube ∧ s.judgeLowAtRun.now = s.now
      ∧ s.judgeLowAtRun.inputs = s.inputs ∧ s.judgeLowAtRun.pending = s.pending := by
  simp only [State.judgeLowAtRun]
  repeat' split
  all_goals simp

@[simp] theorem State.takeBlock_frame (s : State) (r : RecNo) (b : BlockNo) (rest : List BlockNo) :
    (s.takeBlock r b rest).gauge = s.gauge ∧ (s.takeBlock r b rest).resetActive = s.resetActive
      ∧ (s.takeBlock r b rest).clearing = s.clearing ∧ (s.takeBlock r b rest).haltPending = s.haltPending
      ∧ (s.takeBlock r b rest).attnMask = s.attnMask ∧ (s.takeBlock r b rest).setup = s.setup
      ∧ (s.takeBlock r b rest).pins = s.pins ∧ (s.takeBlock r b rest).slots = s.slots ∧ (s.takeBlock r b rest).queue = s.queue
      ∧ (s.takeBlock r b rest).current = s.current ∧ (s.takeBlock r b rest).slot = s.slot
      ∧ (s.takeBlock r b rest).cycleAt = s.cycleAt ∧ (s.takeBlock r b rest).firing = s.firing
      ∧ (s.takeBlock r b rest).resumePending = s.resumePending ∧ (s.takeBlock r b rest).heads = s.heads
      ∧ (s.takeBlock r b rest).chans = s.chans ∧ (s.takeBlock r b rest).lastValid = s.lastValid
      ∧ (s.takeBlock r b rest).tracker = s.tracker ∧ (s.takeBlock r b rest).presence = s.presence
      ∧ (s.takeBlock r b rest).link = s.link ∧ (s.takeBlock r b rest).records = s.records
      ∧ (s.takeBlock r b rest).serial = s.serial ∧ (s.takeBlock r b rest).nextSearch = s.nextSearch
      ∧ (s.takeBlock r b rest).tubesCompleted = s.tubesCompleted ∧ (s.takeBlock r b rest).tubesMissed = s.tubesMissed
      ∧ (s.takeBlock r b rest).tube = s.tube ∧ (s.takeBlock r b rest).now = s.now ∧ (s.takeBlock r b rest).inputs = s.inputs
      ∧ (s.takeBlock r b rest).pending = s.pending := by
  simp only [State.takeBlock]
  simp

@[simp] theorem State.returnBlock_frame (s : State) (b : BlockNo) :
    (s.returnBlock b).gauge = s.gauge ∧ (s.returnBlock b).resetActive = s.resetActive ∧ (s.returnBlock b).clearing = s.clearing
      ∧ (s.returnBlock b).haltPending = s.haltPending ∧ (s.returnBlock b).attnCause = s.attnCause
      ∧ (s.returnBlock b).attnMask = s.attnMask ∧ (s.returnBlock b).setup = s.setup ∧ (s.returnBlock b).pins = s.pins
      ∧ (s.returnBlock b).slots = s.slots ∧ (s.returnBlock b).queue = s.queue ∧ (s.returnBlock b).current = s.current
      ∧ (s.returnBlock b).slot = s.slot ∧ (s.returnBlock b).cycleAt = s.cycleAt ∧ (s.returnBlock b).firing = s.firing
      ∧ (s.returnBlock b).resumePending = s.resumePending ∧ (s.returnBlock b).heads = s.heads
      ∧ (s.returnBlock b).chans = s.chans ∧ (s.returnBlock b).lastValid = s.lastValid ∧ (s.returnBlock b).tracker = s.tracker
      ∧ (s.returnBlock b).presence = s.presence ∧ (s.returnBlock b).link = s.link ∧ (s.returnBlock b).records = s.records
      ∧ (s.returnBlock b).serial = s.serial ∧ (s.returnBlock b).nextSearch = s.nextSearch
      ∧ (s.returnBlock b).tubesCompleted = s.tubesCompleted ∧ (s.returnBlock b).tubesMissed = s.tubesMissed
      ∧ (s.returnBlock b).tube = s.tube ∧ (s.returnBlock b).now = s.now ∧ (s.returnBlock b).inputs = s.inputs
      ∧ (s.returnBlock b).pending = s.pending := by
  simp only [State.returnBlock]
  simp

@[simp] theorem State.serveQueue_frame (s : State) :
    s.serveQueue.gauge = s.gauge ∧ s.serveQueue.resetActive = s.resetActive ∧ s.serveQueue.clearing = s.clearing
      ∧ s.serveQueue.haltPending = s.haltPending ∧ s.serveQueue.mem = s.mem ∧ s.serveQueue.attnCause = s.attnCause
      ∧ s.serveQueue.attnMask = s.attnMask ∧ s.serveQueue.setup = s.setup ∧ s.serveQueue.pins = s.pins
      ∧ s.serveQueue.slots = s.slots ∧ s.serveQueue.queue = s.queue ∧ s.serveQueue.current = s.current
      ∧ s.serveQueue.slot = s.slot ∧ s.serveQueue.cycleAt = s.cycleAt ∧ s.serveQueue.firing = s.firing
      ∧ s.serveQueue.resumePending = s.resumePending ∧ s.serveQueue.heads = s.heads ∧ s.serveQueue.chans = s.chans
      ∧ s.serveQueue.lastValid = s.lastValid ∧ s.serveQueue.tracker = s.tracker ∧ s.serveQueue.presence = s.presence
      ∧ s.serveQueue.link = s.link ∧ s.serveQueue.records = s.records ∧ s.serveQueue.serial = s.serial
      ∧ s.serveQueue.nextSearch = s.nextSearch ∧ s.serveQueue.tubesCompleted = s.tubesCompleted
      ∧ s.serveQueue.tubesMissed = s.tubesMissed ∧ s.serveQueue.tube = s.tube ∧ s.serveQueue.now = s.now
      ∧ s.serveQueue.inputs = s.inputs ∧ s.serveQueue.pending = s.pending := by
  simp only [State.serveQueue]
  repeat' split
  all_goals simp

@[simp] theorem State.scanOne_frame (s : State) :
    s.scanOne.gauge = s.gauge ∧ s.scanOne.resetActive = s.resetActive ∧ s.scanOne.clearing = s.clearing
      ∧ s.scanOne.haltPending = s.haltPending ∧ s.scanOne.attnCause = s.attnCause ∧ s.scanOne.attnMask = s.attnMask
      ∧ s.scanOne.setup = s.setup ∧ s.scanOne.pins = s.pins ∧ s.scanOne.slots = s.slots ∧ s.scanOne.queue = s.queue
      ∧ s.scanOne.current = s.current ∧ s.scanOne.slot = s.slot ∧ s.scanOne.cycleAt = s.cycleAt ∧ s.scanOne.firing = s.firing
      ∧ s.scanOne.resumePending = s.resumePending ∧ s.scanOne.heads = s.heads ∧ s.scanOne.chans = s.chans
      ∧ s.scanOne.lastValid = s.lastValid ∧ s.scanOne.tracker = s.tracker ∧ s.scanOne.presence = s.presence
      ∧ s.scanOne.link = s.link ∧ s.scanOne.records = s.records ∧ s.scanOne.serial = s.serial
      ∧ s.scanOne.nextSearch = s.nextSearch ∧ s.scanOne.tubesCompleted = s.tubesCompleted
      ∧ s.scanOne.tubesMissed = s.tubesMissed ∧ s.scanOne.tube = s.tube ∧ s.scanOne.now = s.now ∧ s.scanOne.inputs = s.inputs
      ∧ s.scanOne.pending = s.pending := by
  simp only [State.scanOne]
  repeat' split
  all_goals simp

@[simp] theorem State.scanFinish_frame (s : State) :
    s.scanFinish.gauge = s.gauge ∧ s.scanFinish.resetActive = s.resetActive ∧ s.scanFinish.clearing = s.clearing
      ∧ s.scanFinish.haltPending = s.haltPending ∧ s.scanFinish.attnMask = s.attnMask ∧ s.scanFinish.setup = s.setup
      ∧ s.scanFinish.pins = s.pins ∧ s.scanFinish.slots = s.slots ∧ s.scanFinish.queue = s.queue
      ∧ s.scanFinish.current = s.current ∧ s.scanFinish.slot = s.slot ∧ s.scanFinish.cycleAt = s.cycleAt
      ∧ s.scanFinish.firing = s.firing ∧ s.scanFinish.resumePending = s.resumePending ∧ s.scanFinish.heads = s.heads
      ∧ s.scanFinish.chans = s.chans ∧ s.scanFinish.lastValid = s.lastValid ∧ s.scanFinish.tracker = s.tracker
      ∧ s.scanFinish.presence = s.presence ∧ s.scanFinish.link = s.link ∧ s.scanFinish.serial = s.serial
      ∧ s.scanFinish.nextSearch = s.nextSearch ∧ s.scanFinish.tubesCompleted = s.tubesCompleted
      ∧ s.scanFinish.tubesMissed = s.tubesMissed ∧ s.scanFinish.tube = s.tube ∧ s.scanFinish.now = s.now
      ∧ s.scanFinish.inputs = s.inputs ∧ s.scanFinish.pending = s.pending := by
  simp only [State.scanFinish]
  repeat' split
  all_goals simp

@[simp] theorem State.answerRec_frame (s : State) (r : RecNo) (a : Word) :
    (s.answerRec r a).gauge = s.gauge ∧ (s.answerRec r a).resetActive = s.resetActive ∧ (s.answerRec r a).clearing = s.clearing
      ∧ (s.answerRec r a).haltPending = s.haltPending ∧ (s.answerRec r a).attnMask = s.attnMask
      ∧ (s.answerRec r a).setup = s.setup ∧ (s.answerRec r a).pins = s.pins ∧ (s.answerRec r a).slots = s.slots
      ∧ (s.answerRec r a).queue = s.queue ∧ (s.answerRec r a).current = s.current ∧ (s.answerRec r a).slot = s.slot
      ∧ (s.answerRec r a).cycleAt = s.cycleAt ∧ (s.answerRec r a).firing = s.firing
      ∧ (s.answerRec r a).resumePending = s.resumePending ∧ (s.answerRec r a).heads = s.heads
      ∧ (s.answerRec r a).chans = s.chans ∧ (s.answerRec r a).lastValid = s.lastValid ∧ (s.answerRec r a).tracker = s.tracker
      ∧ (s.answerRec r a).presence = s.presence ∧ (s.answerRec r a).link = s.link ∧ (s.answerRec r a).records = s.records
      ∧ (s.answerRec r a).serial = s.serial ∧ (s.answerRec r a).nextSearch = s.nextSearch
      ∧ (s.answerRec r a).tubesCompleted = s.tubesCompleted ∧ (s.answerRec r a).tubesMissed = s.tubesMissed
      ∧ (s.answerRec r a).tube = s.tube ∧ (s.answerRec r a).pool = s.pool ∧ (s.answerRec r a).now = s.now
      ∧ (s.answerRec r a).inputs = s.inputs ∧ (s.answerRec r a).pending = s.pending := by
  simp only [State.answerRec]
  simp

@[simp] theorem State.recRequest_frame (s : State) (r : RecNo) (v : Word) :
    (s.recRequest r v).gauge = s.gauge ∧ (s.recRequest r v).resetActive = s.resetActive
      ∧ (s.recRequest r v).clearing = s.clearing ∧ (s.recRequest r v).haltPending = s.haltPending
      ∧ (s.recRequest r v).attnMask = s.attnMask ∧ (s.recRequest r v).setup = s.setup ∧ (s.recRequest r v).pins = s.pins
      ∧ (s.recRequest r v).slots = s.slots ∧ (s.recRequest r v).queue = s.queue ∧ (s.recRequest r v).current = s.current
      ∧ (s.recRequest r v).slot = s.slot ∧ (s.recRequest r v).cycleAt = s.cycleAt ∧ (s.recRequest r v).firing = s.firing
      ∧ (s.recRequest r v).resumePending = s.resumePending ∧ (s.recRequest r v).heads = s.heads
      ∧ (s.recRequest r v).chans = s.chans ∧ (s.recRequest r v).lastValid = s.lastValid ∧ (s.recRequest r v).tracker = s.tracker
      ∧ (s.recRequest r v).presence = s.presence ∧ (s.recRequest r v).link = s.link ∧ (s.recRequest r v).serial = s.serial
      ∧ (s.recRequest r v).nextSearch = s.nextSearch ∧ (s.recRequest r v).tubesCompleted = s.tubesCompleted
      ∧ (s.recRequest r v).tubesMissed = s.tubesMissed ∧ (s.recRequest r v).tube = s.tube ∧ (s.recRequest r v).now = s.now
      ∧ (s.recRequest r v).inputs = s.inputs ∧ (s.recRequest r v).pending = s.pending := by
  simp only [State.recRequest]
  repeat' split
  all_goals simp

end Sys2Proof.Machine
end

