-- ==== Sys2Proof/Laws/Sections.lean ====
section
/-! SUPPORT. What the section operations change. For each operation, one lemma that says which parts of the state it leaves alone. -/

namespace Sys2Proof.Machine

@[simp] theorem State.noteValid_frame (s : State) (r : ShotRecord) :
    (s.noteValid r).gauge = s.gauge ∧ (s.noteValid r).resetActive = s.resetActive ∧ (s.noteValid r).clearing = s.clearing
      ∧ (s.noteValid r).haltPending = s.haltPending ∧ (s.noteValid r).attnCause = s.attnCause
      ∧ (s.noteValid r).attnMask = s.attnMask ∧ (s.noteValid r).setup = s.setup ∧ (s.noteValid r).pins = s.pins
      ∧ (s.noteValid r).slots = s.slots ∧ (s.noteValid r).queue = s.queue ∧ (s.noteValid r).current = s.current
      ∧ (s.noteValid r).slot = s.slot ∧ (s.noteValid r).cycleAt = s.cycleAt ∧ (s.noteValid r).firing = s.firing
      ∧ (s.noteValid r).resumePending = s.resumePending ∧ (s.noteValid r).heads = s.heads ∧ (s.noteValid r).chans = s.chans
      ∧ (s.noteValid r).tracker = s.tracker ∧ (s.noteValid r).presence = s.presence ∧ (s.noteValid r).link = s.link
      ∧ (s.noteValid r).records = s.records ∧ (s.noteValid r).serial = s.serial ∧ (s.noteValid r).nextSearch = s.nextSearch
      ∧ (s.noteValid r).tubesCompleted = s.tubesCompleted ∧ (s.noteValid r).tubesMissed = s.tubesMissed
      ∧ (s.noteValid r).tube = s.tube ∧ (s.noteValid r).pool = s.pool ∧ (s.noteValid r).now = s.now
      ∧ (s.noteValid r).inputs = s.inputs ∧ (s.noteValid r).pending = s.pending := by
  simp only [State.noteValid]
  repeat' split
  all_goals simp

@[simp] theorem State.offerSection_frame (s : State) (x : SectionResult) :
    (s.offerSection x).gauge = s.gauge ∧ (s.offerSection x).resetActive = s.resetActive
      ∧ (s.offerSection x).clearing = s.clearing ∧ (s.offerSection x).haltPending = s.haltPending
      ∧ (s.offerSection x).mem = s.mem ∧ (s.offerSection x).attnCause = s.attnCause ∧ (s.offerSection x).attnMask = s.attnMask
      ∧ (s.offerSection x).setup = s.setup ∧ (s.offerSection x).pins = s.pins ∧ (s.offerSection x).slots = s.slots
      ∧ (s.offerSection x).queue = s.queue ∧ (s.offerSection x).current = s.current ∧ (s.offerSection x).slot = s.slot
      ∧ (s.offerSection x).cycleAt = s.cycleAt ∧ (s.offerSection x).firing = s.firing
      ∧ (s.offerSection x).resumePending = s.resumePending ∧ (s.offerSection x).heads = s.heads
      ∧ (s.offerSection x).chans = s.chans ∧ (s.offerSection x).lastValid = s.lastValid ∧ (s.offerSection x).tracker = s.tracker
      ∧ (s.offerSection x).presence = s.presence ∧ (s.offerSection x).link = s.link ∧ (s.offerSection x).records = s.records
      ∧ (s.offerSection x).serial = s.serial ∧ (s.offerSection x).nextSearch = s.nextSearch
      ∧ (s.offerSection x).tubesCompleted = s.tubesCompleted ∧ (s.offerSection x).tubesMissed = s.tubesMissed
      ∧ (s.offerSection x).pool = s.pool ∧ (s.offerSection x).now = s.now ∧ (s.offerSection x).inputs = s.inputs
      ∧ (s.offerSection x).pending = s.pending := by
  simp only [State.offerSection]
  simp

@[simp] theorem State.loseSection_frame (s : State) (r : RecNo) (t : Tube) (x : SectionResult) :
    (s.loseSection r t x).gauge = s.gauge ∧ (s.loseSection r t x).resetActive = s.resetActive
      ∧ (s.loseSection r t x).clearing = s.clearing ∧ (s.loseSection r t x).haltPending = s.haltPending
      ∧ (s.loseSection r t x).attnCause = s.attnCause ∧ (s.loseSection r t x).attnMask = s.attnMask
      ∧ (s.loseSection r t x).setup = s.setup ∧ (s.loseSection r t x).pins = s.pins ∧ (s.loseSection r t x).slots = s.slots
      ∧ (s.loseSection r t x).queue = s.queue ∧ (s.loseSection r t x).current = s.current ∧ (s.loseSection r t x).slot = s.slot
      ∧ (s.loseSection r t x).cycleAt = s.cycleAt ∧ (s.loseSection r t x).firing = s.firing
      ∧ (s.loseSection r t x).resumePending = s.resumePending ∧ (s.loseSection r t x).heads = s.heads
      ∧ (s.loseSection r t x).chans = s.chans ∧ (s.loseSection r t x).lastValid = s.lastValid
      ∧ (s.loseSection r t x).tracker = s.tracker ∧ (s.loseSection r t x).presence = s.presence
      ∧ (s.loseSection r t x).link = s.link ∧ (s.loseSection r t x).records = s.records
      ∧ (s.loseSection r t x).serial = s.serial ∧ (s.loseSection r t x).nextSearch = s.nextSearch
      ∧ (s.loseSection r t x).tubesCompleted = s.tubesCompleted ∧ (s.loseSection r t x).tubesMissed = s.tubesMissed
      ∧ (s.loseSection r t x).pool = s.pool ∧ (s.loseSection r t x).now = s.now ∧ (s.loseSection r t x).inputs = s.inputs
      ∧ (s.loseSection r t x).pending = s.pending := by
  simp only [State.loseSection]
  simp

@[simp] theorem State.publishSection_frame (s : State) (r : RecNo) (t : Tube) (b : BlockNo) (x : SectionResult) :
    (s.publishSection r t b x).gauge = s.gauge ∧ (s.publishSection r t b x).resetActive = s.resetActive
      ∧ (s.publishSection r t b x).clearing = s.clearing ∧ (s.publishSection r t b x).haltPending = s.haltPending
      ∧ (s.publishSection r t b x).attnMask = s.attnMask ∧ (s.publishSection r t b x).setup = s.setup
      ∧ (s.publishSection r t b x).pins = s.pins ∧ (s.publishSection r t b x).slots = s.slots
      ∧ (s.publishSection r t b x).queue = s.queue ∧ (s.publishSection r t b x).current = s.current
      ∧ (s.publishSection r t b x).slot = s.slot ∧ (s.publishSection r t b x).cycleAt = s.cycleAt
      ∧ (s.publishSection r t b x).firing = s.firing ∧ (s.publishSection r t b x).resumePending = s.resumePending
      ∧ (s.publishSection r t b x).heads = s.heads ∧ (s.publishSection r t b x).chans = s.chans
      ∧ (s.publishSection r t b x).lastValid = s.lastValid ∧ (s.publishSection r t b x).tracker = s.tracker
      ∧ (s.publishSection r t b x).presence = s.presence ∧ (s.publishSection r t b x).link = s.link
      ∧ (s.publishSection r t b x).records = s.records ∧ (s.publishSection r t b x).serial = s.serial
      ∧ (s.publishSection r t b x).nextSearch = s.nextSearch ∧ (s.publishSection r t b x).tubesCompleted = s.tubesCompleted
      ∧ (s.publishSection r t b x).tubesMissed = s.tubesMissed ∧ (s.publishSection r t b x).pool = s.pool
      ∧ (s.publishSection r t b x).now = s.now ∧ (s.publishSection r t b x).inputs = s.inputs
      ∧ (s.publishSection r t b x).pending = s.pending := by
  simp only [State.publishSection]
  repeat' split
  all_goals simp

@[simp] theorem State.writeSection_frame (s : State) (x : SectionResult) :
    (s.writeSection x).gauge = s.gauge ∧ (s.writeSection x).resetActive = s.resetActive
      ∧ (s.writeSection x).clearing = s.clearing ∧ (s.writeSection x).haltPending = s.haltPending
      ∧ (s.writeSection x).attnMask = s.attnMask ∧ (s.writeSection x).setup = s.setup ∧ (s.writeSection x).pins = s.pins
      ∧ (s.writeSection x).slots = s.slots ∧ (s.writeSection x).queue = s.queue ∧ (s.writeSection x).current = s.current
      ∧ (s.writeSection x).slot = s.slot ∧ (s.writeSection x).cycleAt = s.cycleAt ∧ (s.writeSection x).firing = s.firing
      ∧ (s.writeSection x).resumePending = s.resumePending ∧ (s.writeSection x).heads = s.heads
      ∧ (s.writeSection x).chans = s.chans ∧ (s.writeSection x).lastValid = s.lastValid ∧ (s.writeSection x).tracker = s.tracker
      ∧ (s.writeSection x).presence = s.presence ∧ (s.writeSection x).link = s.link ∧ (s.writeSection x).records = s.records
      ∧ (s.writeSection x).serial = s.serial ∧ (s.writeSection x).nextSearch = s.nextSearch
      ∧ (s.writeSection x).tubesCompleted = s.tubesCompleted ∧ (s.writeSection x).tubesMissed = s.tubesMissed
      ∧ (s.writeSection x).now = s.now ∧ (s.writeSection x).inputs = s.inputs ∧ (s.writeSection x).pending = s.pending := by
  simp only [State.writeSection]
  repeat' split
  all_goals simp

@[simp] theorem State.writeSections_frame (s : State) (xs : List SectionResult) :
    (s.writeSections xs).gauge = s.gauge ∧ (s.writeSections xs).resetActive = s.resetActive
      ∧ (s.writeSections xs).clearing = s.clearing ∧ (s.writeSections xs).haltPending = s.haltPending
      ∧ (s.writeSections xs).attnMask = s.attnMask ∧ (s.writeSections xs).setup = s.setup ∧ (s.writeSections xs).pins = s.pins
      ∧ (s.writeSections xs).slots = s.slots ∧ (s.writeSections xs).queue = s.queue ∧ (s.writeSections xs).current = s.current
      ∧ (s.writeSections xs).slot = s.slot ∧ (s.writeSections xs).cycleAt = s.cycleAt ∧ (s.writeSections xs).firing = s.firing
      ∧ (s.writeSections xs).resumePending = s.resumePending ∧ (s.writeSections xs).heads = s.heads
      ∧ (s.writeSections xs).chans = s.chans ∧ (s.writeSections xs).lastValid = s.lastValid
      ∧ (s.writeSections xs).tracker = s.tracker ∧ (s.writeSections xs).presence = s.presence
      ∧ (s.writeSections xs).link = s.link ∧ (s.writeSections xs).records = s.records ∧ (s.writeSections xs).serial = s.serial
      ∧ (s.writeSections xs).nextSearch = s.nextSearch ∧ (s.writeSections xs).tubesCompleted = s.tubesCompleted
      ∧ (s.writeSections xs).tubesMissed = s.tubesMissed ∧ (s.writeSections xs).now = s.now
      ∧ (s.writeSections xs).inputs = s.inputs ∧ (s.writeSections xs).pending = s.pending := by
  induction xs generalizing s with
  | nil => simp [State.writeSections]
  | cons x xs ih => simp [State.writeSections, ih]

@[simp] theorem State.releasePass_frame (s : State) :
    s.releasePass.gauge = s.gauge ∧ s.releasePass.resetActive = s.resetActive ∧ s.releasePass.clearing = s.clearing
      ∧ s.releasePass.haltPending = s.haltPending ∧ s.releasePass.attnMask = s.attnMask ∧ s.releasePass.setup = s.setup
      ∧ s.releasePass.pins = s.pins ∧ s.releasePass.slots = s.slots ∧ s.releasePass.queue = s.queue
      ∧ s.releasePass.current = s.current ∧ s.releasePass.slot = s.slot ∧ s.releasePass.cycleAt = s.cycleAt
      ∧ s.releasePass.firing = s.firing ∧ s.releasePass.resumePending = s.resumePending ∧ s.releasePass.heads = s.heads
      ∧ s.releasePass.chans = s.chans ∧ s.releasePass.lastValid = s.lastValid ∧ s.releasePass.tracker = s.tracker
      ∧ s.releasePass.presence = s.presence ∧ s.releasePass.link = s.link ∧ s.releasePass.records = s.records
      ∧ s.releasePass.serial = s.serial ∧ s.releasePass.nextSearch = s.nextSearch
      ∧ s.releasePass.tubesCompleted = s.tubesCompleted ∧ s.releasePass.tubesMissed = s.tubesMissed ∧ s.releasePass.now = s.now
      ∧ s.releasePass.inputs = s.inputs ∧ s.releasePass.pending = s.pending := by
  simp only [State.releasePass]
  simp

@[simp] theorem State.appendHeld_frame (s : State) (x : SectionResult) :
    (s.appendHeld x).gauge = s.gauge ∧ (s.appendHeld x).resetActive = s.resetActive ∧ (s.appendHeld x).clearing = s.clearing
      ∧ (s.appendHeld x).haltPending = s.haltPending ∧ (s.appendHeld x).mem = s.mem ∧ (s.appendHeld x).attnCause = s.attnCause
      ∧ (s.appendHeld x).attnMask = s.attnMask ∧ (s.appendHeld x).setup = s.setup ∧ (s.appendHeld x).pins = s.pins
      ∧ (s.appendHeld x).slots = s.slots ∧ (s.appendHeld x).queue = s.queue ∧ (s.appendHeld x).current = s.current
      ∧ (s.appendHeld x).slot = s.slot ∧ (s.appendHeld x).cycleAt = s.cycleAt ∧ (s.appendHeld x).firing = s.firing
      ∧ (s.appendHeld x).resumePending = s.resumePending ∧ (s.appendHeld x).heads = s.heads ∧ (s.appendHeld x).chans = s.chans
      ∧ (s.appendHeld x).lastValid = s.lastValid ∧ (s.appendHeld x).tracker = s.tracker ∧ (s.appendHeld x).presence = s.presence
      ∧ (s.appendHeld x).link = s.link ∧ (s.appendHeld x).records = s.records ∧ (s.appendHeld x).serial = s.serial
      ∧ (s.appendHeld x).nextSearch = s.nextSearch ∧ (s.appendHeld x).tubesCompleted = s.tubesCompleted
      ∧ (s.appendHeld x).tubesMissed = s.tubesMissed ∧ (s.appendHeld x).pool = s.pool ∧ (s.appendHeld x).now = s.now
      ∧ (s.appendHeld x).inputs = s.inputs ∧ (s.appendHeld x).pending = s.pending := by
  simp only [State.appendHeld]
  simp

@[simp] theorem State.completeSection_frame (s : State) (a : Accum) (f : Word) :
    (s.completeSection a f).gauge = s.gauge ∧ (s.completeSection a f).resetActive = s.resetActive
      ∧ (s.completeSection a f).clearing = s.clearing ∧ (s.completeSection a f).haltPending = s.haltPending
      ∧ (s.completeSection a f).attnMask = s.attnMask ∧ (s.completeSection a f).setup = s.setup
      ∧ (s.completeSection a f).pins = s.pins ∧ (s.completeSection a f).slots = s.slots
      ∧ (s.completeSection a f).queue = s.queue ∧ (s.completeSection a f).current = s.current
      ∧ (s.completeSection a f).slot = s.slot ∧ (s.completeSection a f).cycleAt = s.cycleAt
      ∧ (s.completeSection a f).firing = s.firing ∧ (s.completeSection a f).resumePending = s.resumePending
      ∧ (s.completeSection a f).heads = s.heads ∧ (s.completeSection a f).chans = s.chans
      ∧ (s.completeSection a f).lastValid = s.lastValid ∧ (s.completeSection a f).tracker = s.tracker
      ∧ (s.completeSection a f).presence = s.presence ∧ (s.completeSection a f).link = s.link
      ∧ (s.completeSection a f).records = s.records ∧ (s.completeSection a f).serial = s.serial
      ∧ (s.completeSection a f).nextSearch = s.nextSearch ∧ (s.completeSection a f).tubesCompleted = s.tubesCompleted
      ∧ (s.completeSection a f).tubesMissed = s.tubesMissed ∧ (s.completeSection a f).now = s.now
      ∧ (s.completeSection a f).inputs = s.inputs ∧ (s.completeSection a f).pending = s.pending := by
  simp only [State.completeSection]
  simp

@[simp] theorem State.forceClosing_frame (s : State) :
    s.forceClosing.gauge = s.gauge ∧ s.forceClosing.resetActive = s.resetActive ∧ s.forceClosing.clearing = s.clearing
      ∧ s.forceClosing.haltPending = s.haltPending ∧ s.forceClosing.attnMask = s.attnMask ∧ s.forceClosing.setup = s.setup
      ∧ s.forceClosing.pins = s.pins ∧ s.forceClosing.slots = s.slots ∧ s.forceClosing.queue = s.queue
      ∧ s.forceClosing.current = s.current ∧ s.forceClosing.slot = s.slot ∧ s.forceClosing.cycleAt = s.cycleAt
      ∧ s.forceClosing.firing = s.firing ∧ s.forceClosing.resumePending = s.resumePending ∧ s.forceClosing.heads = s.heads
      ∧ s.forceClosing.chans = s.chans ∧ s.forceClosing.lastValid = s.lastValid ∧ s.forceClosing.tracker = s.tracker
      ∧ s.forceClosing.presence = s.presence ∧ s.forceClosing.link = s.link ∧ s.forceClosing.records = s.records
      ∧ s.forceClosing.serial = s.serial ∧ s.forceClosing.nextSearch = s.nextSearch
      ∧ s.forceClosing.tubesCompleted = s.tubesCompleted ∧ s.forceClosing.tubesMissed = s.tubesMissed
      ∧ s.forceClosing.now = s.now ∧ s.forceClosing.inputs = s.inputs ∧ s.forceClosing.pending = s.pending := by
  simp only [State.forceClosing]
  repeat' split
  all_goals simp

@[simp] theorem State.crossOne_frame (s : State) (a : Accum) (m : Word) :
    (s.crossOne a m).gauge = s.gauge ∧ (s.crossOne a m).resetActive = s.resetActive ∧ (s.crossOne a m).clearing = s.clearing
      ∧ (s.crossOne a m).haltPending = s.haltPending ∧ (s.crossOne a m).attnMask = s.attnMask ∧ (s.crossOne a m).setup = s.setup
      ∧ (s.crossOne a m).pins = s.pins ∧ (s.crossOne a m).slots = s.slots ∧ (s.crossOne a m).queue = s.queue
      ∧ (s.crossOne a m).current = s.current ∧ (s.crossOne a m).slot = s.slot ∧ (s.crossOne a m).cycleAt = s.cycleAt
      ∧ (s.crossOne a m).firing = s.firing ∧ (s.crossOne a m).resumePending = s.resumePending ∧ (s.crossOne a m).heads = s.heads
      ∧ (s.crossOne a m).chans = s.chans ∧ (s.crossOne a m).lastValid = s.lastValid ∧ (s.crossOne a m).tracker = s.tracker
      ∧ (s.crossOne a m).presence = s.presence ∧ (s.crossOne a m).link = s.link ∧ (s.crossOne a m).records = s.records
      ∧ (s.crossOne a m).serial = s.serial ∧ (s.crossOne a m).nextSearch = s.nextSearch
      ∧ (s.crossOne a m).tubesCompleted = s.tubesCompleted ∧ (s.crossOne a m).tubesMissed = s.tubesMissed
      ∧ (s.crossOne a m).now = s.now ∧ (s.crossOne a m).inputs = s.inputs ∧ (s.crossOne a m).pending = s.pending := by
  simp only [State.crossOne]
  repeat' split
  all_goals simp

@[simp] theorem State.crossings_frame (s : State) (m : Word) (p q fuel : Nat) :
    (s.crossings m p q fuel).gauge = s.gauge ∧ (s.crossings m p q fuel).resetActive = s.resetActive
      ∧ (s.crossings m p q fuel).clearing = s.clearing ∧ (s.crossings m p q fuel).haltPending = s.haltPending
      ∧ (s.crossings m p q fuel).attnMask = s.attnMask ∧ (s.crossings m p q fuel).setup = s.setup
      ∧ (s.crossings m p q fuel).pins = s.pins ∧ (s.crossings m p q fuel).slots = s.slots
      ∧ (s.crossings m p q fuel).queue = s.queue ∧ (s.crossings m p q fuel).current = s.current
      ∧ (s.crossings m p q fuel).slot = s.slot ∧ (s.crossings m p q fuel).cycleAt = s.cycleAt
      ∧ (s.crossings m p q fuel).firing = s.firing ∧ (s.crossings m p q fuel).resumePending = s.resumePending
      ∧ (s.crossings m p q fuel).heads = s.heads ∧ (s.crossings m p q fuel).chans = s.chans
      ∧ (s.crossings m p q fuel).lastValid = s.lastValid ∧ (s.crossings m p q fuel).tracker = s.tracker
      ∧ (s.crossings m p q fuel).presence = s.presence ∧ (s.crossings m p q fuel).link = s.link
      ∧ (s.crossings m p q fuel).records = s.records ∧ (s.crossings m p q fuel).serial = s.serial
      ∧ (s.crossings m p q fuel).nextSearch = s.nextSearch ∧ (s.crossings m p q fuel).tubesCompleted = s.tubesCompleted
      ∧ (s.crossings m p q fuel).tubesMissed = s.tubesMissed ∧ (s.crossings m p q fuel).now = s.now
      ∧ (s.crossings m p q fuel).inputs = s.inputs ∧ (s.crossings m p q fuel).pending = s.pending := by
  induction fuel generalizing s with
  | zero => simp [State.crossings]
  | succ n ih =>
    simp only [State.crossings]
    repeat' split
    all_goals simp [ih]

@[simp] theorem State.takeChange_frame (s : State) (y : Bool) (p q : Nat) :
    (s.takeChange y p q).gauge = s.gauge ∧ (s.takeChange y p q).resetActive = s.resetActive
      ∧ (s.takeChange y p q).clearing = s.clearing ∧ (s.takeChange y p q).haltPending = s.haltPending
      ∧ (s.takeChange y p q).attnMask = s.attnMask ∧ (s.takeChange y p q).setup = s.setup ∧ (s.takeChange y p q).pins = s.pins
      ∧ (s.takeChange y p q).slots = s.slots ∧ (s.takeChange y p q).queue = s.queue ∧ (s.takeChange y p q).current = s.current
      ∧ (s.takeChange y p q).slot = s.slot ∧ (s.takeChange y p q).cycleAt = s.cycleAt ∧ (s.takeChange y p q).firing = s.firing
      ∧ (s.takeChange y p q).resumePending = s.resumePending ∧ (s.takeChange y p q).heads = s.heads
      ∧ (s.takeChange y p q).chans = s.chans ∧ (s.takeChange y p q).lastValid = s.lastValid
      ∧ (s.takeChange y p q).tracker = s.tracker ∧ (s.takeChange y p q).presence = s.presence
      ∧ (s.takeChange y p q).link = s.link ∧ (s.takeChange y p q).records = s.records ∧ (s.takeChange y p q).serial = s.serial
      ∧ (s.takeChange y p q).nextSearch = s.nextSearch ∧ (s.takeChange y p q).tubesCompleted = s.tubesCompleted
      ∧ (s.takeChange y p q).tubesMissed = s.tubesMissed ∧ (s.takeChange y p q).now = s.now
      ∧ (s.takeChange y p q).inputs = s.inputs ∧ (s.takeChange y p q).pending = s.pending := by
  simp only [State.takeChange]
  simp

@[simp] theorem State.takeRecord_frame (s : State) (r : ShotRecord) :
    (s.takeRecord r).gauge = s.gauge ∧ (s.takeRecord r).resetActive = s.resetActive ∧ (s.takeRecord r).clearing = s.clearing
      ∧ (s.takeRecord r).haltPending = s.haltPending ∧ (s.takeRecord r).attnCause = s.attnCause
      ∧ (s.takeRecord r).attnMask = s.attnMask ∧ (s.takeRecord r).setup = s.setup ∧ (s.takeRecord r).pins = s.pins
      ∧ (s.takeRecord r).slots = s.slots ∧ (s.takeRecord r).queue = s.queue ∧ (s.takeRecord r).current = s.current
      ∧ (s.takeRecord r).slot = s.slot ∧ (s.takeRecord r).cycleAt = s.cycleAt ∧ (s.takeRecord r).firing = s.firing
      ∧ (s.takeRecord r).resumePending = s.resumePending ∧ (s.takeRecord r).heads = s.heads ∧ (s.takeRecord r).chans = s.chans
      ∧ (s.takeRecord r).tracker = s.tracker ∧ (s.takeRecord r).presence = s.presence ∧ (s.takeRecord r).link = s.link
      ∧ (s.takeRecord r).records = s.records ∧ (s.takeRecord r).serial = s.serial ∧ (s.takeRecord r).nextSearch = s.nextSearch
      ∧ (s.takeRecord r).tubesCompleted = s.tubesCompleted ∧ (s.takeRecord r).tubesMissed = s.tubesMissed
      ∧ (s.takeRecord r).pool = s.pool ∧ (s.takeRecord r).now = s.now ∧ (s.takeRecord r).inputs = s.inputs
      ∧ (s.takeRecord r).pending = s.pending := by
  simp only [State.takeRecord]
  simp

@[simp] theorem State.settleClosing_frame (s : State) :
    s.settleClosing.gauge = s.gauge ∧ s.settleClosing.resetActive = s.resetActive ∧ s.settleClosing.clearing = s.clearing
      ∧ s.settleClosing.haltPending = s.haltPending ∧ s.settleClosing.attnMask = s.attnMask ∧ s.settleClosing.setup = s.setup
      ∧ s.settleClosing.pins = s.pins ∧ s.settleClosing.slots = s.slots ∧ s.settleClosing.queue = s.queue
      ∧ s.settleClosing.current = s.current ∧ s.settleClosing.slot = s.slot ∧ s.settleClosing.cycleAt = s.cycleAt
      ∧ s.settleClosing.firing = s.firing ∧ s.settleClosing.resumePending = s.resumePending ∧ s.settleClosing.heads = s.heads
      ∧ s.settleClosing.chans = s.chans ∧ s.settleClosing.lastValid = s.lastValid ∧ s.settleClosing.tracker = s.tracker
      ∧ s.settleClosing.presence = s.presence ∧ s.settleClosing.link = s.link ∧ s.settleClosing.records = s.records
      ∧ s.settleClosing.serial = s.serial ∧ s.settleClosing.nextSearch = s.nextSearch
      ∧ s.settleClosing.tubesCompleted = s.tubesCompleted ∧ s.settleClosing.tubesMissed = s.tubesMissed
      ∧ s.settleClosing.now = s.now ∧ s.settleClosing.inputs = s.inputs ∧ s.settleClosing.pending = s.pending := by
  simp only [State.settleClosing]
  repeat' split
  all_goals simp

end Sys2Proof.Machine
end

