-- ==== Sys2Proof/Laws/Orders.lean ====
section
/-! SUPPORT. What the order manager's operations change. For each operation, one lemma that says which parts of the state it leaves alone. -/

namespace Sys2Proof.Machine

@[simp] theorem State.clampChannel_frame (s : State) (r : Recipe) (k : Head) :
    (s.clampChannel r k).gauge = s.gauge ∧ (s.clampChannel r k).resetActive = s.resetActive
      ∧ (s.clampChannel r k).clearing = s.clearing ∧ (s.clampChannel r k).haltPending = s.haltPending
      ∧ (s.clampChannel r k).attnCause = s.attnCause ∧ (s.clampChannel r k).attnMask = s.attnMask
      ∧ (s.clampChannel r k).setup = s.setup ∧ (s.clampChannel r k).pins = s.pins ∧ (s.clampChannel r k).slots = s.slots
      ∧ (s.clampChannel r k).queue = s.queue ∧ (s.clampChannel r k).current = s.current ∧ (s.clampChannel r k).slot = s.slot
      ∧ (s.clampChannel r k).cycleAt = s.cycleAt ∧ (s.clampChannel r k).firing = s.firing
      ∧ (s.clampChannel r k).resumePending = s.resumePending ∧ (s.clampChannel r k).heads = s.heads
      ∧ (s.clampChannel r k).lastValid = s.lastValid ∧ (s.clampChannel r k).tracker = s.tracker
      ∧ (s.clampChannel r k).presence = s.presence ∧ (s.clampChannel r k).link = s.link
      ∧ (s.clampChannel r k).records = s.records ∧ (s.clampChannel r k).serial = s.serial
      ∧ (s.clampChannel r k).nextSearch = s.nextSearch ∧ (s.clampChannel r k).tubesCompleted = s.tubesCompleted
      ∧ (s.clampChannel r k).tubesMissed = s.tubesMissed ∧ (s.clampChannel r k).tube = s.tube
      ∧ (s.clampChannel r k).pool = s.pool ∧ (s.clampChannel r k).now = s.now ∧ (s.clampChannel r k).inputs = s.inputs
      ∧ (s.clampChannel r k).pending = s.pending := by
  simp only [State.clampChannel]
  simp

@[simp] theorem State.loadChannels_frame (s : State) (r : Recipe) :
    (s.loadChannels r).gauge = s.gauge ∧ (s.loadChannels r).resetActive = s.resetActive
      ∧ (s.loadChannels r).clearing = s.clearing ∧ (s.loadChannels r).haltPending = s.haltPending
      ∧ (s.loadChannels r).attnCause = s.attnCause ∧ (s.loadChannels r).attnMask = s.attnMask
      ∧ (s.loadChannels r).setup = s.setup ∧ (s.loadChannels r).pins = s.pins ∧ (s.loadChannels r).slots = s.slots
      ∧ (s.loadChannels r).queue = s.queue ∧ (s.loadChannels r).current = s.current ∧ (s.loadChannels r).slot = s.slot
      ∧ (s.loadChannels r).cycleAt = s.cycleAt ∧ (s.loadChannels r).firing = s.firing
      ∧ (s.loadChannels r).resumePending = s.resumePending ∧ (s.loadChannels r).heads = s.heads
      ∧ (s.loadChannels r).lastValid = s.lastValid ∧ (s.loadChannels r).tracker = s.tracker
      ∧ (s.loadChannels r).presence = s.presence ∧ (s.loadChannels r).link = s.link ∧ (s.loadChannels r).records = s.records
      ∧ (s.loadChannels r).serial = s.serial ∧ (s.loadChannels r).nextSearch = s.nextSearch
      ∧ (s.loadChannels r).tubesCompleted = s.tubesCompleted ∧ (s.loadChannels r).tubesMissed = s.tubesMissed
      ∧ (s.loadChannels r).tube = s.tube ∧ (s.loadChannels r).pool = s.pool ∧ (s.loadChannels r).now = s.now
      ∧ (s.loadChannels r).inputs = s.inputs ∧ (s.loadChannels r).pending = s.pending := by
  simp only [State.loadChannels, forHeads]
  simp

@[simp] theorem State.amendChannels_frame (s : State) (r : Recipe) (k : Option Head) :
    (s.amendChannels r k).gauge = s.gauge ∧ (s.amendChannels r k).resetActive = s.resetActive
      ∧ (s.amendChannels r k).clearing = s.clearing ∧ (s.amendChannels r k).haltPending = s.haltPending
      ∧ (s.amendChannels r k).attnCause = s.attnCause ∧ (s.amendChannels r k).attnMask = s.attnMask
      ∧ (s.amendChannels r k).setup = s.setup ∧ (s.amendChannels r k).pins = s.pins ∧ (s.amendChannels r k).slots = s.slots
      ∧ (s.amendChannels r k).queue = s.queue ∧ (s.amendChannels r k).current = s.current ∧ (s.amendChannels r k).slot = s.slot
      ∧ (s.amendChannels r k).cycleAt = s.cycleAt ∧ (s.amendChannels r k).firing = s.firing
      ∧ (s.amendChannels r k).resumePending = s.resumePending ∧ (s.amendChannels r k).heads = s.heads
      ∧ (s.amendChannels r k).lastValid = s.lastValid ∧ (s.amendChannels r k).tracker = s.tracker
      ∧ (s.amendChannels r k).presence = s.presence ∧ (s.amendChannels r k).link = s.link
      ∧ (s.amendChannels r k).records = s.records ∧ (s.amendChannels r k).serial = s.serial
      ∧ (s.amendChannels r k).nextSearch = s.nextSearch ∧ (s.amendChannels r k).tubesCompleted = s.tubesCompleted
      ∧ (s.amendChannels r k).tubesMissed = s.tubesMissed ∧ (s.amendChannels r k).tube = s.tube
      ∧ (s.amendChannels r k).pool = s.pool ∧ (s.amendChannels r k).now = s.now ∧ (s.amendChannels r k).inputs = s.inputs
      ∧ (s.amendChannels r k).pending = s.pending := by
  simp only [State.amendChannels, forHeads]
  repeat' split
  all_goals simp

@[simp] theorem State.putSlotState_frame (s : State) (j : SlotNo) :
    (s.putSlotState j).gauge = s.gauge ∧ (s.putSlotState j).resetActive = s.resetActive
      ∧ (s.putSlotState j).clearing = s.clearing ∧ (s.putSlotState j).haltPending = s.haltPending
      ∧ (s.putSlotState j).attnCause = s.attnCause ∧ (s.putSlotState j).attnMask = s.attnMask
      ∧ (s.putSlotState j).setup = s.setup ∧ (s.putSlotState j).pins = s.pins ∧ (s.putSlotState j).slots = s.slots
      ∧ (s.putSlotState j).queue = s.queue ∧ (s.putSlotState j).current = s.current ∧ (s.putSlotState j).slot = s.slot
      ∧ (s.putSlotState j).cycleAt = s.cycleAt ∧ (s.putSlotState j).firing = s.firing
      ∧ (s.putSlotState j).resumePending = s.resumePending ∧ (s.putSlotState j).heads = s.heads
      ∧ (s.putSlotState j).chans = s.chans ∧ (s.putSlotState j).lastValid = s.lastValid ∧ (s.putSlotState j).tracker = s.tracker
      ∧ (s.putSlotState j).presence = s.presence ∧ (s.putSlotState j).link = s.link ∧ (s.putSlotState j).records = s.records
      ∧ (s.putSlotState j).serial = s.serial ∧ (s.putSlotState j).nextSearch = s.nextSearch
      ∧ (s.putSlotState j).tubesCompleted = s.tubesCompleted ∧ (s.putSlotState j).tubesMissed = s.tubesMissed
      ∧ (s.putSlotState j).tube = s.tube ∧ (s.putSlotState j).pool = s.pool ∧ (s.putSlotState j).now = s.now
      ∧ (s.putSlotState j).inputs = s.inputs ∧ (s.putSlotState j).pending = s.pending := by
  simp only [State.putSlotState]
  simp

@[simp] theorem State.putTaken_frame (s : State) (j : SlotNo) :
    (s.putTaken j).gauge = s.gauge ∧ (s.putTaken j).resetActive = s.resetActive ∧ (s.putTaken j).clearing = s.clearing
      ∧ (s.putTaken j).haltPending = s.haltPending ∧ (s.putTaken j).attnCause = s.attnCause
      ∧ (s.putTaken j).attnMask = s.attnMask ∧ (s.putTaken j).setup = s.setup ∧ (s.putTaken j).pins = s.pins
      ∧ (s.putTaken j).slots = s.slots ∧ (s.putTaken j).queue = s.queue ∧ (s.putTaken j).current = s.current
      ∧ (s.putTaken j).slot = s.slot ∧ (s.putTaken j).cycleAt = s.cycleAt ∧ (s.putTaken j).firing = s.firing
      ∧ (s.putTaken j).resumePending = s.resumePending ∧ (s.putTaken j).heads = s.heads ∧ (s.putTaken j).chans = s.chans
      ∧ (s.putTaken j).lastValid = s.lastValid ∧ (s.putTaken j).tracker = s.tracker ∧ (s.putTaken j).presence = s.presence
      ∧ (s.putTaken j).link = s.link ∧ (s.putTaken j).records = s.records ∧ (s.putTaken j).serial = s.serial
      ∧ (s.putTaken j).nextSearch = s.nextSearch ∧ (s.putTaken j).tubesCompleted = s.tubesCompleted
      ∧ (s.putTaken j).tubesMissed = s.tubesMissed ∧ (s.putTaken j).tube = s.tube ∧ (s.putTaken j).pool = s.pool
      ∧ (s.putTaken j).now = s.now ∧ (s.putTaken j).inputs = s.inputs ∧ (s.putTaken j).pending = s.pending := by
  simp only [State.putTaken]
  simp

@[simp] theorem State.putQueue_frame (s : State) :
    s.putQueue.gauge = s.gauge ∧ s.putQueue.resetActive = s.resetActive ∧ s.putQueue.clearing = s.clearing
      ∧ s.putQueue.haltPending = s.haltPending ∧ s.putQueue.attnCause = s.attnCause ∧ s.putQueue.attnMask = s.attnMask
      ∧ s.putQueue.setup = s.setup ∧ s.putQueue.pins = s.pins ∧ s.putQueue.slots = s.slots ∧ s.putQueue.queue = s.queue
      ∧ s.putQueue.current = s.current ∧ s.putQueue.slot = s.slot ∧ s.putQueue.cycleAt = s.cycleAt
      ∧ s.putQueue.firing = s.firing ∧ s.putQueue.resumePending = s.resumePending ∧ s.putQueue.heads = s.heads
      ∧ s.putQueue.chans = s.chans ∧ s.putQueue.lastValid = s.lastValid ∧ s.putQueue.tracker = s.tracker
      ∧ s.putQueue.presence = s.presence ∧ s.putQueue.link = s.link ∧ s.putQueue.records = s.records
      ∧ s.putQueue.serial = s.serial ∧ s.putQueue.nextSearch = s.nextSearch ∧ s.putQueue.tubesCompleted = s.tubesCompleted
      ∧ s.putQueue.tubesMissed = s.tubesMissed ∧ s.putQueue.tube = s.tube ∧ s.putQueue.pool = s.pool ∧ s.putQueue.now = s.now
      ∧ s.putQueue.inputs = s.inputs ∧ s.putQueue.pending = s.pending := by
  simp only [State.putQueue]
  simp

@[simp] theorem State.putCurrent_frame (s : State) :
    s.putCurrent.gauge = s.gauge ∧ s.putCurrent.resetActive = s.resetActive ∧ s.putCurrent.clearing = s.clearing
      ∧ s.putCurrent.haltPending = s.haltPending ∧ s.putCurrent.attnCause = s.attnCause ∧ s.putCurrent.attnMask = s.attnMask
      ∧ s.putCurrent.setup = s.setup ∧ s.putCurrent.pins = s.pins ∧ s.putCurrent.slots = s.slots ∧ s.putCurrent.queue = s.queue
      ∧ s.putCurrent.current = s.current ∧ s.putCurrent.slot = s.slot ∧ s.putCurrent.cycleAt = s.cycleAt
      ∧ s.putCurrent.firing = s.firing ∧ s.putCurrent.resumePending = s.resumePending ∧ s.putCurrent.heads = s.heads
      ∧ s.putCurrent.chans = s.chans ∧ s.putCurrent.lastValid = s.lastValid ∧ s.putCurrent.tracker = s.tracker
      ∧ s.putCurrent.presence = s.presence ∧ s.putCurrent.link = s.link ∧ s.putCurrent.records = s.records
      ∧ s.putCurrent.serial = s.serial ∧ s.putCurrent.nextSearch = s.nextSearch ∧ s.putCurrent.tubesCompleted = s.tubesCompleted
      ∧ s.putCurrent.tubesMissed = s.tubesMissed ∧ s.putCurrent.tube = s.tube ∧ s.putCurrent.pool = s.pool
      ∧ s.putCurrent.now = s.now ∧ s.putCurrent.inputs = s.inputs ∧ s.putCurrent.pending = s.pending := by
  simp only [State.putCurrent]
  simp

@[simp] theorem State.answerSlot_frame (s : State) (j : SlotNo) (a : Word) :
    (s.answerSlot j a).gauge = s.gauge ∧ (s.answerSlot j a).resetActive = s.resetActive
      ∧ (s.answerSlot j a).clearing = s.clearing ∧ (s.answerSlot j a).haltPending = s.haltPending
      ∧ (s.answerSlot j a).attnMask = s.attnMask ∧ (s.answerSlot j a).setup = s.setup ∧ (s.answerSlot j a).pins = s.pins
      ∧ (s.answerSlot j a).slots = s.slots ∧ (s.answerSlot j a).queue = s.queue ∧ (s.answerSlot j a).current = s.current
      ∧ (s.answerSlot j a).slot = s.slot ∧ (s.answerSlot j a).cycleAt = s.cycleAt ∧ (s.answerSlot j a).firing = s.firing
      ∧ (s.answerSlot j a).resumePending = s.resumePending ∧ (s.answerSlot j a).heads = s.heads
      ∧ (s.answerSlot j a).chans = s.chans ∧ (s.answerSlot j a).lastValid = s.lastValid ∧ (s.answerSlot j a).tracker = s.tracker
      ∧ (s.answerSlot j a).presence = s.presence ∧ (s.answerSlot j a).link = s.link ∧ (s.answerSlot j a).records = s.records
      ∧ (s.answerSlot j a).serial = s.serial ∧ (s.answerSlot j a).nextSearch = s.nextSearch
      ∧ (s.answerSlot j a).tubesCompleted = s.tubesCompleted ∧ (s.answerSlot j a).tubesMissed = s.tubesMissed
      ∧ (s.answerSlot j a).tube = s.tube ∧ (s.answerSlot j a).pool = s.pool ∧ (s.answerSlot j a).now = s.now
      ∧ (s.answerSlot j a).inputs = s.inputs ∧ (s.answerSlot j a).pending = s.pending := by
  simp only [State.answerSlot]
  repeat' split
  all_goals simp

@[simp] theorem State.spendSlot_frame (s : State) (j : SlotNo) :
    (s.spendSlot j).gauge = s.gauge ∧ (s.spendSlot j).resetActive = s.resetActive ∧ (s.spendSlot j).clearing = s.clearing
      ∧ (s.spendSlot j).haltPending = s.haltPending ∧ (s.spendSlot j).attnMask = s.attnMask ∧ (s.spendSlot j).setup = s.setup
      ∧ (s.spendSlot j).pins = s.pins ∧ (s.spendSlot j).queue = s.queue ∧ (s.spendSlot j).slot = s.slot
      ∧ (s.spendSlot j).cycleAt = s.cycleAt ∧ (s.spendSlot j).firing = s.firing
      ∧ (s.spendSlot j).resumePending = s.resumePending ∧ (s.spendSlot j).heads = s.heads ∧ (s.spendSlot j).chans = s.chans
      ∧ (s.spendSlot j).lastValid = s.lastValid ∧ (s.spendSlot j).tracker = s.tracker ∧ (s.spendSlot j).presence = s.presence
      ∧ (s.spendSlot j).link = s.link ∧ (s.spendSlot j).records = s.records ∧ (s.spendSlot j).serial = s.serial
      ∧ (s.spendSlot j).nextSearch = s.nextSearch ∧ (s.spendSlot j).tubesCompleted = s.tubesCompleted
      ∧ (s.spendSlot j).tubesMissed = s.tubesMissed ∧ (s.spendSlot j).tube = s.tube ∧ (s.spendSlot j).pool = s.pool
      ∧ (s.spendSlot j).now = s.now ∧ (s.spendSlot j).inputs = s.inputs ∧ (s.spendSlot j).pending = s.pending := by
  simp only [State.spendSlot]
  repeat' split
  all_goals simp

@[simp] theorem State.acceptPost_frame (s : State) (j : SlotNo) :
    (s.acceptPost j).gauge = s.gauge ∧ (s.acceptPost j).resetActive = s.resetActive ∧ (s.acceptPost j).clearing = s.clearing
      ∧ (s.acceptPost j).haltPending = s.haltPending ∧ (s.acceptPost j).attnMask = s.attnMask ∧ (s.acceptPost j).setup = s.setup
      ∧ (s.acceptPost j).pins = s.pins ∧ (s.acceptPost j).current = s.current ∧ (s.acceptPost j).slot = s.slot
      ∧ (s.acceptPost j).cycleAt = s.cycleAt ∧ (s.acceptPost j).firing = s.firing
      ∧ (s.acceptPost j).resumePending = s.resumePending ∧ (s.acceptPost j).heads = s.heads ∧ (s.acceptPost j).chans = s.chans
      ∧ (s.acceptPost j).lastValid = s.lastValid ∧ (s.acceptPost j).tracker = s.tracker ∧ (s.acceptPost j).presence = s.presence
      ∧ (s.acceptPost j).link = s.link ∧ (s.acceptPost j).records = s.records ∧ (s.acceptPost j).serial = s.serial
      ∧ (s.acceptPost j).nextSearch = s.nextSearch ∧ (s.acceptPost j).tubesCompleted = s.tubesCompleted
      ∧ (s.acceptPost j).tubesMissed = s.tubesMissed ∧ (s.acceptPost j).tube = s.tube ∧ (s.acceptPost j).pool = s.pool
      ∧ (s.acceptPost j).now = s.now ∧ (s.acceptPost j).inputs = s.inputs ∧ (s.acceptPost j).pending = s.pending := by
  simp only [State.acceptPost]
  simp

@[simp] theorem State.refusePost_frame (s : State) (j : SlotNo) (off : Nat) :
    (s.refusePost j off).gauge = s.gauge ∧ (s.refusePost j off).resetActive = s.resetActive
      ∧ (s.refusePost j off).clearing = s.clearing ∧ (s.refusePost j off).haltPending = s.haltPending
      ∧ (s.refusePost j off).attnMask = s.attnMask ∧ (s.refusePost j off).setup = s.setup ∧ (s.refusePost j off).pins = s.pins
      ∧ (s.refusePost j off).queue = s.queue ∧ (s.refusePost j off).current = s.current ∧ (s.refusePost j off).slot = s.slot
      ∧ (s.refusePost j off).cycleAt = s.cycleAt ∧ (s.refusePost j off).firing = s.firing
      ∧ (s.refusePost j off).resumePending = s.resumePending ∧ (s.refusePost j off).heads = s.heads
      ∧ (s.refusePost j off).chans = s.chans ∧ (s.refusePost j off).lastValid = s.lastValid
      ∧ (s.refusePost j off).tracker = s.tracker ∧ (s.refusePost j off).presence = s.presence
      ∧ (s.refusePost j off).link = s.link ∧ (s.refusePost j off).records = s.records ∧ (s.refusePost j off).serial = s.serial
      ∧ (s.refusePost j off).nextSearch = s.nextSearch ∧ (s.refusePost j off).tubesCompleted = s.tubesCompleted
      ∧ (s.refusePost j off).tubesMissed = s.tubesMissed ∧ (s.refusePost j off).tube = s.tube
      ∧ (s.refusePost j off).pool = s.pool ∧ (s.refusePost j off).now = s.now ∧ (s.refusePost j off).inputs = s.inputs
      ∧ (s.refusePost j off).pending = s.pending := by
  simp only [State.refusePost]
  simp

@[simp] theorem State.takePost_frame (s : State) (j : SlotNo) :
    (s.takePost j).gauge = s.gauge ∧ (s.takePost j).resetActive = s.resetActive ∧ (s.takePost j).clearing = s.clearing
      ∧ (s.takePost j).haltPending = s.haltPending ∧ (s.takePost j).attnMask = s.attnMask ∧ (s.takePost j).setup = s.setup
      ∧ (s.takePost j).pins = s.pins ∧ (s.takePost j).current = s.current ∧ (s.takePost j).slot = s.slot
      ∧ (s.takePost j).cycleAt = s.cycleAt ∧ (s.takePost j).firing = s.firing ∧ (s.takePost j).resumePending = s.resumePending
      ∧ (s.takePost j).heads = s.heads ∧ (s.takePost j).chans = s.chans ∧ (s.takePost j).lastValid = s.lastValid
      ∧ (s.takePost j).tracker = s.tracker ∧ (s.takePost j).presence = s.presence ∧ (s.takePost j).link = s.link
      ∧ (s.takePost j).records = s.records ∧ (s.takePost j).serial = s.serial ∧ (s.takePost j).nextSearch = s.nextSearch
      ∧ (s.takePost j).tubesCompleted = s.tubesCompleted ∧ (s.takePost j).tubesMissed = s.tubesMissed
      ∧ (s.takePost j).tube = s.tube ∧ (s.takePost j).pool = s.pool ∧ (s.takePost j).now = s.now
      ∧ (s.takePost j).inputs = s.inputs ∧ (s.takePost j).pending = s.pending := by
  simp only [State.takePost]
  repeat' split
  all_goals simp

@[simp] theorem State.takeCancel_frame (s : State) (j : SlotNo) :
    (s.takeCancel j).gauge = s.gauge ∧ (s.takeCancel j).resetActive = s.resetActive ∧ (s.takeCancel j).clearing = s.clearing
      ∧ (s.takeCancel j).haltPending = s.haltPending ∧ (s.takeCancel j).attnMask = s.attnMask ∧ (s.takeCancel j).setup = s.setup
      ∧ (s.takeCancel j).pins = s.pins ∧ (s.takeCancel j).slot = s.slot ∧ (s.takeCancel j).cycleAt = s.cycleAt
      ∧ (s.takeCancel j).firing = s.firing ∧ (s.takeCancel j).resumePending = s.resumePending ∧ (s.takeCancel j).heads = s.heads
      ∧ (s.takeCancel j).chans = s.chans ∧ (s.takeCancel j).lastValid = s.lastValid ∧ (s.takeCancel j).tracker = s.tracker
      ∧ (s.takeCancel j).presence = s.presence ∧ (s.takeCancel j).link = s.link ∧ (s.takeCancel j).records = s.records
      ∧ (s.takeCancel j).serial = s.serial ∧ (s.takeCancel j).nextSearch = s.nextSearch
      ∧ (s.takeCancel j).tubesCompleted = s.tubesCompleted ∧ (s.takeCancel j).tubesMissed = s.tubesMissed
      ∧ (s.takeCancel j).tube = s.tube ∧ (s.takeCancel j).pool = s.pool ∧ (s.takeCancel j).now = s.now
      ∧ (s.takeCancel j).inputs = s.inputs ∧ (s.takeCancel j).pending = s.pending := by
  simp only [State.takeCancel]
  repeat' split
  all_goals simp

@[simp] theorem State.checkAmend_frame (s : State) (j : SlotNo) :
    (s.checkAmend j).gauge = s.gauge ∧ (s.checkAmend j).resetActive = s.resetActive ∧ (s.checkAmend j).clearing = s.clearing
      ∧ (s.checkAmend j).haltPending = s.haltPending ∧ (s.checkAmend j).attnMask = s.attnMask ∧ (s.checkAmend j).setup = s.setup
      ∧ (s.checkAmend j).pins = s.pins ∧ (s.checkAmend j).queue = s.queue ∧ (s.checkAmend j).current = s.current
      ∧ (s.checkAmend j).slot = s.slot ∧ (s.checkAmend j).cycleAt = s.cycleAt ∧ (s.checkAmend j).firing = s.firing
      ∧ (s.checkAmend j).resumePending = s.resumePending ∧ (s.checkAmend j).heads = s.heads ∧ (s.checkAmend j).chans = s.chans
      ∧ (s.checkAmend j).lastValid = s.lastValid ∧ (s.checkAmend j).tracker = s.tracker ∧ (s.checkAmend j).presence = s.presence
      ∧ (s.checkAmend j).link = s.link ∧ (s.checkAmend j).records = s.records ∧ (s.checkAmend j).serial = s.serial
      ∧ (s.checkAmend j).nextSearch = s.nextSearch ∧ (s.checkAmend j).tubesCompleted = s.tubesCompleted
      ∧ (s.checkAmend j).tubesMissed = s.tubesMissed ∧ (s.checkAmend j).tube = s.tube ∧ (s.checkAmend j).pool = s.pool
      ∧ (s.checkAmend j).now = s.now ∧ (s.checkAmend j).inputs = s.inputs ∧ (s.checkAmend j).pending = s.pending := by
  simp only [State.checkAmend]
  repeat' split
  all_goals simp

@[simp] theorem State.takeAmend_frame (s : State) (j : SlotNo) :
    (s.takeAmend j).gauge = s.gauge ∧ (s.takeAmend j).resetActive = s.resetActive ∧ (s.takeAmend j).clearing = s.clearing
      ∧ (s.takeAmend j).haltPending = s.haltPending ∧ (s.takeAmend j).attnMask = s.attnMask ∧ (s.takeAmend j).setup = s.setup
      ∧ (s.takeAmend j).pins = s.pins ∧ (s.takeAmend j).queue = s.queue ∧ (s.takeAmend j).current = s.current
      ∧ (s.takeAmend j).slot = s.slot ∧ (s.takeAmend j).cycleAt = s.cycleAt ∧ (s.takeAmend j).firing = s.firing
      ∧ (s.takeAmend j).resumePending = s.resumePending ∧ (s.takeAmend j).heads = s.heads ∧ (s.takeAmend j).chans = s.chans
      ∧ (s.takeAmend j).lastValid = s.lastValid ∧ (s.takeAmend j).tracker = s.tracker ∧ (s.takeAmend j).presence = s.presence
      ∧ (s.takeAmend j).link = s.link ∧ (s.takeAmend j).records = s.records ∧ (s.takeAmend j).serial = s.serial
      ∧ (s.takeAmend j).nextSearch = s.nextSearch ∧ (s.takeAmend j).tubesCompleted = s.tubesCompleted
      ∧ (s.takeAmend j).tubesMissed = s.tubesMissed ∧ (s.takeAmend j).tube = s.tube ∧ (s.takeAmend j).pool = s.pool
      ∧ (s.takeAmend j).now = s.now ∧ (s.takeAmend j).inputs = s.inputs ∧ (s.takeAmend j).pending = s.pending := by
  simp only [State.takeAmend]
  repeat' split
  all_goals simp

@[simp] theorem State.takeNone_frame (s : State) (j : SlotNo) :
    (s.takeNone j).gauge = s.gauge ∧ (s.takeNone j).resetActive = s.resetActive ∧ (s.takeNone j).clearing = s.clearing
      ∧ (s.takeNone j).haltPending = s.haltPending ∧ (s.takeNone j).attnMask = s.attnMask ∧ (s.takeNone j).setup = s.setup
      ∧ (s.takeNone j).pins = s.pins ∧ (s.takeNone j).queue = s.queue ∧ (s.takeNone j).current = s.current
      ∧ (s.takeNone j).slot = s.slot ∧ (s.takeNone j).cycleAt = s.cycleAt ∧ (s.takeNone j).firing = s.firing
      ∧ (s.takeNone j).resumePending = s.resumePending ∧ (s.takeNone j).heads = s.heads ∧ (s.takeNone j).chans = s.chans
      ∧ (s.takeNone j).lastValid = s.lastValid ∧ (s.takeNone j).tracker = s.tracker ∧ (s.takeNone j).presence = s.presence
      ∧ (s.takeNone j).link = s.link ∧ (s.takeNone j).records = s.records ∧ (s.takeNone j).serial = s.serial
      ∧ (s.takeNone j).nextSearch = s.nextSearch ∧ (s.takeNone j).tubesCompleted = s.tubesCompleted
      ∧ (s.takeNone j).tubesMissed = s.tubesMissed ∧ (s.takeNone j).tube = s.tube ∧ (s.takeNone j).pool = s.pool
      ∧ (s.takeNone j).now = s.now ∧ (s.takeNone j).inputs = s.inputs ∧ (s.takeNone j).pending = s.pending := by
  simp only [State.takeNone]
  repeat' split
  all_goals simp

@[simp] theorem State.slotRequest_frame (s : State) (j : SlotNo) (v : Word) :
    (s.slotRequest j v).gauge = s.gauge ∧ (s.slotRequest j v).resetActive = s.resetActive
      ∧ (s.slotRequest j v).clearing = s.clearing ∧ (s.slotRequest j v).haltPending = s.haltPending
      ∧ (s.slotRequest j v).attnMask = s.attnMask ∧ (s.slotRequest j v).setup = s.setup ∧ (s.slotRequest j v).pins = s.pins
      ∧ (s.slotRequest j v).slot = s.slot ∧ (s.slotRequest j v).cycleAt = s.cycleAt ∧ (s.slotRequest j v).firing = s.firing
      ∧ (s.slotRequest j v).resumePending = s.resumePending ∧ (s.slotRequest j v).heads = s.heads
      ∧ (s.slotRequest j v).chans = s.chans ∧ (s.slotRequest j v).lastValid = s.lastValid
      ∧ (s.slotRequest j v).tracker = s.tracker ∧ (s.slotRequest j v).presence = s.presence ∧ (s.slotRequest j v).link = s.link
      ∧ (s.slotRequest j v).records = s.records ∧ (s.slotRequest j v).serial = s.serial
      ∧ (s.slotRequest j v).nextSearch = s.nextSearch ∧ (s.slotRequest j v).tubesCompleted = s.tubesCompleted
      ∧ (s.slotRequest j v).tubesMissed = s.tubesMissed ∧ (s.slotRequest j v).tube = s.tube ∧ (s.slotRequest j v).pool = s.pool
      ∧ (s.slotRequest j v).now = s.now ∧ (s.slotRequest j v).inputs = s.inputs ∧ (s.slotRequest j v).pending = s.pending := by
  simp only [State.slotRequest]
  repeat' split
  all_goals simp

@[simp] theorem State.deferClamp_frame (s : State) :
    s.deferClamp.gauge = s.gauge ∧ s.deferClamp.resetActive = s.resetActive ∧ s.deferClamp.clearing = s.clearing
      ∧ s.deferClamp.haltPending = s.haltPending ∧ s.deferClamp.mem = s.mem ∧ s.deferClamp.attnCause = s.attnCause
      ∧ s.deferClamp.attnMask = s.attnMask ∧ s.deferClamp.setup = s.setup ∧ s.deferClamp.pins = s.pins
      ∧ s.deferClamp.slots = s.slots ∧ s.deferClamp.queue = s.queue ∧ s.deferClamp.current = s.current
      ∧ s.deferClamp.cycleAt = s.cycleAt ∧ s.deferClamp.firing = s.firing ∧ s.deferClamp.resumePending = s.resumePending
      ∧ s.deferClamp.heads = s.heads ∧ s.deferClamp.chans = s.chans ∧ s.deferClamp.lastValid = s.lastValid
      ∧ s.deferClamp.tracker = s.tracker ∧ s.deferClamp.presence = s.presence ∧ s.deferClamp.link = s.link
      ∧ s.deferClamp.records = s.records ∧ s.deferClamp.serial = s.serial ∧ s.deferClamp.nextSearch = s.nextSearch
      ∧ s.deferClamp.tubesCompleted = s.tubesCompleted ∧ s.deferClamp.tubesMissed = s.tubesMissed ∧ s.deferClamp.tube = s.tube
      ∧ s.deferClamp.pool = s.pool ∧ s.deferClamp.now = s.now ∧ s.deferClamp.inputs = s.inputs
      ∧ s.deferClamp.pending = s.pending := by
  simp only [State.deferClamp]
  simp

@[simp] theorem State.markAmended_frame (s : State) :
    s.markAmended.gauge = s.gauge ∧ s.markAmended.resetActive = s.resetActive ∧ s.markAmended.clearing = s.clearing
      ∧ s.markAmended.haltPending = s.haltPending ∧ s.markAmended.mem = s.mem ∧ s.markAmended.attnCause = s.attnCause
      ∧ s.markAmended.attnMask = s.attnMask ∧ s.markAmended.setup = s.setup ∧ s.markAmended.pins = s.pins
      ∧ s.markAmended.slots = s.slots ∧ s.markAmended.queue = s.queue ∧ s.markAmended.current = s.current
      ∧ s.markAmended.slot = s.slot ∧ s.markAmended.cycleAt = s.cycleAt ∧ s.markAmended.firing = s.firing
      ∧ s.markAmended.resumePending = s.resumePending ∧ s.markAmended.heads = s.heads ∧ s.markAmended.chans = s.chans
      ∧ s.markAmended.lastValid = s.lastValid ∧ s.markAmended.tracker = s.tracker ∧ s.markAmended.presence = s.presence
      ∧ s.markAmended.link = s.link ∧ s.markAmended.records = s.records ∧ s.markAmended.serial = s.serial
      ∧ s.markAmended.nextSearch = s.nextSearch ∧ s.markAmended.tubesCompleted = s.tubesCompleted
      ∧ s.markAmended.tubesMissed = s.tubesMissed ∧ s.markAmended.pool = s.pool ∧ s.markAmended.now = s.now
      ∧ s.markAmended.inputs = s.inputs ∧ s.markAmended.pending = s.pending := by
  simp only [State.markAmended]
  simp

@[simp] theorem State.amendUse_frame (s : State) (r : Recipe) (b : Bool) :
    (s.amendUse r b).gauge = s.gauge ∧ (s.amendUse r b).resetActive = s.resetActive ∧ (s.amendUse r b).clearing = s.clearing
      ∧ (s.amendUse r b).haltPending = s.haltPending ∧ (s.amendUse r b).attnCause = s.attnCause
      ∧ (s.amendUse r b).attnMask = s.attnMask ∧ (s.amendUse r b).setup = s.setup ∧ (s.amendUse r b).pins = s.pins
      ∧ (s.amendUse r b).slots = s.slots ∧ (s.amendUse r b).queue = s.queue ∧ (s.amendUse r b).current = s.current
      ∧ (s.amendUse r b).cycleAt = s.cycleAt ∧ (s.amendUse r b).firing = s.firing
      ∧ (s.amendUse r b).resumePending = s.resumePending ∧ (s.amendUse r b).heads = s.heads
      ∧ (s.amendUse r b).lastValid = s.lastValid ∧ (s.amendUse r b).tracker = s.tracker ∧ (s.amendUse r b).presence = s.presence
      ∧ (s.amendUse r b).link = s.link ∧ (s.amendUse r b).records = s.records ∧ (s.amendUse r b).serial = s.serial
      ∧ (s.amendUse r b).nextSearch = s.nextSearch ∧ (s.amendUse r b).tubesCompleted = s.tubesCompleted
      ∧ (s.amendUse r b).tubesMissed = s.tubesMissed ∧ (s.amendUse r b).pool = s.pool ∧ (s.amendUse r b).now = s.now
      ∧ (s.amendUse r b).inputs = s.inputs ∧ (s.amendUse r b).pending = s.pending := by
  simp only [State.amendUse]
  repeat' split
  all_goals simp

@[simp] theorem State.applyAtCycle_frame (s : State) (j : SlotNo) (y : Amendment) (b : Bool) :
    (s.applyAtCycle j y b).gauge = s.gauge ∧ (s.applyAtCycle j y b).resetActive = s.resetActive
      ∧ (s.applyAtCycle j y b).clearing = s.clearing ∧ (s.applyAtCycle j y b).haltPending = s.haltPending
      ∧ (s.applyAtCycle j y b).attnMask = s.attnMask ∧ (s.applyAtCycle j y b).setup = s.setup
      ∧ (s.applyAtCycle j y b).pins = s.pins ∧ (s.applyAtCycle j y b).queue = s.queue
      ∧ (s.applyAtCycle j y b).current = s.current ∧ (s.applyAtCycle j y b).cycleAt = s.cycleAt
      ∧ (s.applyAtCycle j y b).firing = s.firing ∧ (s.applyAtCycle j y b).resumePending = s.resumePending
      ∧ (s.applyAtCycle j y b).heads = s.heads ∧ (s.applyAtCycle j y b).lastValid = s.lastValid
      ∧ (s.applyAtCycle j y b).tracker = s.tracker ∧ (s.applyAtCycle j y b).presence = s.presence
      ∧ (s.applyAtCycle j y b).link = s.link ∧ (s.applyAtCycle j y b).records = s.records
      ∧ (s.applyAtCycle j y b).serial = s.serial ∧ (s.applyAtCycle j y b).nextSearch = s.nextSearch
      ∧ (s.applyAtCycle j y b).tubesCompleted = s.tubesCompleted ∧ (s.applyAtCycle j y b).tubesMissed = s.tubesMissed
      ∧ (s.applyAtCycle j y b).pool = s.pool ∧ (s.applyAtCycle j y b).now = s.now ∧ (s.applyAtCycle j y b).inputs = s.inputs
      ∧ (s.applyAtCycle j y b).pending = s.pending := by
  simp only [State.applyAtCycle]
  repeat' split
  all_goals simp

@[simp] theorem State.cycleAmend_frame (s : State) (b : Bool) :
    (s.cycleAmend b).gauge = s.gauge ∧ (s.cycleAmend b).resetActive = s.resetActive ∧ (s.cycleAmend b).clearing = s.clearing
      ∧ (s.cycleAmend b).haltPending = s.haltPending ∧ (s.cycleAmend b).attnMask = s.attnMask ∧ (s.cycleAmend b).setup = s.setup
      ∧ (s.cycleAmend b).pins = s.pins ∧ (s.cycleAmend b).queue = s.queue ∧ (s.cycleAmend b).current = s.current
      ∧ (s.cycleAmend b).cycleAt = s.cycleAt ∧ (s.cycleAmend b).firing = s.firing
      ∧ (s.cycleAmend b).resumePending = s.resumePending ∧ (s.cycleAmend b).heads = s.heads
      ∧ (s.cycleAmend b).lastValid = s.lastValid ∧ (s.cycleAmend b).tracker = s.tracker ∧ (s.cycleAmend b).presence = s.presence
      ∧ (s.cycleAmend b).link = s.link ∧ (s.cycleAmend b).records = s.records ∧ (s.cycleAmend b).serial = s.serial
      ∧ (s.cycleAmend b).nextSearch = s.nextSearch ∧ (s.cycleAmend b).tubesCompleted = s.tubesCompleted
      ∧ (s.cycleAmend b).tubesMissed = s.tubesMissed ∧ (s.cycleAmend b).pool = s.pool ∧ (s.cycleAmend b).now = s.now
      ∧ (s.cycleAmend b).inputs = s.inputs ∧ (s.cycleAmend b).pending = s.pending := by
  simp only [State.cycleAmend]
  repeat' split
  all_goals simp

@[simp] theorem State.yieldLot_frame (s : State) :
    s.yieldLot.gauge = s.gauge ∧ s.yieldLot.resetActive = s.resetActive ∧ s.yieldLot.clearing = s.clearing
      ∧ s.yieldLot.haltPending = s.haltPending ∧ s.yieldLot.attnMask = s.attnMask ∧ s.yieldLot.setup = s.setup
      ∧ s.yieldLot.pins = s.pins ∧ s.yieldLot.queue = s.queue ∧ s.yieldLot.slot = s.slot ∧ s.yieldLot.cycleAt = s.cycleAt
      ∧ s.yieldLot.firing = s.firing ∧ s.yieldLot.resumePending = s.resumePending ∧ s.yieldLot.heads = s.heads
      ∧ s.yieldLot.chans = s.chans ∧ s.yieldLot.lastValid = s.lastValid ∧ s.yieldLot.tracker = s.tracker
      ∧ s.yieldLot.presence = s.presence ∧ s.yieldLot.link = s.link ∧ s.yieldLot.records = s.records
      ∧ s.yieldLot.serial = s.serial ∧ s.yieldLot.nextSearch = s.nextSearch ∧ s.yieldLot.tubesCompleted = s.tubesCompleted
      ∧ s.yieldLot.tubesMissed = s.tubesMissed ∧ s.yieldLot.tube = s.tube ∧ s.yieldLot.pool = s.pool ∧ s.yieldLot.now = s.now
      ∧ s.yieldLot.inputs = s.inputs ∧ s.yieldLot.pending = s.pending := by
  simp only [State.yieldLot]
  repeat' split
  all_goals simp

@[simp] theorem State.promote_frame (s : State) :
    s.promote.gauge = s.gauge ∧ s.promote.resetActive = s.resetActive ∧ s.promote.clearing = s.clearing
      ∧ s.promote.haltPending = s.haltPending ∧ s.promote.attnCause = s.attnCause ∧ s.promote.attnMask = s.attnMask
      ∧ s.promote.setup = s.setup ∧ s.promote.pins = s.pins ∧ s.promote.slot = s.slot ∧ s.promote.cycleAt = s.cycleAt
      ∧ s.promote.firing = s.firing ∧ s.promote.resumePending = s.resumePending ∧ s.promote.heads = s.heads
      ∧ s.promote.chans = s.chans ∧ s.promote.lastValid = s.lastValid ∧ s.promote.tracker = s.tracker
      ∧ s.promote.presence = s.presence ∧ s.promote.link = s.link ∧ s.promote.records = s.records ∧ s.promote.serial = s.serial
      ∧ s.promote.nextSearch = s.nextSearch ∧ s.promote.tubesCompleted = s.tubesCompleted
      ∧ s.promote.tubesMissed = s.tubesMissed ∧ s.promote.tube = s.tube ∧ s.promote.pool = s.pool ∧ s.promote.now = s.now
      ∧ s.promote.inputs = s.inputs ∧ s.promote.pending = s.pending := by
  simp only [State.promote]
  repeat' split
  all_goals simp

@[simp] theorem State.headAmend_frame (s : State) :
    s.headAmend.gauge = s.gauge ∧ s.headAmend.resetActive = s.resetActive ∧ s.headAmend.clearing = s.clearing
      ∧ s.headAmend.haltPending = s.haltPending ∧ s.headAmend.attnMask = s.attnMask ∧ s.headAmend.setup = s.setup
      ∧ s.headAmend.pins = s.pins ∧ s.headAmend.queue = s.queue ∧ s.headAmend.current = s.current ∧ s.headAmend.slot = s.slot
      ∧ s.headAmend.cycleAt = s.cycleAt ∧ s.headAmend.firing = s.firing ∧ s.headAmend.resumePending = s.resumePending
      ∧ s.headAmend.heads = s.heads ∧ s.headAmend.chans = s.chans ∧ s.headAmend.lastValid = s.lastValid
      ∧ s.headAmend.tracker = s.tracker ∧ s.headAmend.presence = s.presence ∧ s.headAmend.link = s.link
      ∧ s.headAmend.records = s.records ∧ s.headAmend.serial = s.serial ∧ s.headAmend.nextSearch = s.nextSearch
      ∧ s.headAmend.tubesCompleted = s.tubesCompleted ∧ s.headAmend.tubesMissed = s.tubesMissed ∧ s.headAmend.tube = s.tube
      ∧ s.headAmend.pool = s.pool ∧ s.headAmend.now = s.now ∧ s.headAmend.inputs = s.inputs ∧ s.headAmend.pending = s.pending := by
  simp only [State.headAmend]
  repeat' split
  all_goals simp

@[simp] theorem State.useOrder_frame (s : State) :
    s.useOrder.gauge = s.gauge ∧ s.useOrder.resetActive = s.resetActive ∧ s.useOrder.clearing = s.clearing
      ∧ s.useOrder.haltPending = s.haltPending ∧ s.useOrder.attnCause = s.attnCause ∧ s.useOrder.attnMask = s.attnMask
      ∧ s.useOrder.setup = s.setup ∧ s.useOrder.pins = s.pins ∧ s.useOrder.queue = s.queue ∧ s.useOrder.current = s.current
      ∧ s.useOrder.slot = s.slot ∧ s.useOrder.cycleAt = s.cycleAt ∧ s.useOrder.firing = s.firing
      ∧ s.useOrder.resumePending = s.resumePending ∧ s.useOrder.heads = s.heads ∧ s.useOrder.chans = s.chans
      ∧ s.useOrder.lastValid = s.lastValid ∧ s.useOrder.tracker = s.tracker ∧ s.useOrder.presence = s.presence
      ∧ s.useOrder.link = s.link ∧ s.useOrder.records = s.records ∧ s.useOrder.serial = s.serial
      ∧ s.useOrder.nextSearch = s.nextSearch ∧ s.useOrder.tubesCompleted = s.tubesCompleted
      ∧ s.useOrder.tubesMissed = s.tubesMissed ∧ s.useOrder.tube = s.tube ∧ s.useOrder.pool = s.pool ∧ s.useOrder.now = s.now
      ∧ s.useOrder.inputs = s.inputs ∧ s.useOrder.pending = s.pending := by
  simp only [State.useOrder]
  repeat' split
  all_goals simp

@[simp] theorem State.selected_frame (s : State) :
    s.selected.gauge = s.gauge ∧ s.selected.resetActive = s.resetActive ∧ s.selected.clearing = s.clearing
      ∧ s.selected.haltPending = s.haltPending ∧ s.selected.attnMask = s.attnMask ∧ s.selected.setup = s.setup
      ∧ s.selected.pins = s.pins ∧ s.selected.slot = s.slot ∧ s.selected.cycleAt = s.cycleAt ∧ s.selected.firing = s.firing
      ∧ s.selected.resumePending = s.resumePending ∧ s.selected.heads = s.heads ∧ s.selected.chans = s.chans
      ∧ s.selected.lastValid = s.lastValid ∧ s.selected.tracker = s.tracker ∧ s.selected.presence = s.presence
      ∧ s.selected.link = s.link ∧ s.selected.records = s.records ∧ s.selected.serial = s.serial
      ∧ s.selected.nextSearch = s.nextSearch ∧ s.selected.tubesCompleted = s.tubesCompleted
      ∧ s.selected.tubesMissed = s.tubesMissed ∧ s.selected.tube = s.tube ∧ s.selected.pool = s.pool ∧ s.selected.now = s.now
      ∧ s.selected.inputs = s.inputs ∧ s.selected.pending = s.pending := by
  simp only [State.selected]
  simp

@[simp] theorem State.selectOrder_frame (s : State) :
    s.selectOrder.gauge = s.gauge ∧ s.selectOrder.resetActive = s.resetActive ∧ s.selectOrder.clearing = s.clearing
      ∧ s.selectOrder.haltPending = s.haltPending ∧ s.selectOrder.attnMask = s.attnMask ∧ s.selectOrder.setup = s.setup
      ∧ s.selectOrder.pins = s.pins ∧ s.selectOrder.slot = s.slot ∧ s.selectOrder.cycleAt = s.cycleAt
      ∧ s.selectOrder.firing = s.firing ∧ s.selectOrder.resumePending = s.resumePending ∧ s.selectOrder.heads = s.heads
      ∧ s.selectOrder.chans = s.chans ∧ s.selectOrder.lastValid = s.lastValid ∧ s.selectOrder.tracker = s.tracker
      ∧ s.selectOrder.presence = s.presence ∧ s.selectOrder.link = s.link ∧ s.selectOrder.records = s.records
      ∧ s.selectOrder.serial = s.serial ∧ s.selectOrder.nextSearch = s.nextSearch
      ∧ s.selectOrder.tubesCompleted = s.tubesCompleted ∧ s.selectOrder.tubesMissed = s.tubesMissed
      ∧ s.selectOrder.tube = s.tube ∧ s.selectOrder.pool = s.pool ∧ s.selectOrder.now = s.now ∧ s.selectOrder.inputs = s.inputs
      ∧ s.selectOrder.pending = s.pending := by
  simp only [State.selectOrder]
  simp

@[simp] theorem State.lotAccounting_frame (s : State) :
    s.lotAccounting.gauge = s.gauge ∧ s.lotAccounting.resetActive = s.resetActive ∧ s.lotAccounting.clearing = s.clearing
      ∧ s.lotAccounting.haltPending = s.haltPending ∧ s.lotAccounting.attnMask = s.attnMask ∧ s.lotAccounting.setup = s.setup
      ∧ s.lotAccounting.pins = s.pins ∧ s.lotAccounting.queue = s.queue ∧ s.lotAccounting.slot = s.slot
      ∧ s.lotAccounting.cycleAt = s.cycleAt ∧ s.lotAccounting.firing = s.firing
      ∧ s.lotAccounting.resumePending = s.resumePending ∧ s.lotAccounting.heads = s.heads ∧ s.lotAccounting.chans = s.chans
      ∧ s.lotAccounting.lastValid = s.lastValid ∧ s.lotAccounting.tracker = s.tracker ∧ s.lotAccounting.presence = s.presence
      ∧ s.lotAccounting.link = s.link ∧ s.lotAccounting.records = s.records ∧ s.lotAccounting.serial = s.serial
      ∧ s.lotAccounting.nextSearch = s.nextSearch ∧ s.lotAccounting.tubesCompleted = s.tubesCompleted
      ∧ s.lotAccounting.tubesMissed = s.tubesMissed ∧ s.lotAccounting.tube = s.tube ∧ s.lotAccounting.pool = s.pool
      ∧ s.lotAccounting.now = s.now ∧ s.lotAccounting.inputs = s.inputs ∧ s.lotAccounting.pending = s.pending := by
  simp only [State.lotAccounting]
  repeat' split
  all_goals simp

end Sys2Proof.Machine
end

