-- ==== Sys2Proof/Laws/Close.lean ====
section
/-! SUPPORT. What the close of a tube changes. For each operation, one lemma that says which parts of the state it leaves alone. -/

namespace Sys2Proof.Machine

@[simp] theorem State.stopLink_frame (s : State) :
    s.stopLink.gauge = s.gauge ∧ s.stopLink.resetActive = s.resetActive ∧ s.stopLink.clearing = s.clearing
      ∧ s.stopLink.haltPending = s.haltPending ∧ s.stopLink.attnCause = s.attnCause ∧ s.stopLink.attnMask = s.attnMask
      ∧ s.stopLink.setup = s.setup ∧ s.stopLink.pins = s.pins ∧ s.stopLink.slots = s.slots ∧ s.stopLink.queue = s.queue
      ∧ s.stopLink.current = s.current ∧ s.stopLink.slot = s.slot ∧ s.stopLink.cycleAt = s.cycleAt
      ∧ s.stopLink.firing = s.firing ∧ s.stopLink.resumePending = s.resumePending ∧ s.stopLink.heads = s.heads
      ∧ s.stopLink.chans = s.chans ∧ s.stopLink.lastValid = s.lastValid ∧ s.stopLink.tracker = s.tracker
      ∧ s.stopLink.presence = s.presence ∧ s.stopLink.records = s.records ∧ s.stopLink.serial = s.serial
      ∧ s.stopLink.nextSearch = s.nextSearch ∧ s.stopLink.tubesCompleted = s.tubesCompleted
      ∧ s.stopLink.tubesMissed = s.tubesMissed ∧ s.stopLink.tube = s.tube ∧ s.stopLink.pool = s.pool ∧ s.stopLink.now = s.now
      ∧ s.stopLink.inputs = s.inputs ∧ s.stopLink.pending = s.pending := by
  simp only [State.stopLink]
  simp

@[simp] theorem State.enterHalted_frame (s : State) :
    s.enterHalted.resetActive = s.resetActive ∧ s.enterHalted.clearing = s.clearing ∧ s.enterHalted.attnCause = s.attnCause
      ∧ s.enterHalted.attnMask = s.attnMask ∧ s.enterHalted.setup = s.setup ∧ s.enterHalted.pins = s.pins
      ∧ s.enterHalted.slots = s.slots ∧ s.enterHalted.queue = s.queue ∧ s.enterHalted.current = s.current
      ∧ s.enterHalted.cycleAt = s.cycleAt ∧ s.enterHalted.firing = s.firing ∧ s.enterHalted.heads = s.heads
      ∧ s.enterHalted.chans = s.chans ∧ s.enterHalted.lastValid = s.lastValid ∧ s.enterHalted.presence = s.presence
      ∧ s.enterHalted.records = s.records ∧ s.enterHalted.serial = s.serial ∧ s.enterHalted.nextSearch = s.nextSearch
      ∧ s.enterHalted.tubesCompleted = s.tubesCompleted ∧ s.enterHalted.tubesMissed = s.tubesMissed
      ∧ s.enterHalted.tube = s.tube ∧ s.enterHalted.pool = s.pool ∧ s.enterHalted.now = s.now ∧ s.enterHalted.inputs = s.inputs
      ∧ s.enterHalted.pending = s.pending := by
  simp only [State.enterHalted]
  simp

@[simp] theorem State.closeLast_frame (s : State) :
    s.closeLast.gauge = s.gauge ∧ s.closeLast.resetActive = s.resetActive ∧ s.closeLast.clearing = s.clearing
      ∧ s.closeLast.haltPending = s.haltPending ∧ s.closeLast.mem = s.mem ∧ s.closeLast.attnCause = s.attnCause
      ∧ s.closeLast.attnMask = s.attnMask ∧ s.closeLast.setup = s.setup ∧ s.closeLast.pins = s.pins
      ∧ s.closeLast.slots = s.slots ∧ s.closeLast.queue = s.queue ∧ s.closeLast.current = s.current ∧ s.closeLast.slot = s.slot
      ∧ s.closeLast.cycleAt = s.cycleAt ∧ s.closeLast.firing = s.firing ∧ s.closeLast.resumePending = s.resumePending
      ∧ s.closeLast.heads = s.heads ∧ s.closeLast.chans = s.chans ∧ s.closeLast.lastValid = s.lastValid
      ∧ s.closeLast.tracker = s.tracker ∧ s.closeLast.presence = s.presence ∧ s.closeLast.link = s.link
      ∧ s.closeLast.records = s.records ∧ s.closeLast.serial = s.serial ∧ s.closeLast.nextSearch = s.nextSearch
      ∧ s.closeLast.tubesCompleted = s.tubesCompleted ∧ s.closeLast.tubesMissed = s.tubesMissed ∧ s.closeLast.pool = s.pool
      ∧ s.closeLast.now = s.now ∧ s.closeLast.inputs = s.inputs ∧ s.closeLast.pending = s.pending := by
  simp only [State.closeLast]
  repeat' split
  all_goals simp

@[simp] theorem State.writeHeld_frame (s : State) :
    s.writeHeld.gauge = s.gauge ∧ s.writeHeld.resetActive = s.resetActive ∧ s.writeHeld.clearing = s.clearing
      ∧ s.writeHeld.haltPending = s.haltPending ∧ s.writeHeld.attnMask = s.attnMask ∧ s.writeHeld.setup = s.setup
      ∧ s.writeHeld.pins = s.pins ∧ s.writeHeld.slots = s.slots ∧ s.writeHeld.queue = s.queue ∧ s.writeHeld.current = s.current
      ∧ s.writeHeld.slot = s.slot ∧ s.writeHeld.cycleAt = s.cycleAt ∧ s.writeHeld.firing = s.firing
      ∧ s.writeHeld.resumePending = s.resumePending ∧ s.writeHeld.heads = s.heads ∧ s.writeHeld.chans = s.chans
      ∧ s.writeHeld.lastValid = s.lastValid ∧ s.writeHeld.tracker = s.tracker ∧ s.writeHeld.presence = s.presence
      ∧ s.writeHeld.link = s.link ∧ s.writeHeld.records = s.records ∧ s.writeHeld.serial = s.serial
      ∧ s.writeHeld.nextSearch = s.nextSearch ∧ s.writeHeld.tubesCompleted = s.tubesCompleted
      ∧ s.writeHeld.tubesMissed = s.tubesMissed ∧ s.writeHeld.now = s.now ∧ s.writeHeld.inputs = s.inputs
      ∧ s.writeHeld.pending = s.pending := by
  simp only [State.writeHeld]
  simp

@[simp] theorem State.completeRecord_frame (s : State) (r : RecNo) (t : Tube) :
    (s.completeRecord r t).gauge = s.gauge ∧ (s.completeRecord r t).resetActive = s.resetActive
      ∧ (s.completeRecord r t).clearing = s.clearing ∧ (s.completeRecord r t).haltPending = s.haltPending
      ∧ (s.completeRecord r t).attnCause = s.attnCause ∧ (s.completeRecord r t).attnMask = s.attnMask
      ∧ (s.completeRecord r t).setup = s.setup ∧ (s.completeRecord r t).pins = s.pins ∧ (s.completeRecord r t).slots = s.slots
      ∧ (s.completeRecord r t).queue = s.queue ∧ (s.completeRecord r t).current = s.current
      ∧ (s.completeRecord r t).slot = s.slot ∧ (s.completeRecord r t).cycleAt = s.cycleAt
      ∧ (s.completeRecord r t).firing = s.firing ∧ (s.completeRecord r t).resumePending = s.resumePending
      ∧ (s.completeRecord r t).heads = s.heads ∧ (s.completeRecord r t).chans = s.chans
      ∧ (s.completeRecord r t).lastValid = s.lastValid ∧ (s.completeRecord r t).tracker = s.tracker
      ∧ (s.completeRecord r t).presence = s.presence ∧ (s.completeRecord r t).link = s.link
      ∧ (s.completeRecord r t).serial = s.serial ∧ (s.completeRecord r t).nextSearch = s.nextSearch
      ∧ (s.completeRecord r t).tubesCompleted = s.tubesCompleted ∧ (s.completeRecord r t).tubesMissed = s.tubesMissed
      ∧ (s.completeRecord r t).tube = s.tube ∧ (s.completeRecord r t).pool = s.pool ∧ (s.completeRecord r t).now = s.now
      ∧ (s.completeRecord r t).inputs = s.inputs ∧ (s.completeRecord r t).pending = s.pending := by
  simp only [State.completeRecord]
  simp

@[simp] theorem State.closeStatus_frame (s : State) (t : Tube) :
    (s.closeStatus t).gauge = s.gauge ∧ (s.closeStatus t).resetActive = s.resetActive ∧ (s.closeStatus t).clearing = s.clearing
      ∧ (s.closeStatus t).haltPending = s.haltPending ∧ (s.closeStatus t).attnMask = s.attnMask
      ∧ (s.closeStatus t).setup = s.setup ∧ (s.closeStatus t).pins = s.pins ∧ (s.closeStatus t).slots = s.slots
      ∧ (s.closeStatus t).queue = s.queue ∧ (s.closeStatus t).current = s.current ∧ (s.closeStatus t).slot = s.slot
      ∧ (s.closeStatus t).cycleAt = s.cycleAt ∧ (s.closeStatus t).firing = s.firing
      ∧ (s.closeStatus t).resumePending = s.resumePending ∧ (s.closeStatus t).heads = s.heads
      ∧ (s.closeStatus t).chans = s.chans ∧ (s.closeStatus t).lastValid = s.lastValid ∧ (s.closeStatus t).tracker = s.tracker
      ∧ (s.closeStatus t).presence = s.presence ∧ (s.closeStatus t).link = s.link ∧ (s.closeStatus t).records = s.records
      ∧ (s.closeStatus t).serial = s.serial ∧ (s.closeStatus t).nextSearch = s.nextSearch
      ∧ (s.closeStatus t).tubesMissed = s.tubesMissed ∧ (s.closeStatus t).tube = s.tube ∧ (s.closeStatus t).pool = s.pool
      ∧ (s.closeStatus t).now = s.now ∧ (s.closeStatus t).inputs = s.inputs ∧ (s.closeStatus t).pending = s.pending := by
  simp only [State.closeStatus]
  simp

@[simp] theorem State.closeRecord_frame (s : State) :
    s.closeRecord.gauge = s.gauge ∧ s.closeRecord.resetActive = s.resetActive ∧ s.closeRecord.clearing = s.clearing
      ∧ s.closeRecord.haltPending = s.haltPending ∧ s.closeRecord.attnMask = s.attnMask ∧ s.closeRecord.setup = s.setup
      ∧ s.closeRecord.pins = s.pins ∧ s.closeRecord.slots = s.slots ∧ s.closeRecord.queue = s.queue
      ∧ s.closeRecord.current = s.current ∧ s.closeRecord.slot = s.slot ∧ s.closeRecord.cycleAt = s.cycleAt
      ∧ s.closeRecord.firing = s.firing ∧ s.closeRecord.resumePending = s.resumePending ∧ s.closeRecord.heads = s.heads
      ∧ s.closeRecord.chans = s.chans ∧ s.closeRecord.lastValid = s.lastValid ∧ s.closeRecord.tracker = s.tracker
      ∧ s.closeRecord.presence = s.presence ∧ s.closeRecord.link = s.link ∧ s.closeRecord.serial = s.serial
      ∧ s.closeRecord.nextSearch = s.nextSearch ∧ s.closeRecord.tubesMissed = s.tubesMissed ∧ s.closeRecord.tube = s.tube
      ∧ s.closeRecord.pool = s.pool ∧ s.closeRecord.now = s.now ∧ s.closeRecord.inputs = s.inputs
      ∧ s.closeRecord.pending = s.pending := by
  simp only [State.closeRecord]
  repeat' split
  all_goals simp

@[simp] theorem State.leaveClosing_frame (s : State) :
    s.leaveClosing.resetActive = s.resetActive ∧ s.leaveClosing.clearing = s.clearing ∧ s.leaveClosing.attnCause = s.attnCause
      ∧ s.leaveClosing.attnMask = s.attnMask ∧ s.leaveClosing.setup = s.setup ∧ s.leaveClosing.pins = s.pins
      ∧ s.leaveClosing.slots = s.slots ∧ s.leaveClosing.queue = s.queue ∧ s.leaveClosing.current = s.current
      ∧ s.leaveClosing.cycleAt = s.cycleAt ∧ s.leaveClosing.firing = s.firing ∧ s.leaveClosing.heads = s.heads
      ∧ s.leaveClosing.chans = s.chans ∧ s.leaveClosing.lastValid = s.lastValid ∧ s.leaveClosing.presence = s.presence
      ∧ s.leaveClosing.records = s.records ∧ s.leaveClosing.serial = s.serial ∧ s.leaveClosing.nextSearch = s.nextSearch
      ∧ s.leaveClosing.tubesCompleted = s.tubesCompleted ∧ s.leaveClosing.tubesMissed = s.tubesMissed
      ∧ s.leaveClosing.pool = s.pool ∧ s.leaveClosing.now = s.now ∧ s.leaveClosing.inputs = s.inputs
      ∧ s.leaveClosing.pending = s.pending := by
  simp only [State.leaveClosing]
  repeat' split
  all_goals simp

@[simp] theorem State.closeTube_frame (s : State) :
    s.closeTube.resetActive = s.resetActive ∧ s.closeTube.clearing = s.clearing ∧ s.closeTube.attnMask = s.attnMask
      ∧ s.closeTube.setup = s.setup ∧ s.closeTube.pins = s.pins ∧ s.closeTube.queue = s.queue ∧ s.closeTube.cycleAt = s.cycleAt
      ∧ s.closeTube.firing = s.firing ∧ s.closeTube.heads = s.heads ∧ s.closeTube.chans = s.chans
      ∧ s.closeTube.lastValid = s.lastValid ∧ s.closeTube.presence = s.presence ∧ s.closeTube.serial = s.serial
      ∧ s.closeTube.nextSearch = s.nextSearch ∧ s.closeTube.tubesMissed = s.tubesMissed ∧ s.closeTube.now = s.now
      ∧ s.closeTube.inputs = s.inputs ∧ s.closeTube.pending = s.pending := by
  simp only [State.closeTube]
  repeat' split
  all_goals simp

@[simp] theorem State.closeIfDrained_frame (s : State) :
    s.closeIfDrained.resetActive = s.resetActive ∧ s.closeIfDrained.clearing = s.clearing
      ∧ s.closeIfDrained.attnMask = s.attnMask ∧ s.closeIfDrained.setup = s.setup ∧ s.closeIfDrained.pins = s.pins
      ∧ s.closeIfDrained.queue = s.queue ∧ s.closeIfDrained.cycleAt = s.cycleAt ∧ s.closeIfDrained.firing = s.firing
      ∧ s.closeIfDrained.heads = s.heads ∧ s.closeIfDrained.chans = s.chans ∧ s.closeIfDrained.lastValid = s.lastValid
      ∧ s.closeIfDrained.presence = s.presence ∧ s.closeIfDrained.serial = s.serial ∧ s.closeIfDrained.nextSearch = s.nextSearch
      ∧ s.closeIfDrained.tubesMissed = s.tubesMissed ∧ s.closeIfDrained.now = s.now ∧ s.closeIfDrained.inputs = s.inputs
      ∧ s.closeIfDrained.pending = s.pending := by
  simp only [State.closeIfDrained]
  repeat' split
  all_goals simp

end Sys2Proof.Machine
end

