-- ==== Sys2Proof/Laws/Shot.lean ====
section
/-! SUPPORT. What the shot operations change. For each operation, one lemma that says which parts of the state it leaves alone. -/

namespace Sys2Proof.Machine

@[simp] theorem State.gainStep_frame (s : State) (k : Head) (n : Snapshot) (a : Option Byte) :
    (s.gainStep k n a).gauge = s.gauge ∧ (s.gainStep k n a).resetActive = s.resetActive
      ∧ (s.gainStep k n a).clearing = s.clearing ∧ (s.gainStep k n a).haltPending = s.haltPending
      ∧ (s.gainStep k n a).attnCause = s.attnCause ∧ (s.gainStep k n a).attnMask = s.attnMask
      ∧ (s.gainStep k n a).setup = s.setup ∧ (s.gainStep k n a).pins = s.pins ∧ (s.gainStep k n a).slots = s.slots
      ∧ (s.gainStep k n a).queue = s.queue ∧ (s.gainStep k n a).current = s.current ∧ (s.gainStep k n a).slot = s.slot
      ∧ (s.gainStep k n a).cycleAt = s.cycleAt ∧ (s.gainStep k n a).firing = s.firing
      ∧ (s.gainStep k n a).resumePending = s.resumePending ∧ (s.gainStep k n a).heads = s.heads
      ∧ (s.gainStep k n a).lastValid = s.lastValid ∧ (s.gainStep k n a).tracker = s.tracker
      ∧ (s.gainStep k n a).presence = s.presence ∧ (s.gainStep k n a).link = s.link ∧ (s.gainStep k n a).records = s.records
      ∧ (s.gainStep k n a).serial = s.serial ∧ (s.gainStep k n a).nextSearch = s.nextSearch
      ∧ (s.gainStep k n a).tubesCompleted = s.tubesCompleted ∧ (s.gainStep k n a).tubesMissed = s.tubesMissed
      ∧ (s.gainStep k n a).tube = s.tube ∧ (s.gainStep k n a).pool = s.pool ∧ (s.gainStep k n a).now = s.now
      ∧ (s.gainStep k n a).inputs = s.inputs ∧ (s.gainStep k n a).pending = s.pending := by
  simp only [State.gainStep]
  simp

@[simp] theorem State.lateClamp_frame (s : State) (k : Head) (sh : Shot) :
    (s.lateClamp k sh).gauge = s.gauge ∧ (s.lateClamp k sh).resetActive = s.resetActive
      ∧ (s.lateClamp k sh).clearing = s.clearing ∧ (s.lateClamp k sh).haltPending = s.haltPending
      ∧ (s.lateClamp k sh).attnCause = s.attnCause ∧ (s.lateClamp k sh).attnMask = s.attnMask
      ∧ (s.lateClamp k sh).setup = s.setup ∧ (s.lateClamp k sh).pins = s.pins ∧ (s.lateClamp k sh).slots = s.slots
      ∧ (s.lateClamp k sh).queue = s.queue ∧ (s.lateClamp k sh).current = s.current ∧ (s.lateClamp k sh).slot = s.slot
      ∧ (s.lateClamp k sh).cycleAt = s.cycleAt ∧ (s.lateClamp k sh).firing = s.firing
      ∧ (s.lateClamp k sh).resumePending = s.resumePending ∧ (s.lateClamp k sh).heads = s.heads
      ∧ (s.lateClamp k sh).lastValid = s.lastValid ∧ (s.lateClamp k sh).tracker = s.tracker
      ∧ (s.lateClamp k sh).presence = s.presence ∧ (s.lateClamp k sh).link = s.link ∧ (s.lateClamp k sh).records = s.records
      ∧ (s.lateClamp k sh).serial = s.serial ∧ (s.lateClamp k sh).nextSearch = s.nextSearch
      ∧ (s.lateClamp k sh).tubesCompleted = s.tubesCompleted ∧ (s.lateClamp k sh).tubesMissed = s.tubesMissed
      ∧ (s.lateClamp k sh).tube = s.tube ∧ (s.lateClamp k sh).pool = s.pool ∧ (s.lateClamp k sh).now = s.now
      ∧ (s.lateClamp k sh).inputs = s.inputs ∧ (s.lateClamp k sh).pending = s.pending := by
  simp only [State.lateClamp]
  repeat' split
  all_goals simp

@[simp] theorem State.handOver_frame (s : State) (r : ShotRecord) :
    (s.handOver r).gauge = s.gauge ∧ (s.handOver r).resetActive = s.resetActive ∧ (s.handOver r).clearing = s.clearing
      ∧ (s.handOver r).haltPending = s.haltPending ∧ (s.handOver r).attnMask = s.attnMask ∧ (s.handOver r).setup = s.setup
      ∧ (s.handOver r).pins = s.pins ∧ (s.handOver r).slots = s.slots ∧ (s.handOver r).queue = s.queue
      ∧ (s.handOver r).current = s.current ∧ (s.handOver r).slot = s.slot ∧ (s.handOver r).cycleAt = s.cycleAt
      ∧ (s.handOver r).firing = s.firing ∧ (s.handOver r).resumePending = s.resumePending ∧ (s.handOver r).heads = s.heads
      ∧ (s.handOver r).chans = s.chans ∧ (s.handOver r).tracker = s.tracker ∧ (s.handOver r).presence = s.presence
      ∧ (s.handOver r).link = s.link ∧ (s.handOver r).records = s.records ∧ (s.handOver r).serial = s.serial
      ∧ (s.handOver r).nextSearch = s.nextSearch ∧ (s.handOver r).tubesCompleted = s.tubesCompleted
      ∧ (s.handOver r).tubesMissed = s.tubesMissed ∧ (s.handOver r).now = s.now ∧ (s.handOver r).inputs = s.inputs
      ∧ (s.handOver r).pending = s.pending := by
  simp only [State.handOver]
  simp

@[simp] theorem State.closeShot_frame (s : State) (k : Head) (sh : Shot) (es : List Nat) (a : Option Byte) (c : Bool) :
    (s.closeShot k sh es a c).resetActive = s.resetActive ∧ (s.closeShot k sh es a c).clearing = s.clearing
      ∧ (s.closeShot k sh es a c).attnMask = s.attnMask ∧ (s.closeShot k sh es a c).setup = s.setup
      ∧ (s.closeShot k sh es a c).pins = s.pins ∧ (s.closeShot k sh es a c).queue = s.queue
      ∧ (s.closeShot k sh es a c).cycleAt = s.cycleAt ∧ (s.closeShot k sh es a c).firing = s.firing
      ∧ (s.closeShot k sh es a c).heads = s.heads ∧ (s.closeShot k sh es a c).presence = s.presence
      ∧ (s.closeShot k sh es a c).serial = s.serial ∧ (s.closeShot k sh es a c).nextSearch = s.nextSearch
      ∧ (s.closeShot k sh es a c).tubesMissed = s.tubesMissed ∧ (s.closeShot k sh es a c).now = s.now
      ∧ (s.closeShot k sh es a c).inputs = s.inputs ∧ (s.closeShot k sh es a c).pending = s.pending := by
  simp only [State.closeShot]
  simp

@[simp] theorem State.cutSlot_frame (s : State) (a : Byte) :
    (s.cutSlot a).resetActive = s.resetActive ∧ (s.cutSlot a).clearing = s.clearing ∧ (s.cutSlot a).attnMask = s.attnMask
      ∧ (s.cutSlot a).setup = s.setup ∧ (s.cutSlot a).pins = s.pins ∧ (s.cutSlot a).queue = s.queue
      ∧ (s.cutSlot a).cycleAt = s.cycleAt ∧ (s.cutSlot a).firing = s.firing ∧ (s.cutSlot a).heads = s.heads
      ∧ (s.cutSlot a).presence = s.presence ∧ (s.cutSlot a).serial = s.serial ∧ (s.cutSlot a).nextSearch = s.nextSearch
      ∧ (s.cutSlot a).tubesMissed = s.tubesMissed ∧ (s.cutSlot a).now = s.now ∧ (s.cutSlot a).inputs = s.inputs
      ∧ (s.cutSlot a).pending = s.pending := by
  simp only [State.cutSlot]
  repeat' split
  all_goals simp

@[simp] theorem State.fire_frame (s : State) (k : Head) (n : Snapshot) :
    (s.fire k n).gauge = s.gauge ∧ (s.fire k n).resetActive = s.resetActive ∧ (s.fire k n).clearing = s.clearing
      ∧ (s.fire k n).haltPending = s.haltPending ∧ (s.fire k n).mem = s.mem ∧ (s.fire k n).attnCause = s.attnCause
      ∧ (s.fire k n).attnMask = s.attnMask ∧ (s.fire k n).setup = s.setup ∧ (s.fire k n).pins = s.pins
      ∧ (s.fire k n).slots = s.slots ∧ (s.fire k n).queue = s.queue ∧ (s.fire k n).current = s.current
      ∧ (s.fire k n).cycleAt = s.cycleAt ∧ (s.fire k n).firing = s.firing ∧ (s.fire k n).resumePending = s.resumePending
      ∧ (s.fire k n).chans = s.chans ∧ (s.fire k n).lastValid = s.lastValid ∧ (s.fire k n).tracker = s.tracker
      ∧ (s.fire k n).presence = s.presence ∧ (s.fire k n).link = s.link ∧ (s.fire k n).records = s.records
      ∧ (s.fire k n).serial = s.serial ∧ (s.fire k n).nextSearch = s.nextSearch ∧ (s.fire k n).tubesCompleted = s.tubesCompleted
      ∧ (s.fire k n).tubesMissed = s.tubesMissed ∧ (s.fire k n).tube = s.tube ∧ (s.fire k n).pool = s.pool
      ∧ (s.fire k n).now = s.now ∧ (s.fire k n).inputs = s.inputs ∧ (s.fire k n).pending = s.pending := by
  simp only [State.fire]
  simp

@[simp] theorem State.noisySlot_frame (s : State) (k : Head) (n : Snapshot) :
    (s.noisySlot k n).gauge = s.gauge ∧ (s.noisySlot k n).resetActive = s.resetActive ∧ (s.noisySlot k n).clearing = s.clearing
      ∧ (s.noisySlot k n).haltPending = s.haltPending ∧ (s.noisySlot k n).attnMask = s.attnMask
      ∧ (s.noisySlot k n).setup = s.setup ∧ (s.noisySlot k n).pins = s.pins ∧ (s.noisySlot k n).slots = s.slots
      ∧ (s.noisySlot k n).queue = s.queue ∧ (s.noisySlot k n).current = s.current ∧ (s.noisySlot k n).cycleAt = s.cycleAt
      ∧ (s.noisySlot k n).firing = s.firing ∧ (s.noisySlot k n).resumePending = s.resumePending
      ∧ (s.noisySlot k n).heads = s.heads ∧ (s.noisySlot k n).chans = s.chans ∧ (s.noisySlot k n).tracker = s.tracker
      ∧ (s.noisySlot k n).presence = s.presence ∧ (s.noisySlot k n).link = s.link ∧ (s.noisySlot k n).records = s.records
      ∧ (s.noisySlot k n).serial = s.serial ∧ (s.noisySlot k n).nextSearch = s.nextSearch
      ∧ (s.noisySlot k n).tubesCompleted = s.tubesCompleted ∧ (s.noisySlot k n).tubesMissed = s.tubesMissed
      ∧ (s.noisySlot k n).now = s.now ∧ (s.noisySlot k n).inputs = s.inputs ∧ (s.noisySlot k n).pending = s.pending := by
  simp only [State.noisySlot]
  simp

@[simp] theorem State.drySlot_frame (s : State) (k : Head) :
    (s.drySlot k).gauge = s.gauge ∧ (s.drySlot k).resetActive = s.resetActive ∧ (s.drySlot k).clearing = s.clearing
      ∧ (s.drySlot k).haltPending = s.haltPending ∧ (s.drySlot k).mem = s.mem ∧ (s.drySlot k).attnCause = s.attnCause
      ∧ (s.drySlot k).attnMask = s.attnMask ∧ (s.drySlot k).setup = s.setup ∧ (s.drySlot k).pins = s.pins
      ∧ (s.drySlot k).slots = s.slots ∧ (s.drySlot k).queue = s.queue ∧ (s.drySlot k).current = s.current
      ∧ (s.drySlot k).cycleAt = s.cycleAt ∧ (s.drySlot k).firing = s.firing ∧ (s.drySlot k).resumePending = s.resumePending
      ∧ (s.drySlot k).heads = s.heads ∧ (s.drySlot k).chans = s.chans ∧ (s.drySlot k).lastValid = s.lastValid
      ∧ (s.drySlot k).tracker = s.tracker ∧ (s.drySlot k).presence = s.presence ∧ (s.drySlot k).link = s.link
      ∧ (s.drySlot k).records = s.records ∧ (s.drySlot k).serial = s.serial ∧ (s.drySlot k).nextSearch = s.nextSearch
      ∧ (s.drySlot k).tubesCompleted = s.tubesCompleted ∧ (s.drySlot k).tubesMissed = s.tubesMissed
      ∧ (s.drySlot k).pool = s.pool ∧ (s.drySlot k).now = s.now ∧ (s.drySlot k).inputs = s.inputs
      ∧ (s.drySlot k).pending = s.pending := by
  simp only [State.drySlot]
  repeat' split
  all_goals simp

@[simp] theorem State.takeDecision_frame (s : State) (k : Head) (c : Nat) :
    (s.takeDecision k c).gauge = s.gauge ∧ (s.takeDecision k c).resetActive = s.resetActive
      ∧ (s.takeDecision k c).clearing = s.clearing ∧ (s.takeDecision k c).haltPending = s.haltPending
      ∧ (s.takeDecision k c).attnMask = s.attnMask ∧ (s.takeDecision k c).setup = s.setup ∧ (s.takeDecision k c).pins = s.pins
      ∧ (s.takeDecision k c).slots = s.slots ∧ (s.takeDecision k c).queue = s.queue ∧ (s.takeDecision k c).current = s.current
      ∧ (s.takeDecision k c).cycleAt = s.cycleAt ∧ (s.takeDecision k c).firing = s.firing
      ∧ (s.takeDecision k c).resumePending = s.resumePending ∧ (s.takeDecision k c).chans = s.chans
      ∧ (s.takeDecision k c).tracker = s.tracker ∧ (s.takeDecision k c).presence = s.presence
      ∧ (s.takeDecision k c).link = s.link ∧ (s.takeDecision k c).records = s.records ∧ (s.takeDecision k c).serial = s.serial
      ∧ (s.takeDecision k c).nextSearch = s.nextSearch ∧ (s.takeDecision k c).tubesCompleted = s.tubesCompleted
      ∧ (s.takeDecision k c).tubesMissed = s.tubesMissed ∧ (s.takeDecision k c).now = s.now
      ∧ (s.takeDecision k c).inputs = s.inputs ∧ (s.takeDecision k c).pending = s.pending := by
  simp only [State.takeDecision]
  repeat' split
  all_goals simp

@[simp] theorem State.fireDecision_frame (s : State) :
    s.fireDecision.gauge = s.gauge ∧ s.fireDecision.resetActive = s.resetActive ∧ s.fireDecision.clearing = s.clearing
      ∧ s.fireDecision.haltPending = s.haltPending ∧ s.fireDecision.attnMask = s.attnMask ∧ s.fireDecision.setup = s.setup
      ∧ s.fireDecision.pins = s.pins ∧ s.fireDecision.slots = s.slots ∧ s.fireDecision.queue = s.queue
      ∧ s.fireDecision.current = s.current ∧ s.fireDecision.cycleAt = s.cycleAt ∧ s.fireDecision.firing = s.firing
      ∧ s.fireDecision.resumePending = s.resumePending ∧ s.fireDecision.chans = s.chans ∧ s.fireDecision.tracker = s.tracker
      ∧ s.fireDecision.presence = s.presence ∧ s.fireDecision.link = s.link ∧ s.fireDecision.records = s.records
      ∧ s.fireDecision.serial = s.serial ∧ s.fireDecision.nextSearch = s.nextSearch
      ∧ s.fireDecision.tubesCompleted = s.tubesCompleted ∧ s.fireDecision.tubesMissed = s.tubesMissed
      ∧ s.fireDecision.now = s.now ∧ s.fireDecision.inputs = s.inputs ∧ s.fireDecision.pending = s.pending := by
  simp only [State.fireDecision]
  repeat' split
  all_goals simp

@[simp] theorem State.confEdge_frame (s : State) (k : Head) :
    (s.confEdge k).gauge = s.gauge ∧ (s.confEdge k).resetActive = s.resetActive ∧ (s.confEdge k).clearing = s.clearing
      ∧ (s.confEdge k).haltPending = s.haltPending ∧ (s.confEdge k).attnCause = s.attnCause
      ∧ (s.confEdge k).attnMask = s.attnMask ∧ (s.confEdge k).setup = s.setup ∧ (s.confEdge k).pins = s.pins
      ∧ (s.confEdge k).slots = s.slots ∧ (s.confEdge k).queue = s.queue ∧ (s.confEdge k).current = s.current
      ∧ (s.confEdge k).cycleAt = s.cycleAt ∧ (s.confEdge k).firing = s.firing ∧ (s.confEdge k).resumePending = s.resumePending
      ∧ (s.confEdge k).chans = s.chans ∧ (s.confEdge k).lastValid = s.lastValid ∧ (s.confEdge k).tracker = s.tracker
      ∧ (s.confEdge k).presence = s.presence ∧ (s.confEdge k).link = s.link ∧ (s.confEdge k).records = s.records
      ∧ (s.confEdge k).serial = s.serial ∧ (s.confEdge k).nextSearch = s.nextSearch
      ∧ (s.confEdge k).tubesCompleted = s.tubesCompleted ∧ (s.confEdge k).tubesMissed = s.tubesMissed
      ∧ (s.confEdge k).tube = s.tube ∧ (s.confEdge k).pool = s.pool ∧ (s.confEdge k).now = s.now
      ∧ (s.confEdge k).inputs = s.inputs ∧ (s.confEdge k).pending = s.pending := by
  simp only [State.confEdge]
  repeat' split
  all_goals simp

@[simp] theorem State.enterFault_frame (s : State) (k : Head) :
    (s.enterFault k).gauge = s.gauge ∧ (s.enterFault k).resetActive = s.resetActive ∧ (s.enterFault k).clearing = s.clearing
      ∧ (s.enterFault k).haltPending = s.haltPending ∧ (s.enterFault k).attnMask = s.attnMask ∧ (s.enterFault k).setup = s.setup
      ∧ (s.enterFault k).pins = s.pins ∧ (s.enterFault k).slots = s.slots ∧ (s.enterFault k).queue = s.queue
      ∧ (s.enterFault k).current = s.current ∧ (s.enterFault k).slot = s.slot ∧ (s.enterFault k).cycleAt = s.cycleAt
      ∧ (s.enterFault k).firing = s.firing ∧ (s.enterFault k).resumePending = s.resumePending ∧ (s.enterFault k).chans = s.chans
      ∧ (s.enterFault k).lastValid = s.lastValid ∧ (s.enterFault k).tracker = s.tracker ∧ (s.enterFault k).presence = s.presence
      ∧ (s.enterFault k).link = s.link ∧ (s.enterFault k).records = s.records ∧ (s.enterFault k).serial = s.serial
      ∧ (s.enterFault k).nextSearch = s.nextSearch ∧ (s.enterFault k).tubesCompleted = s.tubesCompleted
      ∧ (s.enterFault k).tubesMissed = s.tubesMissed ∧ (s.enterFault k).pool = s.pool ∧ (s.enterFault k).now = s.now
      ∧ (s.enterFault k).inputs = s.inputs ∧ (s.enterFault k).pending = s.pending := by
  simp only [State.enterFault]
  repeat' split
  all_goals simp

@[simp] theorem State.misfireShot_frame (s : State) (k : Head) (sh : Shot) :
    (s.misfireShot k sh).resetActive = s.resetActive ∧ (s.misfireShot k sh).clearing = s.clearing
      ∧ (s.misfireShot k sh).attnMask = s.attnMask ∧ (s.misfireShot k sh).setup = s.setup ∧ (s.misfireShot k sh).pins = s.pins
      ∧ (s.misfireShot k sh).queue = s.queue ∧ (s.misfireShot k sh).cycleAt = s.cycleAt ∧ (s.misfireShot k sh).firing = s.firing
      ∧ (s.misfireShot k sh).presence = s.presence ∧ (s.misfireShot k sh).serial = s.serial
      ∧ (s.misfireShot k sh).nextSearch = s.nextSearch ∧ (s.misfireShot k sh).tubesMissed = s.tubesMissed
      ∧ (s.misfireShot k sh).now = s.now ∧ (s.misfireShot k sh).inputs = s.inputs ∧ (s.misfireShot k sh).pending = s.pending := by
  simp only [State.misfireShot]
  repeat' split
  all_goals simp

@[simp] theorem State.afterCapture_frame (s : State) (k : Head) (sh : Shot) (c : Capture) :
    (s.afterCapture k sh c).resetActive = s.resetActive ∧ (s.afterCapture k sh c).clearing = s.clearing
      ∧ (s.afterCapture k sh c).attnMask = s.attnMask ∧ (s.afterCapture k sh c).setup = s.setup
      ∧ (s.afterCapture k sh c).pins = s.pins ∧ (s.afterCapture k sh c).queue = s.queue
      ∧ (s.afterCapture k sh c).cycleAt = s.cycleAt ∧ (s.afterCapture k sh c).firing = s.firing
      ∧ (s.afterCapture k sh c).heads = s.heads ∧ (s.afterCapture k sh c).presence = s.presence
      ∧ (s.afterCapture k sh c).serial = s.serial ∧ (s.afterCapture k sh c).nextSearch = s.nextSearch
      ∧ (s.afterCapture k sh c).tubesMissed = s.tubesMissed ∧ (s.afterCapture k sh c).now = s.now
      ∧ (s.afterCapture k sh c).inputs = s.inputs ∧ (s.afterCapture k sh c).pending = s.pending := by
  simp only [State.afterCapture]
  repeat' split
  all_goals simp

@[simp] theorem State.crossing_frame (s : State) (k : Head) (p : Polarity) (t : Nat) :
    (s.crossing k p t).resetActive = s.resetActive ∧ (s.crossing k p t).clearing = s.clearing
      ∧ (s.crossing k p t).attnMask = s.attnMask ∧ (s.crossing k p t).setup = s.setup ∧ (s.crossing k p t).pins = s.pins
      ∧ (s.crossing k p t).queue = s.queue ∧ (s.crossing k p t).cycleAt = s.cycleAt ∧ (s.crossing k p t).firing = s.firing
      ∧ (s.crossing k p t).heads = s.heads ∧ (s.crossing k p t).presence = s.presence ∧ (s.crossing k p t).serial = s.serial
      ∧ (s.crossing k p t).nextSearch = s.nextSearch ∧ (s.crossing k p t).tubesMissed = s.tubesMissed
      ∧ (s.crossing k p t).now = s.now ∧ (s.crossing k p t).inputs = s.inputs ∧ (s.crossing k p t).pending = s.pending := by
  simp only [State.crossing]
  repeat' split
  all_goals simp

@[simp] theorem State.holdOffEnd_frame (s : State) (t : Nat) :
    (s.holdOffEnd t).gauge = s.gauge ∧ (s.holdOffEnd t).resetActive = s.resetActive ∧ (s.holdOffEnd t).clearing = s.clearing
      ∧ (s.holdOffEnd t).haltPending = s.haltPending ∧ (s.holdOffEnd t).mem = s.mem ∧ (s.holdOffEnd t).attnCause = s.attnCause
      ∧ (s.holdOffEnd t).attnMask = s.attnMask ∧ (s.holdOffEnd t).setup = s.setup ∧ (s.holdOffEnd t).pins = s.pins
      ∧ (s.holdOffEnd t).slots = s.slots ∧ (s.holdOffEnd t).queue = s.queue ∧ (s.holdOffEnd t).current = s.current
      ∧ (s.holdOffEnd t).cycleAt = s.cycleAt ∧ (s.holdOffEnd t).firing = s.firing
      ∧ (s.holdOffEnd t).resumePending = s.resumePending ∧ (s.holdOffEnd t).heads = s.heads ∧ (s.holdOffEnd t).chans = s.chans
      ∧ (s.holdOffEnd t).lastValid = s.lastValid ∧ (s.holdOffEnd t).tracker = s.tracker ∧ (s.holdOffEnd t).presence = s.presence
      ∧ (s.holdOffEnd t).link = s.link ∧ (s.holdOffEnd t).records = s.records ∧ (s.holdOffEnd t).serial = s.serial
      ∧ (s.holdOffEnd t).nextSearch = s.nextSearch ∧ (s.holdOffEnd t).tubesCompleted = s.tubesCompleted
      ∧ (s.holdOffEnd t).tubesMissed = s.tubesMissed ∧ (s.holdOffEnd t).tube = s.tube ∧ (s.holdOffEnd t).pool = s.pool
      ∧ (s.holdOffEnd t).now = s.now ∧ (s.holdOffEnd t).inputs = s.inputs ∧ (s.holdOffEnd t).pending = s.pending := by
  simp only [State.holdOffEnd]
  repeat' split
  all_goals simp

@[simp] theorem State.sampleAmplitude_frame (s : State) (a : Byte) :
    (s.sampleAmplitude a).resetActive = s.resetActive ∧ (s.sampleAmplitude a).clearing = s.clearing
      ∧ (s.sampleAmplitude a).attnMask = s.attnMask ∧ (s.sampleAmplitude a).setup = s.setup
      ∧ (s.sampleAmplitude a).pins = s.pins ∧ (s.sampleAmplitude a).queue = s.queue ∧ (s.sampleAmplitude a).cycleAt = s.cycleAt
      ∧ (s.sampleAmplitude a).firing = s.firing ∧ (s.sampleAmplitude a).heads = s.heads
      ∧ (s.sampleAmplitude a).presence = s.presence ∧ (s.sampleAmplitude a).serial = s.serial
      ∧ (s.sampleAmplitude a).nextSearch = s.nextSearch ∧ (s.sampleAmplitude a).tubesMissed = s.tubesMissed
      ∧ (s.sampleAmplitude a).now = s.now ∧ (s.sampleAmplitude a).inputs = s.inputs ∧ (s.sampleAmplitude a).pending = s.pending := by
  simp only [State.sampleAmplitude]
  repeat' split
  all_goals simp

@[simp] theorem State.endBlanking_frame (s : State) :
    s.endBlanking.gauge = s.gauge ∧ s.endBlanking.resetActive = s.resetActive ∧ s.endBlanking.clearing = s.clearing
      ∧ s.endBlanking.haltPending = s.haltPending ∧ s.endBlanking.mem = s.mem ∧ s.endBlanking.attnCause = s.attnCause
      ∧ s.endBlanking.attnMask = s.attnMask ∧ s.endBlanking.setup = s.setup ∧ s.endBlanking.pins = s.pins
      ∧ s.endBlanking.slots = s.slots ∧ s.endBlanking.queue = s.queue ∧ s.endBlanking.current = s.current
      ∧ s.endBlanking.cycleAt = s.cycleAt ∧ s.endBlanking.firing = s.firing ∧ s.endBlanking.resumePending = s.resumePending
      ∧ s.endBlanking.heads = s.heads ∧ s.endBlanking.chans = s.chans ∧ s.endBlanking.lastValid = s.lastValid
      ∧ s.endBlanking.tracker = s.tracker ∧ s.endBlanking.presence = s.presence ∧ s.endBlanking.link = s.link
      ∧ s.endBlanking.records = s.records ∧ s.endBlanking.serial = s.serial ∧ s.endBlanking.nextSearch = s.nextSearch
      ∧ s.endBlanking.tubesCompleted = s.tubesCompleted ∧ s.endBlanking.tubesMissed = s.tubesMissed
      ∧ s.endBlanking.tube = s.tube ∧ s.endBlanking.pool = s.pool ∧ s.endBlanking.now = s.now ∧ s.endBlanking.inputs = s.inputs
      ∧ s.endBlanking.pending = s.pending := by
  simp only [State.endBlanking]
  repeat' split
  all_goals simp

@[simp] theorem State.windowEnd_frame (s : State) (a : Byte) :
    (s.windowEnd a).resetActive = s.resetActive ∧ (s.windowEnd a).clearing = s.clearing ∧ (s.windowEnd a).attnMask = s.attnMask
      ∧ (s.windowEnd a).setup = s.setup ∧ (s.windowEnd a).pins = s.pins ∧ (s.windowEnd a).queue = s.queue
      ∧ (s.windowEnd a).cycleAt = s.cycleAt ∧ (s.windowEnd a).firing = s.firing ∧ (s.windowEnd a).heads = s.heads
      ∧ (s.windowEnd a).presence = s.presence ∧ (s.windowEnd a).serial = s.serial ∧ (s.windowEnd a).nextSearch = s.nextSearch
      ∧ (s.windowEnd a).tubesMissed = s.tubesMissed ∧ (s.windowEnd a).now = s.now ∧ (s.windowEnd a).inputs = s.inputs
      ∧ (s.windowEnd a).pending = s.pending := by
  simp only [State.windowEnd]
  repeat' split
  all_goals simp

@[simp] theorem State.misfire_frame (s : State) :
    s.misfire.resetActive = s.resetActive ∧ s.misfire.clearing = s.clearing ∧ s.misfire.attnMask = s.attnMask
      ∧ s.misfire.setup = s.setup ∧ s.misfire.pins = s.pins ∧ s.misfire.queue = s.queue ∧ s.misfire.cycleAt = s.cycleAt
      ∧ s.misfire.firing = s.firing ∧ s.misfire.presence = s.presence ∧ s.misfire.serial = s.serial
      ∧ s.misfire.nextSearch = s.nextSearch ∧ s.misfire.tubesMissed = s.tubesMissed ∧ s.misfire.now = s.now
      ∧ s.misfire.inputs = s.inputs ∧ s.misfire.pending = s.pending := by
  simp only [State.misfire]
  repeat' split
  all_goals simp

@[simp] theorem State.abortShot_frame (s : State) :
    s.abortShot.resetActive = s.resetActive ∧ s.abortShot.clearing = s.clearing ∧ s.abortShot.attnMask = s.attnMask
      ∧ s.abortShot.setup = s.setup ∧ s.abortShot.pins = s.pins ∧ s.abortShot.queue = s.queue ∧ s.abortShot.cycleAt = s.cycleAt
      ∧ s.abortShot.firing = s.firing ∧ s.abortShot.heads = s.heads ∧ s.abortShot.presence = s.presence
      ∧ s.abortShot.serial = s.serial ∧ s.abortShot.nextSearch = s.nextSearch ∧ s.abortShot.tubesMissed = s.tubesMissed
      ∧ s.abortShot.now = s.now ∧ s.abortShot.inputs = s.inputs ∧ s.abortShot.pending = s.pending := by
  simp only [State.abortShot]
  repeat' split
  all_goals simp

@[simp] theorem State.losePermit_frame (s : State) :
    s.losePermit.resetActive = s.resetActive ∧ s.losePermit.clearing = s.clearing ∧ s.losePermit.attnMask = s.attnMask
      ∧ s.losePermit.setup = s.setup ∧ s.losePermit.queue = s.queue ∧ s.losePermit.cycleAt = s.cycleAt
      ∧ s.losePermit.heads = s.heads ∧ s.losePermit.presence = s.presence ∧ s.losePermit.serial = s.serial
      ∧ s.losePermit.nextSearch = s.nextSearch ∧ s.losePermit.tubesMissed = s.tubesMissed ∧ s.losePermit.now = s.now
      ∧ s.losePermit.inputs = s.inputs ∧ s.losePermit.pending = s.pending := by
  simp only [State.losePermit]
  repeat' split
  all_goals simp

@[simp] theorem State.gainPermit_frame (s : State) :
    s.gainPermit.gauge = s.gauge ∧ s.gainPermit.resetActive = s.resetActive ∧ s.gainPermit.clearing = s.clearing
      ∧ s.gainPermit.haltPending = s.haltPending ∧ s.gainPermit.mem = s.mem ∧ s.gainPermit.attnCause = s.attnCause
      ∧ s.gainPermit.attnMask = s.attnMask ∧ s.gainPermit.setup = s.setup ∧ s.gainPermit.slots = s.slots
      ∧ s.gainPermit.queue = s.queue ∧ s.gainPermit.current = s.current ∧ s.gainPermit.slot = s.slot
      ∧ s.gainPermit.cycleAt = s.cycleAt ∧ s.gainPermit.firing = s.firing ∧ s.gainPermit.resumePending = s.resumePending
      ∧ s.gainPermit.heads = s.heads ∧ s.gainPermit.chans = s.chans ∧ s.gainPermit.lastValid = s.lastValid
      ∧ s.gainPermit.tracker = s.tracker ∧ s.gainPermit.presence = s.presence ∧ s.gainPermit.link = s.link
      ∧ s.gainPermit.records = s.records ∧ s.gainPermit.serial = s.serial ∧ s.gainPermit.nextSearch = s.nextSearch
      ∧ s.gainPermit.tubesCompleted = s.tubesCompleted ∧ s.gainPermit.tubesMissed = s.tubesMissed ∧ s.gainPermit.tube = s.tube
      ∧ s.gainPermit.pool = s.pool ∧ s.gainPermit.now = s.now ∧ s.gainPermit.inputs = s.inputs
      ∧ s.gainPermit.pending = s.pending := by
  simp only [State.gainPermit]
  simp

@[simp] theorem State.openSlot_frame (s : State) (k : Head) :
    (s.openSlot k).gauge = s.gauge ∧ (s.openSlot k).resetActive = s.resetActive ∧ (s.openSlot k).clearing = s.clearing
      ∧ (s.openSlot k).haltPending = s.haltPending ∧ (s.openSlot k).mem = s.mem ∧ (s.openSlot k).attnCause = s.attnCause
      ∧ (s.openSlot k).attnMask = s.attnMask ∧ (s.openSlot k).setup = s.setup ∧ (s.openSlot k).pins = s.pins
      ∧ (s.openSlot k).slots = s.slots ∧ (s.openSlot k).queue = s.queue ∧ (s.openSlot k).current = s.current
      ∧ (s.openSlot k).cycleAt = s.cycleAt ∧ (s.openSlot k).firing = s.firing ∧ (s.openSlot k).resumePending = s.resumePending
      ∧ (s.openSlot k).heads = s.heads ∧ (s.openSlot k).chans = s.chans ∧ (s.openSlot k).lastValid = s.lastValid
      ∧ (s.openSlot k).tracker = s.tracker ∧ (s.openSlot k).presence = s.presence ∧ (s.openSlot k).link = s.link
      ∧ (s.openSlot k).records = s.records ∧ (s.openSlot k).serial = s.serial ∧ (s.openSlot k).nextSearch = s.nextSearch
      ∧ (s.openSlot k).tubesCompleted = s.tubesCompleted ∧ (s.openSlot k).tubesMissed = s.tubesMissed
      ∧ (s.openSlot k).tube = s.tube ∧ (s.openSlot k).pool = s.pool ∧ (s.openSlot k).now = s.now
      ∧ (s.openSlot k).inputs = s.inputs ∧ (s.openSlot k).pending = s.pending := by
  simp only [State.openSlot]
  simp

@[simp] theorem State.nextSlot_frame (s : State) (a : Byte) :
    (s.nextSlot a).resetActive = s.resetActive ∧ (s.nextSlot a).clearing = s.clearing ∧ (s.nextSlot a).attnMask = s.attnMask
      ∧ (s.nextSlot a).setup = s.setup ∧ (s.nextSlot a).pins = s.pins ∧ (s.nextSlot a).queue = s.queue
      ∧ (s.nextSlot a).cycleAt = s.cycleAt ∧ (s.nextSlot a).firing = s.firing ∧ (s.nextSlot a).heads = s.heads
      ∧ (s.nextSlot a).presence = s.presence ∧ (s.nextSlot a).serial = s.serial ∧ (s.nextSlot a).nextSearch = s.nextSearch
      ∧ (s.nextSlot a).tubesMissed = s.tubesMissed ∧ (s.nextSlot a).now = s.now ∧ (s.nextSlot a).inputs = s.inputs
      ∧ (s.nextSlot a).pending = s.pending := by
  simp only [State.nextSlot, State.ifRunning]
  repeat' split
  all_goals simp

@[simp] theorem State.restartFiring_frame (s : State) :
    s.restartFiring.gauge = s.gauge ∧ s.restartFiring.resetActive = s.resetActive ∧ s.restartFiring.clearing = s.clearing
      ∧ s.restartFiring.haltPending = s.haltPending ∧ s.restartFiring.attnCause = s.attnCause
      ∧ s.restartFiring.attnMask = s.attnMask ∧ s.restartFiring.setup = s.setup ∧ s.restartFiring.pins = s.pins
      ∧ s.restartFiring.slots = s.slots ∧ s.restartFiring.queue = s.queue ∧ s.restartFiring.current = s.current
      ∧ s.restartFiring.slot = s.slot ∧ s.restartFiring.cycleAt = s.cycleAt ∧ s.restartFiring.heads = s.heads
      ∧ s.restartFiring.chans = s.chans ∧ s.restartFiring.lastValid = s.lastValid ∧ s.restartFiring.tracker = s.tracker
      ∧ s.restartFiring.presence = s.presence ∧ s.restartFiring.link = s.link ∧ s.restartFiring.records = s.records
      ∧ s.restartFiring.serial = s.serial ∧ s.restartFiring.nextSearch = s.nextSearch
      ∧ s.restartFiring.tubesCompleted = s.tubesCompleted ∧ s.restartFiring.tubesMissed = s.tubesMissed
      ∧ s.restartFiring.tube = s.tube ∧ s.restartFiring.pool = s.pool ∧ s.restartFiring.now = s.now
      ∧ s.restartFiring.inputs = s.inputs ∧ s.restartFiring.pending = s.pending := by
  simp only [State.restartFiring]
  repeat' split
  all_goals simp

@[simp] theorem State.openCycle_frame (s : State) :
    s.openCycle.gauge = s.gauge ∧ s.openCycle.resetActive = s.resetActive ∧ s.openCycle.clearing = s.clearing
      ∧ s.openCycle.haltPending = s.haltPending ∧ s.openCycle.mem = s.mem ∧ s.openCycle.attnCause = s.attnCause
      ∧ s.openCycle.attnMask = s.attnMask ∧ s.openCycle.setup = s.setup ∧ s.openCycle.pins = s.pins
      ∧ s.openCycle.slots = s.slots ∧ s.openCycle.queue = s.queue ∧ s.openCycle.current = s.current
      ∧ s.openCycle.firing = s.firing ∧ s.openCycle.resumePending = s.resumePending ∧ s.openCycle.heads = s.heads
      ∧ s.openCycle.chans = s.chans ∧ s.openCycle.lastValid = s.lastValid ∧ s.openCycle.tracker = s.tracker
      ∧ s.openCycle.presence = s.presence ∧ s.openCycle.link = s.link ∧ s.openCycle.records = s.records
      ∧ s.openCycle.serial = s.serial ∧ s.openCycle.nextSearch = s.nextSearch ∧ s.openCycle.tubesCompleted = s.tubesCompleted
      ∧ s.openCycle.tubesMissed = s.tubesMissed ∧ s.openCycle.tube = s.tube ∧ s.openCycle.pool = s.pool
      ∧ s.openCycle.now = s.now ∧ s.openCycle.inputs = s.inputs ∧ s.openCycle.pending = s.pending := by
  simp only [State.openCycle]
  simp

@[simp] theorem State.freshCycle_frame (s : State) :
    s.freshCycle.gauge = s.gauge ∧ s.freshCycle.resetActive = s.resetActive ∧ s.freshCycle.clearing = s.clearing
      ∧ s.freshCycle.haltPending = s.haltPending ∧ s.freshCycle.attnMask = s.attnMask ∧ s.freshCycle.setup = s.setup
      ∧ s.freshCycle.pins = s.pins ∧ s.freshCycle.queue = s.queue ∧ s.freshCycle.current = s.current
      ∧ s.freshCycle.heads = s.heads ∧ s.freshCycle.lastValid = s.lastValid ∧ s.freshCycle.tracker = s.tracker
      ∧ s.freshCycle.presence = s.presence ∧ s.freshCycle.link = s.link ∧ s.freshCycle.records = s.records
      ∧ s.freshCycle.serial = s.serial ∧ s.freshCycle.nextSearch = s.nextSearch ∧ s.freshCycle.tubesCompleted = s.tubesCompleted
      ∧ s.freshCycle.tubesMissed = s.tubesMissed ∧ s.freshCycle.pool = s.pool ∧ s.freshCycle.now = s.now
      ∧ s.freshCycle.inputs = s.inputs ∧ s.freshCycle.pending = s.pending := by
  simp only [State.freshCycle]
  simp

@[simp] theorem State.decidedCycle_frame (s : State) :
    s.decidedCycle.gauge = s.gauge ∧ s.decidedCycle.resetActive = s.resetActive ∧ s.decidedCycle.clearing = s.clearing
      ∧ s.decidedCycle.haltPending = s.haltPending ∧ s.decidedCycle.attnMask = s.attnMask ∧ s.decidedCycle.setup = s.setup
      ∧ s.decidedCycle.pins = s.pins ∧ s.decidedCycle.queue = s.queue ∧ s.decidedCycle.current = s.current
      ∧ s.decidedCycle.tracker = s.tracker ∧ s.decidedCycle.presence = s.presence ∧ s.decidedCycle.link = s.link
      ∧ s.decidedCycle.records = s.records ∧ s.decidedCycle.serial = s.serial ∧ s.decidedCycle.nextSearch = s.nextSearch
      ∧ s.decidedCycle.tubesCompleted = s.tubesCompleted ∧ s.decidedCycle.tubesMissed = s.tubesMissed
      ∧ s.decidedCycle.now = s.now ∧ s.decidedCycle.inputs = s.inputs ∧ s.decidedCycle.pending = s.pending := by
  simp only [State.decidedCycle]
  repeat' split
  all_goals simp

@[simp] theorem State.beginCycle_frame (s : State) (o : CycleOrder) (a : Byte) :
    (s.beginCycle o a).resetActive = s.resetActive ∧ (s.beginCycle o a).clearing = s.clearing
      ∧ (s.beginCycle o a).attnMask = s.attnMask ∧ (s.beginCycle o a).setup = s.setup ∧ (s.beginCycle o a).pins = s.pins
      ∧ (s.beginCycle o a).queue = s.queue ∧ (s.beginCycle o a).presence = s.presence ∧ (s.beginCycle o a).serial = s.serial
      ∧ (s.beginCycle o a).nextSearch = s.nextSearch ∧ (s.beginCycle o a).tubesMissed = s.tubesMissed
      ∧ (s.beginCycle o a).now = s.now ∧ (s.beginCycle o a).inputs = s.inputs ∧ (s.beginCycle o a).pending = s.pending := by
  simp only [State.beginCycle, State.ifRunning]
  repeat' split
  all_goals simp

@[simp] theorem State.cycleStart_frame (s : State) (o : CycleOrder) (a : Byte) :
    (s.cycleStart o a).resetActive = s.resetActive ∧ (s.cycleStart o a).clearing = s.clearing
      ∧ (s.cycleStart o a).attnMask = s.attnMask ∧ (s.cycleStart o a).setup = s.setup ∧ (s.cycleStart o a).pins = s.pins
      ∧ (s.cycleStart o a).queue = s.queue ∧ (s.cycleStart o a).presence = s.presence ∧ (s.cycleStart o a).serial = s.serial
      ∧ (s.cycleStart o a).nextSearch = s.nextSearch ∧ (s.cycleStart o a).tubesMissed = s.tubesMissed
      ∧ (s.cycleStart o a).now = s.now ∧ (s.cycleStart o a).inputs = s.inputs ∧ (s.cycleStart o a).pending = s.pending := by
  simp only [State.cycleStart]
  repeat' split
  all_goals simp

end Sys2Proof.Machine
end

