-- ==== Sys2Proof/Laws/Tracking.lean ====
section
/-! SUPPORT. What the tracker's operations change. For each operation, one lemma that says which parts of the state it leaves alone. -/

namespace Sys2Proof.Machine

@[simp] theorem State.endMeasuring_frame (s : State) (o : Option TubeOutcome) :
    (s.endMeasuring o).resetActive = s.resetActive ∧ (s.endMeasuring o).clearing = s.clearing
      ∧ (s.endMeasuring o).haltPending = s.haltPending ∧ (s.endMeasuring o).attnCause = s.attnCause
      ∧ (s.endMeasuring o).attnMask = s.attnMask ∧ (s.endMeasuring o).setup = s.setup ∧ (s.endMeasuring o).pins = s.pins
      ∧ (s.endMeasuring o).slots = s.slots ∧ (s.endMeasuring o).queue = s.queue ∧ (s.endMeasuring o).current = s.current
      ∧ (s.endMeasuring o).slot = s.slot ∧ (s.endMeasuring o).cycleAt = s.cycleAt ∧ (s.endMeasuring o).firing = s.firing
      ∧ (s.endMeasuring o).resumePending = s.resumePending ∧ (s.endMeasuring o).heads = s.heads
      ∧ (s.endMeasuring o).chans = s.chans ∧ (s.endMeasuring o).lastValid = s.lastValid
      ∧ (s.endMeasuring o).presence = s.presence ∧ (s.endMeasuring o).link = s.link ∧ (s.endMeasuring o).records = s.records
      ∧ (s.endMeasuring o).serial = s.serial ∧ (s.endMeasuring o).nextSearch = s.nextSearch
      ∧ (s.endMeasuring o).tubesCompleted = s.tubesCompleted ∧ (s.endMeasuring o).tubesMissed = s.tubesMissed
      ∧ (s.endMeasuring o).pool = s.pool ∧ (s.endMeasuring o).now = s.now ∧ (s.endMeasuring o).inputs = s.inputs
      ∧ (s.endMeasuring o).pending = s.pending := by
  simp only [State.endMeasuring]
  simp

@[simp] theorem State.judgeLength_frame (s : State) :
    s.judgeLength.resetActive = s.resetActive ∧ s.judgeLength.clearing = s.clearing ∧ s.judgeLength.attnMask = s.attnMask
      ∧ s.judgeLength.setup = s.setup ∧ s.judgeLength.pins = s.pins ∧ s.judgeLength.queue = s.queue
      ∧ s.judgeLength.cycleAt = s.cycleAt ∧ s.judgeLength.firing = s.firing ∧ s.judgeLength.heads = s.heads
      ∧ s.judgeLength.chans = s.chans ∧ s.judgeLength.lastValid = s.lastValid ∧ s.judgeLength.presence = s.presence
      ∧ s.judgeLength.serial = s.serial ∧ s.judgeLength.nextSearch = s.nextSearch ∧ s.judgeLength.tubesMissed = s.tubesMissed
      ∧ s.judgeLength.now = s.now ∧ s.judgeLength.inputs = s.inputs ∧ s.judgeLength.pending = s.pending := by
  simp only [State.judgeLength]
  repeat' split
  all_goals simp

@[simp] theorem State.enterLost_frame (s : State) :
    s.enterLost.gauge = s.gauge ∧ s.enterLost.resetActive = s.resetActive ∧ s.enterLost.clearing = s.clearing
      ∧ s.enterLost.haltPending = s.haltPending ∧ s.enterLost.attnMask = s.attnMask ∧ s.enterLost.setup = s.setup
      ∧ s.enterLost.pins = s.pins ∧ s.enterLost.slots = s.slots ∧ s.enterLost.queue = s.queue ∧ s.enterLost.current = s.current
      ∧ s.enterLost.slot = s.slot ∧ s.enterLost.cycleAt = s.cycleAt ∧ s.enterLost.firing = s.firing
      ∧ s.enterLost.resumePending = s.resumePending ∧ s.enterLost.heads = s.heads ∧ s.enterLost.chans = s.chans
      ∧ s.enterLost.lastValid = s.lastValid ∧ s.enterLost.presence = s.presence ∧ s.enterLost.link = s.link
      ∧ s.enterLost.records = s.records ∧ s.enterLost.serial = s.serial ∧ s.enterLost.nextSearch = s.nextSearch
      ∧ s.enterLost.tubesCompleted = s.tubesCompleted ∧ s.enterLost.tubesMissed = s.tubesMissed ∧ s.enterLost.pool = s.pool
      ∧ s.enterLost.now = s.now ∧ s.enterLost.inputs = s.inputs ∧ s.enterLost.pending = s.pending := by
  simp only [State.enterLost]
  simp

@[simp] theorem State.positionChange_frame (s : State) (n : Nat) (y : Bool) :
    (s.positionChange n y).resetActive = s.resetActive ∧ (s.positionChange n y).clearing = s.clearing
      ∧ (s.positionChange n y).attnMask = s.attnMask ∧ (s.positionChange n y).setup = s.setup
      ∧ (s.positionChange n y).pins = s.pins ∧ (s.positionChange n y).queue = s.queue
      ∧ (s.positionChange n y).cycleAt = s.cycleAt ∧ (s.positionChange n y).firing = s.firing
      ∧ (s.positionChange n y).heads = s.heads ∧ (s.positionChange n y).chans = s.chans
      ∧ (s.positionChange n y).lastValid = s.lastValid ∧ (s.positionChange n y).presence = s.presence
      ∧ (s.positionChange n y).serial = s.serial ∧ (s.positionChange n y).nextSearch = s.nextSearch
      ∧ (s.positionChange n y).tubesMissed = s.tubesMissed ∧ (s.positionChange n y).now = s.now
      ∧ (s.positionChange n y).inputs = s.inputs ∧ (s.positionChange n y).pending = s.pending := by
  simp only [State.positionChange]
  repeat' split
  all_goals simp

@[simp] theorem State.measure_frame (s : State) (us : Nat) :
    (s.measure us).gauge = s.gauge ∧ (s.measure us).resetActive = s.resetActive ∧ (s.measure us).clearing = s.clearing
      ∧ (s.measure us).haltPending = s.haltPending ∧ (s.measure us).attnCause = s.attnCause
      ∧ (s.measure us).attnMask = s.attnMask ∧ (s.measure us).setup = s.setup ∧ (s.measure us).pins = s.pins
      ∧ (s.measure us).slots = s.slots ∧ (s.measure us).queue = s.queue ∧ (s.measure us).current = s.current
      ∧ (s.measure us).slot = s.slot ∧ (s.measure us).cycleAt = s.cycleAt ∧ (s.measure us).firing = s.firing
      ∧ (s.measure us).resumePending = s.resumePending ∧ (s.measure us).heads = s.heads ∧ (s.measure us).chans = s.chans
      ∧ (s.measure us).lastValid = s.lastValid ∧ (s.measure us).presence = s.presence ∧ (s.measure us).link = s.link
      ∧ (s.measure us).records = s.records ∧ (s.measure us).serial = s.serial ∧ (s.measure us).nextSearch = s.nextSearch
      ∧ (s.measure us).tubesCompleted = s.tubesCompleted ∧ (s.measure us).tubesMissed = s.tubesMissed
      ∧ (s.measure us).tube = s.tube ∧ (s.measure us).pool = s.pool ∧ (s.measure us).now = s.now
      ∧ (s.measure us).inputs = s.inputs ∧ (s.measure us).pending = s.pending := by
  simp only [State.measure]
  repeat' split
  all_goals simp

@[simp] theorem State.restartStall_frame (s : State) :
    s.restartStall.gauge = s.gauge ∧ s.restartStall.resetActive = s.resetActive ∧ s.restartStall.clearing = s.clearing
      ∧ s.restartStall.haltPending = s.haltPending ∧ s.restartStall.mem = s.mem ∧ s.restartStall.attnCause = s.attnCause
      ∧ s.restartStall.attnMask = s.attnMask ∧ s.restartStall.setup = s.setup ∧ s.restartStall.pins = s.pins
      ∧ s.restartStall.slots = s.slots ∧ s.restartStall.queue = s.queue ∧ s.restartStall.current = s.current
      ∧ s.restartStall.slot = s.slot ∧ s.restartStall.cycleAt = s.cycleAt ∧ s.restartStall.firing = s.firing
      ∧ s.restartStall.resumePending = s.resumePending ∧ s.restartStall.heads = s.heads ∧ s.restartStall.chans = s.chans
      ∧ s.restartStall.lastValid = s.lastValid ∧ s.restartStall.presence = s.presence ∧ s.restartStall.link = s.link
      ∧ s.restartStall.records = s.records ∧ s.restartStall.serial = s.serial ∧ s.restartStall.nextSearch = s.nextSearch
      ∧ s.restartStall.tubesCompleted = s.tubesCompleted ∧ s.restartStall.tubesMissed = s.tubesMissed
      ∧ s.restartStall.tube = s.tube ∧ s.restartStall.pool = s.pool ∧ s.restartStall.now = s.now
      ∧ s.restartStall.inputs = s.inputs ∧ s.restartStall.pending = s.pending := by
  simp only [State.restartStall]
  simp

@[simp] theorem State.endEpisode_frame (s : State) :
    s.endEpisode.gauge = s.gauge ∧ s.endEpisode.resetActive = s.resetActive ∧ s.endEpisode.clearing = s.clearing
      ∧ s.endEpisode.haltPending = s.haltPending ∧ s.endEpisode.attnCause = s.attnCause ∧ s.endEpisode.attnMask = s.attnMask
      ∧ s.endEpisode.setup = s.setup ∧ s.endEpisode.pins = s.pins ∧ s.endEpisode.slots = s.slots ∧ s.endEpisode.queue = s.queue
      ∧ s.endEpisode.current = s.current ∧ s.endEpisode.slot = s.slot ∧ s.endEpisode.cycleAt = s.cycleAt
      ∧ s.endEpisode.firing = s.firing ∧ s.endEpisode.resumePending = s.resumePending ∧ s.endEpisode.heads = s.heads
      ∧ s.endEpisode.chans = s.chans ∧ s.endEpisode.lastValid = s.lastValid ∧ s.endEpisode.presence = s.presence
      ∧ s.endEpisode.link = s.link ∧ s.endEpisode.records = s.records ∧ s.endEpisode.serial = s.serial
      ∧ s.endEpisode.nextSearch = s.nextSearch ∧ s.endEpisode.tubesCompleted = s.tubesCompleted
      ∧ s.endEpisode.tubesMissed = s.tubesMissed ∧ s.endEpisode.tube = s.tube ∧ s.endEpisode.pool = s.pool
      ∧ s.endEpisode.now = s.now ∧ s.endEpisode.inputs = s.inputs ∧ s.endEpisode.pending = s.pending := by
  simp only [State.endEpisode]
  simp

@[simp] theorem State.realStep_frame (s : State) (us : Nat) :
    (s.realStep us).resetActive = s.resetActive ∧ (s.realStep us).clearing = s.clearing ∧ (s.realStep us).attnMask = s.attnMask
      ∧ (s.realStep us).setup = s.setup ∧ (s.realStep us).pins = s.pins ∧ (s.realStep us).queue = s.queue
      ∧ (s.realStep us).cycleAt = s.cycleAt ∧ (s.realStep us).firing = s.firing ∧ (s.realStep us).heads = s.heads
      ∧ (s.realStep us).chans = s.chans ∧ (s.realStep us).lastValid = s.lastValid ∧ (s.realStep us).presence = s.presence
      ∧ (s.realStep us).serial = s.serial ∧ (s.realStep us).nextSearch = s.nextSearch
      ∧ (s.realStep us).tubesMissed = s.tubesMissed ∧ (s.realStep us).now = s.now ∧ (s.realStep us).inputs = s.inputs
      ∧ (s.realStep us).pending = s.pending := by
  simp only [State.realStep]
  repeat' split
  all_goals simp

@[simp] theorem State.countSynthetic_frame (s : State) (n : Nat) :
    (s.countSynthetic n).gauge = s.gauge ∧ (s.countSynthetic n).resetActive = s.resetActive
      ∧ (s.countSynthetic n).clearing = s.clearing ∧ (s.countSynthetic n).haltPending = s.haltPending
      ∧ (s.countSynthetic n).mem = s.mem ∧ (s.countSynthetic n).attnCause = s.attnCause
      ∧ (s.countSynthetic n).attnMask = s.attnMask ∧ (s.countSynthetic n).setup = s.setup ∧ (s.countSynthetic n).pins = s.pins
      ∧ (s.countSynthetic n).slots = s.slots ∧ (s.countSynthetic n).queue = s.queue ∧ (s.countSynthetic n).current = s.current
      ∧ (s.countSynthetic n).slot = s.slot ∧ (s.countSynthetic n).cycleAt = s.cycleAt ∧ (s.countSynthetic n).firing = s.firing
      ∧ (s.countSynthetic n).resumePending = s.resumePending ∧ (s.countSynthetic n).heads = s.heads
      ∧ (s.countSynthetic n).chans = s.chans ∧ (s.countSynthetic n).lastValid = s.lastValid
      ∧ (s.countSynthetic n).presence = s.presence ∧ (s.countSynthetic n).link = s.link
      ∧ (s.countSynthetic n).records = s.records ∧ (s.countSynthetic n).serial = s.serial
      ∧ (s.countSynthetic n).nextSearch = s.nextSearch ∧ (s.countSynthetic n).tubesCompleted = s.tubesCompleted
      ∧ (s.countSynthetic n).tubesMissed = s.tubesMissed ∧ (s.countSynthetic n).pool = s.pool ∧ (s.countSynthetic n).now = s.now
      ∧ (s.countSynthetic n).inputs = s.inputs ∧ (s.countSynthetic n).pending = s.pending := by
  simp only [State.countSynthetic]
  simp

@[simp] theorem State.endIfSpent_frame (s : State) (n : Nat) :
    (s.endIfSpent n).gauge = s.gauge ∧ (s.endIfSpent n).resetActive = s.resetActive ∧ (s.endIfSpent n).clearing = s.clearing
      ∧ (s.endIfSpent n).haltPending = s.haltPending ∧ (s.endIfSpent n).attnMask = s.attnMask ∧ (s.endIfSpent n).setup = s.setup
      ∧ (s.endIfSpent n).pins = s.pins ∧ (s.endIfSpent n).slots = s.slots ∧ (s.endIfSpent n).queue = s.queue
      ∧ (s.endIfSpent n).current = s.current ∧ (s.endIfSpent n).slot = s.slot ∧ (s.endIfSpent n).cycleAt = s.cycleAt
      ∧ (s.endIfSpent n).firing = s.firing ∧ (s.endIfSpent n).resumePending = s.resumePending ∧ (s.endIfSpent n).heads = s.heads
      ∧ (s.endIfSpent n).chans = s.chans ∧ (s.endIfSpent n).lastValid = s.lastValid ∧ (s.endIfSpent n).presence = s.presence
      ∧ (s.endIfSpent n).link = s.link ∧ (s.endIfSpent n).records = s.records ∧ (s.endIfSpent n).serial = s.serial
      ∧ (s.endIfSpent n).nextSearch = s.nextSearch ∧ (s.endIfSpent n).tubesCompleted = s.tubesCompleted
      ∧ (s.endIfSpent n).tubesMissed = s.tubesMissed ∧ (s.endIfSpent n).pool = s.pool ∧ (s.endIfSpent n).now = s.now
      ∧ (s.endIfSpent n).inputs = s.inputs ∧ (s.endIfSpent n).pending = s.pending := by
  simp only [State.endIfSpent]
  repeat' split
  all_goals simp

@[simp] theorem State.enterReckoning_frame (s : State) :
    s.enterReckoning.gauge = s.gauge ∧ s.enterReckoning.resetActive = s.resetActive ∧ s.enterReckoning.clearing = s.clearing
      ∧ s.enterReckoning.haltPending = s.haltPending ∧ s.enterReckoning.attnMask = s.attnMask ∧ s.enterReckoning.setup = s.setup
      ∧ s.enterReckoning.pins = s.pins ∧ s.enterReckoning.slots = s.slots ∧ s.enterReckoning.queue = s.queue
      ∧ s.enterReckoning.current = s.current ∧ s.enterReckoning.slot = s.slot ∧ s.enterReckoning.cycleAt = s.cycleAt
      ∧ s.enterReckoning.firing = s.firing ∧ s.enterReckoning.resumePending = s.resumePending ∧ s.enterReckoning.heads = s.heads
      ∧ s.enterReckoning.chans = s.chans ∧ s.enterReckoning.lastValid = s.lastValid ∧ s.enterReckoning.presence = s.presence
      ∧ s.enterReckoning.link = s.link ∧ s.enterReckoning.records = s.records ∧ s.enterReckoning.serial = s.serial
      ∧ s.enterReckoning.nextSearch = s.nextSearch ∧ s.enterReckoning.tubesCompleted = s.tubesCompleted
      ∧ s.enterReckoning.tubesMissed = s.tubesMissed ∧ s.enterReckoning.pool = s.pool ∧ s.enterReckoning.now = s.now
      ∧ s.enterReckoning.inputs = s.inputs ∧ s.enterReckoning.pending = s.pending := by
  simp only [State.enterReckoning]
  simp

@[simp] theorem State.stall_frame (s : State) :
    s.stall.resetActive = s.resetActive ∧ s.stall.clearing = s.clearing ∧ s.stall.attnMask = s.attnMask
      ∧ s.stall.setup = s.setup ∧ s.stall.pins = s.pins ∧ s.stall.queue = s.queue ∧ s.stall.cycleAt = s.cycleAt
      ∧ s.stall.firing = s.firing ∧ s.stall.heads = s.heads ∧ s.stall.chans = s.chans ∧ s.stall.lastValid = s.lastValid
      ∧ s.stall.presence = s.presence ∧ s.stall.serial = s.serial ∧ s.stall.nextSearch = s.nextSearch
      ∧ s.stall.tubesMissed = s.tubesMissed ∧ s.stall.now = s.now ∧ s.stall.inputs = s.inputs ∧ s.stall.pending = s.pending := by
  simp only [State.stall]
  repeat' split
  all_goals simp

@[simp] theorem State.syntheticStep_frame (s : State) :
    s.syntheticStep.resetActive = s.resetActive ∧ s.syntheticStep.clearing = s.clearing ∧ s.syntheticStep.attnMask = s.attnMask
      ∧ s.syntheticStep.setup = s.setup ∧ s.syntheticStep.pins = s.pins ∧ s.syntheticStep.queue = s.queue
      ∧ s.syntheticStep.cycleAt = s.cycleAt ∧ s.syntheticStep.firing = s.firing ∧ s.syntheticStep.heads = s.heads
      ∧ s.syntheticStep.chans = s.chans ∧ s.syntheticStep.lastValid = s.lastValid ∧ s.syntheticStep.presence = s.presence
      ∧ s.syntheticStep.serial = s.serial ∧ s.syntheticStep.nextSearch = s.nextSearch
      ∧ s.syntheticStep.tubesMissed = s.tubesMissed ∧ s.syntheticStep.now = s.now ∧ s.syntheticStep.inputs = s.inputs
      ∧ s.syntheticStep.pending = s.pending := by
  simp only [State.syntheticStep]
  repeat' split
  all_goals simp

end Sys2Proof.Machine
end

