-- ==== Sys2Proof/Laws/Tubes.lean ====
section
/-! SUPPORT. What the head event and the other edges change. For each operation, one lemma that says which parts of the state it leaves alone. -/

namespace Sys2Proof.Machine

@[simp] theorem State.startTracking_frame (s : State) :
    s.startTracking.gauge = s.gauge ∧ s.startTracking.resetActive = s.resetActive ∧ s.startTracking.clearing = s.clearing
      ∧ s.startTracking.haltPending = s.haltPending ∧ s.startTracking.attnCause = s.attnCause
      ∧ s.startTracking.attnMask = s.attnMask ∧ s.startTracking.setup = s.setup ∧ s.startTracking.pins = s.pins
      ∧ s.startTracking.slots = s.slots ∧ s.startTracking.queue = s.queue ∧ s.startTracking.current = s.current
      ∧ s.startTracking.slot = s.slot ∧ s.startTracking.cycleAt = s.cycleAt ∧ s.startTracking.firing = s.firing
      ∧ s.startTracking.resumePending = s.resumePending ∧ s.startTracking.heads = s.heads ∧ s.startTracking.chans = s.chans
      ∧ s.startTracking.lastValid = s.lastValid ∧ s.startTracking.presence = s.presence ∧ s.startTracking.link = s.link
      ∧ s.startTracking.records = s.records ∧ s.startTracking.serial = s.serial ∧ s.startTracking.nextSearch = s.nextSearch
      ∧ s.startTracking.tubesCompleted = s.tubesCompleted ∧ s.startTracking.tubesMissed = s.tubesMissed
      ∧ s.startTracking.tube = s.tube ∧ s.startTracking.pool = s.pool ∧ s.startTracking.now = s.now
      ∧ s.startTracking.inputs = s.inputs ∧ s.startTracking.pending = s.pending := by
  simp only [State.startTracking]
  simp

@[simp] theorem State.missTube_frame (s : State) :
    s.missTube.resetActive = s.resetActive ∧ s.missTube.clearing = s.clearing ∧ s.missTube.haltPending = s.haltPending
      ∧ s.missTube.attnMask = s.attnMask ∧ s.missTube.setup = s.setup ∧ s.missTube.pins = s.pins ∧ s.missTube.slots = s.slots
      ∧ s.missTube.queue = s.queue ∧ s.missTube.current = s.current ∧ s.missTube.slot = s.slot ∧ s.missTube.cycleAt = s.cycleAt
      ∧ s.missTube.firing = s.firing ∧ s.missTube.resumePending = s.resumePending ∧ s.missTube.heads = s.heads
      ∧ s.missTube.chans = s.chans ∧ s.missTube.lastValid = s.lastValid ∧ s.missTube.presence = s.presence
      ∧ s.missTube.link = s.link ∧ s.missTube.records = s.records ∧ s.missTube.serial = s.serial
      ∧ s.missTube.nextSearch = s.nextSearch ∧ s.missTube.tubesCompleted = s.tubesCompleted ∧ s.missTube.pool = s.pool
      ∧ s.missTube.now = s.now ∧ s.missTube.inputs = s.inputs ∧ s.missTube.pending = s.pending := by
  simp only [State.missTube]
  simp

@[simp] theorem State.clearRecord_frame (s : State) (r : RecNo) :
    (s.clearRecord r).gauge = s.gauge ∧ (s.clearRecord r).resetActive = s.resetActive ∧ (s.clearRecord r).clearing = s.clearing
      ∧ (s.clearRecord r).haltPending = s.haltPending ∧ (s.clearRecord r).attnCause = s.attnCause
      ∧ (s.clearRecord r).attnMask = s.attnMask ∧ (s.clearRecord r).setup = s.setup ∧ (s.clearRecord r).pins = s.pins
      ∧ (s.clearRecord r).slots = s.slots ∧ (s.clearRecord r).queue = s.queue ∧ (s.clearRecord r).current = s.current
      ∧ (s.clearRecord r).slot = s.slot ∧ (s.clearRecord r).cycleAt = s.cycleAt ∧ (s.clearRecord r).firing = s.firing
      ∧ (s.clearRecord r).resumePending = s.resumePending ∧ (s.clearRecord r).heads = s.heads
      ∧ (s.clearRecord r).chans = s.chans ∧ (s.clearRecord r).lastValid = s.lastValid ∧ (s.clearRecord r).tracker = s.tracker
      ∧ (s.clearRecord r).presence = s.presence ∧ (s.clearRecord r).link = s.link ∧ (s.clearRecord r).records = s.records
      ∧ (s.clearRecord r).serial = s.serial ∧ (s.clearRecord r).nextSearch = s.nextSearch
      ∧ (s.clearRecord r).tubesCompleted = s.tubesCompleted ∧ (s.clearRecord r).tubesMissed = s.tubesMissed
      ∧ (s.clearRecord r).tube = s.tube ∧ (s.clearRecord r).pool = s.pool ∧ (s.clearRecord r).now = s.now
      ∧ (s.clearRecord r).inputs = s.inputs ∧ (s.clearRecord r).pending = s.pending := by
  simp only [State.clearRecord]
  simp

@[simp] theorem State.openWith_frame (s : State) (r : RecNo) (j : SlotNo) (n : Snapshot) (b : Bool) :
    (s.openWith r j n b).gauge = s.gauge ∧ (s.openWith r j n b).resetActive = s.resetActive
      ∧ (s.openWith r j n b).clearing = s.clearing ∧ (s.openWith r j n b).haltPending = s.haltPending
      ∧ (s.openWith r j n b).attnCause = s.attnCause ∧ (s.openWith r j n b).attnMask = s.attnMask
      ∧ (s.openWith r j n b).setup = s.setup ∧ (s.openWith r j n b).pins = s.pins ∧ (s.openWith r j n b).slots = s.slots
      ∧ (s.openWith r j n b).queue = s.queue ∧ (s.openWith r j n b).current = s.current ∧ (s.openWith r j n b).slot = s.slot
      ∧ (s.openWith r j n b).cycleAt = s.cycleAt ∧ (s.openWith r j n b).firing = s.firing
      ∧ (s.openWith r j n b).resumePending = s.resumePending ∧ (s.openWith r j n b).heads = s.heads
      ∧ (s.openWith r j n b).lastValid = s.lastValid ∧ (s.openWith r j n b).tracker = s.tracker
      ∧ (s.openWith r j n b).presence = s.presence ∧ (s.openWith r j n b).link = s.link
      ∧ (s.openWith r j n b).records = s.records ∧ (s.openWith r j n b).serial = s.serial
      ∧ (s.openWith r j n b).nextSearch = s.nextSearch ∧ (s.openWith r j n b).tubesCompleted = s.tubesCompleted
      ∧ (s.openWith r j n b).tubesMissed = s.tubesMissed ∧ (s.openWith r j n b).pool = s.pool ∧ (s.openWith r j n b).now = s.now
      ∧ (s.openWith r j n b).inputs = s.inputs ∧ (s.openWith r j n b).pending = s.pending := by
  simp only [State.openWith]
  simp

@[simp] theorem State.openWithout_frame (s : State) (r : RecNo) :
    (s.openWithout r).gauge = s.gauge ∧ (s.openWithout r).resetActive = s.resetActive ∧ (s.openWithout r).clearing = s.clearing
      ∧ (s.openWithout r).haltPending = s.haltPending ∧ (s.openWithout r).attnCause = s.attnCause
      ∧ (s.openWithout r).attnMask = s.attnMask ∧ (s.openWithout r).setup = s.setup ∧ (s.openWithout r).pins = s.pins
      ∧ (s.openWithout r).slots = s.slots ∧ (s.openWithout r).queue = s.queue ∧ (s.openWithout r).current = s.current
      ∧ (s.openWithout r).slot = s.slot ∧ (s.openWithout r).cycleAt = s.cycleAt ∧ (s.openWithout r).firing = s.firing
      ∧ (s.openWithout r).resumePending = s.resumePending ∧ (s.openWithout r).heads = s.heads
      ∧ (s.openWithout r).chans = s.chans ∧ (s.openWithout r).lastValid = s.lastValid ∧ (s.openWithout r).tracker = s.tracker
      ∧ (s.openWithout r).presence = s.presence ∧ (s.openWithout r).link = s.link ∧ (s.openWithout r).records = s.records
      ∧ (s.openWithout r).serial = s.serial ∧ (s.openWithout r).nextSearch = s.nextSearch
      ∧ (s.openWithout r).tubesCompleted = s.tubesCompleted ∧ (s.openWithout r).tubesMissed = s.tubesMissed
      ∧ (s.openWithout r).pool = s.pool ∧ (s.openWithout r).now = s.now ∧ (s.openWithout r).inputs = s.inputs
      ∧ (s.openWithout r).pending = s.pending := by
  simp only [State.openWithout]
  simp

@[simp] theorem State.giveOrder_frame (s : State) (r : RecNo) :
    (s.giveOrder r).gauge = s.gauge ∧ (s.giveOrder r).resetActive = s.resetActive ∧ (s.giveOrder r).clearing = s.clearing
      ∧ (s.giveOrder r).haltPending = s.haltPending ∧ (s.giveOrder r).attnMask = s.attnMask ∧ (s.giveOrder r).setup = s.setup
      ∧ (s.giveOrder r).pins = s.pins ∧ (s.giveOrder r).slot = s.slot ∧ (s.giveOrder r).cycleAt = s.cycleAt
      ∧ (s.giveOrder r).firing = s.firing ∧ (s.giveOrder r).resumePending = s.resumePending ∧ (s.giveOrder r).heads = s.heads
      ∧ (s.giveOrder r).lastValid = s.lastValid ∧ (s.giveOrder r).tracker = s.tracker ∧ (s.giveOrder r).presence = s.presence
      ∧ (s.giveOrder r).link = s.link ∧ (s.giveOrder r).records = s.records ∧ (s.giveOrder r).serial = s.serial
      ∧ (s.giveOrder r).nextSearch = s.nextSearch ∧ (s.giveOrder r).tubesCompleted = s.tubesCompleted
      ∧ (s.giveOrder r).tubesMissed = s.tubesMissed ∧ (s.giveOrder r).pool = s.pool ∧ (s.giveOrder r).now = s.now
      ∧ (s.giveOrder r).inputs = s.inputs ∧ (s.giveOrder r).pending = s.pending := by
  simp only [State.giveOrder]
  repeat' split
  all_goals simp

@[simp] theorem State.openRecord_frame (s : State) (r : RecNo) :
    (s.openRecord r).resetActive = s.resetActive ∧ (s.openRecord r).clearing = s.clearing
      ∧ (s.openRecord r).haltPending = s.haltPending ∧ (s.openRecord r).attnMask = s.attnMask ∧ (s.openRecord r).setup = s.setup
      ∧ (s.openRecord r).pins = s.pins ∧ (s.openRecord r).slot = s.slot ∧ (s.openRecord r).cycleAt = s.cycleAt
      ∧ (s.openRecord r).firing = s.firing ∧ (s.openRecord r).resumePending = s.resumePending ∧ (s.openRecord r).heads = s.heads
      ∧ (s.openRecord r).lastValid = s.lastValid ∧ (s.openRecord r).presence = s.presence ∧ (s.openRecord r).link = s.link
      ∧ (s.openRecord r).serial = s.serial ∧ (s.openRecord r).tubesCompleted = s.tubesCompleted
      ∧ (s.openRecord r).tubesMissed = s.tubesMissed ∧ (s.openRecord r).pool = s.pool ∧ (s.openRecord r).now = s.now
      ∧ (s.openRecord r).inputs = s.inputs ∧ (s.openRecord r).pending = s.pending := by
  simp only [State.openRecord]
  simp

@[simp] theorem State.headEvent_frame (s : State) :
    s.headEvent.resetActive = s.resetActive ∧ s.headEvent.clearing = s.clearing ∧ s.headEvent.haltPending = s.haltPending
      ∧ s.headEvent.attnMask = s.attnMask ∧ s.headEvent.setup = s.setup ∧ s.headEvent.pins = s.pins ∧ s.headEvent.slot = s.slot
      ∧ s.headEvent.cycleAt = s.cycleAt ∧ s.headEvent.firing = s.firing ∧ s.headEvent.resumePending = s.resumePending
      ∧ s.headEvent.heads = s.heads ∧ s.headEvent.lastValid = s.lastValid ∧ s.headEvent.presence = s.presence
      ∧ s.headEvent.link = s.link ∧ s.headEvent.tubesCompleted = s.tubesCompleted ∧ s.headEvent.pool = s.pool
      ∧ s.headEvent.now = s.now ∧ s.headEvent.inputs = s.inputs ∧ s.headEvent.pending = s.pending := by
  simp only [State.headEvent]
  repeat' split
  all_goals simp

@[simp] theorem State.tailEvent_frame (s : State) :
    s.tailEvent.resetActive = s.resetActive ∧ s.tailEvent.clearing = s.clearing ∧ s.tailEvent.attnMask = s.attnMask
      ∧ s.tailEvent.setup = s.setup ∧ s.tailEvent.pins = s.pins ∧ s.tailEvent.queue = s.queue ∧ s.tailEvent.cycleAt = s.cycleAt
      ∧ s.tailEvent.firing = s.firing ∧ s.tailEvent.heads = s.heads ∧ s.tailEvent.chans = s.chans
      ∧ s.tailEvent.lastValid = s.lastValid ∧ s.tailEvent.presence = s.presence ∧ s.tailEvent.serial = s.serial
      ∧ s.tailEvent.nextSearch = s.nextSearch ∧ s.tailEvent.tubesMissed = s.tubesMissed ∧ s.tailEvent.now = s.now
      ∧ s.tailEvent.inputs = s.inputs ∧ s.tailEvent.pending = s.pending := by
  simp only [State.tailEvent]
  simp

@[simp] theorem State.takeEdge_frame (s : State) (b : Bool) :
    (s.takeEdge b).resetActive = s.resetActive ∧ (s.takeEdge b).clearing = s.clearing ∧ (s.takeEdge b).attnMask = s.attnMask
      ∧ (s.takeEdge b).setup = s.setup ∧ (s.takeEdge b).pins = s.pins ∧ (s.takeEdge b).cycleAt = s.cycleAt
      ∧ (s.takeEdge b).firing = s.firing ∧ (s.takeEdge b).heads = s.heads ∧ (s.takeEdge b).lastValid = s.lastValid
      ∧ (s.takeEdge b).presence = s.presence ∧ (s.takeEdge b).now = s.now ∧ (s.takeEdge b).inputs = s.inputs
      ∧ (s.takeEdge b).pending = s.pending := by
  simp only [State.takeEdge]
  repeat' split
  all_goals simp

@[simp] theorem State.filteredEdge_frame (s : State) (b : Bool) :
    (s.filteredEdge b).resetActive = s.resetActive ∧ (s.filteredEdge b).clearing = s.clearing
      ∧ (s.filteredEdge b).attnMask = s.attnMask ∧ (s.filteredEdge b).setup = s.setup ∧ (s.filteredEdge b).cycleAt = s.cycleAt
      ∧ (s.filteredEdge b).firing = s.firing ∧ (s.filteredEdge b).heads = s.heads ∧ (s.filteredEdge b).lastValid = s.lastValid
      ∧ (s.filteredEdge b).now = s.now ∧ (s.filteredEdge b).inputs = s.inputs ∧ (s.filteredEdge b).pending = s.pending := by
  simp only [State.filteredEdge]
  repeat' split
  all_goals simp

end Sys2Proof.Machine
end

