-- ==== Sys2Proof/Laws/Gauge.lean ====
section
/-! SUPPORT. What the commands through CONTROL change. For each operation, one lemma that says which parts of the state it leaves alone. -/

namespace Sys2Proof.Machine

@[simp] theorem State.putResetWords_frame (s : State) :
    s.putResetWords.gauge = s.gauge ∧ s.putResetWords.resetActive = s.resetActive ∧ s.putResetWords.clearing = s.clearing
      ∧ s.putResetWords.haltPending = s.haltPending ∧ s.putResetWords.attnCause = s.attnCause
      ∧ s.putResetWords.attnMask = s.attnMask ∧ s.putResetWords.setup = s.setup ∧ s.putResetWords.pins = s.pins
      ∧ s.putResetWords.slots = s.slots ∧ s.putResetWords.queue = s.queue ∧ s.putResetWords.current = s.current
      ∧ s.putResetWords.slot = s.slot ∧ s.putResetWords.cycleAt = s.cycleAt ∧ s.putResetWords.firing = s.firing
      ∧ s.putResetWords.resumePending = s.resumePending ∧ s.putResetWords.heads = s.heads ∧ s.putResetWords.chans = s.chans
      ∧ s.putResetWords.lastValid = s.lastValid ∧ s.putResetWords.tracker = s.tracker ∧ s.putResetWords.presence = s.presence
      ∧ s.putResetWords.link = s.link ∧ s.putResetWords.records = s.records ∧ s.putResetWords.serial = s.serial
      ∧ s.putResetWords.nextSearch = s.nextSearch ∧ s.putResetWords.tubesCompleted = s.tubesCompleted
      ∧ s.putResetWords.tubesMissed = s.tubesMissed ∧ s.putResetWords.tube = s.tube ∧ s.putResetWords.pool = s.pool
      ∧ s.putResetWords.now = s.now ∧ s.putResetWords.inputs = s.inputs ∧ s.putResetWords.pending = s.pending := by
  simp only [State.putResetWords]
  simp

@[simp] theorem State.clearStray_frame (s : State) (k : Head) :
    (s.clearStray k).gauge = s.gauge ∧ (s.clearStray k).resetActive = s.resetActive ∧ (s.clearStray k).clearing = s.clearing
      ∧ (s.clearStray k).haltPending = s.haltPending ∧ (s.clearStray k).attnCause = s.attnCause
      ∧ (s.clearStray k).attnMask = s.attnMask ∧ (s.clearStray k).setup = s.setup ∧ (s.clearStray k).pins = s.pins
      ∧ (s.clearStray k).slots = s.slots ∧ (s.clearStray k).queue = s.queue ∧ (s.clearStray k).current = s.current
      ∧ (s.clearStray k).slot = s.slot ∧ (s.clearStray k).cycleAt = s.cycleAt ∧ (s.clearStray k).firing = s.firing
      ∧ (s.clearStray k).resumePending = s.resumePending ∧ (s.clearStray k).chans = s.chans
      ∧ (s.clearStray k).lastValid = s.lastValid ∧ (s.clearStray k).tracker = s.tracker ∧ (s.clearStray k).presence = s.presence
      ∧ (s.clearStray k).link = s.link ∧ (s.clearStray k).records = s.records ∧ (s.clearStray k).serial = s.serial
      ∧ (s.clearStray k).nextSearch = s.nextSearch ∧ (s.clearStray k).tubesCompleted = s.tubesCompleted
      ∧ (s.clearStray k).tubesMissed = s.tubesMissed ∧ (s.clearStray k).tube = s.tube ∧ (s.clearStray k).pool = s.pool
      ∧ (s.clearStray k).now = s.now ∧ (s.clearStray k).inputs = s.inputs ∧ (s.clearStray k).pending = s.pending := by
  simp only [State.clearStray]
  simp

@[simp] theorem State.clearRunCounters_frame (s : State) :
    s.clearRunCounters.gauge = s.gauge ∧ s.clearRunCounters.resetActive = s.resetActive
      ∧ s.clearRunCounters.clearing = s.clearing ∧ s.clearRunCounters.haltPending = s.haltPending
      ∧ s.clearRunCounters.attnCause = s.attnCause ∧ s.clearRunCounters.attnMask = s.attnMask
      ∧ s.clearRunCounters.setup = s.setup ∧ s.clearRunCounters.pins = s.pins ∧ s.clearRunCounters.slots = s.slots
      ∧ s.clearRunCounters.queue = s.queue ∧ s.clearRunCounters.current = s.current ∧ s.clearRunCounters.slot = s.slot
      ∧ s.clearRunCounters.cycleAt = s.cycleAt ∧ s.clearRunCounters.firing = s.firing
      ∧ s.clearRunCounters.resumePending = s.resumePending ∧ s.clearRunCounters.chans = s.chans
      ∧ s.clearRunCounters.lastValid = s.lastValid ∧ s.clearRunCounters.tracker = s.tracker
      ∧ s.clearRunCounters.presence = s.presence ∧ s.clearRunCounters.link = s.link ∧ s.clearRunCounters.records = s.records
      ∧ s.clearRunCounters.serial = s.serial ∧ s.clearRunCounters.nextSearch = s.nextSearch ∧ s.clearRunCounters.tube = s.tube
      ∧ s.clearRunCounters.pool = s.pool ∧ s.clearRunCounters.now = s.now ∧ s.clearRunCounters.inputs = s.inputs
      ∧ s.clearRunCounters.pending = s.pending := by
  simp only [State.clearRunCounters, forHeads]
  simp

@[simp] theorem State.takeSetup_frame (s : State) :
    s.takeSetup.gauge = s.gauge ∧ s.takeSetup.resetActive = s.resetActive ∧ s.takeSetup.clearing = s.clearing
      ∧ s.takeSetup.haltPending = s.haltPending ∧ s.takeSetup.attnCause = s.attnCause ∧ s.takeSetup.attnMask = s.attnMask
      ∧ s.takeSetup.pins = s.pins ∧ s.takeSetup.slots = s.slots ∧ s.takeSetup.queue = s.queue ∧ s.takeSetup.current = s.current
      ∧ s.takeSetup.slot = s.slot ∧ s.takeSetup.cycleAt = s.cycleAt ∧ s.takeSetup.firing = s.firing
      ∧ s.takeSetup.resumePending = s.resumePending ∧ s.takeSetup.heads = s.heads ∧ s.takeSetup.chans = s.chans
      ∧ s.takeSetup.lastValid = s.lastValid ∧ s.takeSetup.presence = s.presence ∧ s.takeSetup.link = s.link
      ∧ s.takeSetup.records = s.records ∧ s.takeSetup.serial = s.serial ∧ s.takeSetup.nextSearch = s.nextSearch
      ∧ s.takeSetup.tubesCompleted = s.tubesCompleted ∧ s.takeSetup.tubesMissed = s.tubesMissed ∧ s.takeSetup.tube = s.tube
      ∧ s.takeSetup.pool = s.pool ∧ s.takeSetup.now = s.now ∧ s.takeSetup.inputs = s.inputs ∧ s.takeSetup.pending = s.pending := by
  simp only [State.takeSetup]
  simp

@[simp] theorem State.seedFiring_frame (s : State) :
    s.seedFiring.gauge = s.gauge ∧ s.seedFiring.resetActive = s.resetActive ∧ s.seedFiring.clearing = s.clearing
      ∧ s.seedFiring.haltPending = s.haltPending ∧ s.seedFiring.attnCause = s.attnCause ∧ s.seedFiring.attnMask = s.attnMask
      ∧ s.seedFiring.setup = s.setup ∧ s.seedFiring.pins = s.pins ∧ s.seedFiring.slots = s.slots ∧ s.seedFiring.queue = s.queue
      ∧ s.seedFiring.current = s.current ∧ s.seedFiring.slot = s.slot ∧ s.seedFiring.cycleAt = s.cycleAt
      ∧ s.seedFiring.heads = s.heads ∧ s.seedFiring.chans = s.chans ∧ s.seedFiring.lastValid = s.lastValid
      ∧ s.seedFiring.tracker = s.tracker ∧ s.seedFiring.presence = s.presence ∧ s.seedFiring.link = s.link
      ∧ s.seedFiring.records = s.records ∧ s.seedFiring.serial = s.serial ∧ s.seedFiring.nextSearch = s.nextSearch
      ∧ s.seedFiring.tubesCompleted = s.tubesCompleted ∧ s.seedFiring.tubesMissed = s.tubesMissed ∧ s.seedFiring.tube = s.tube
      ∧ s.seedFiring.pool = s.pool ∧ s.seedFiring.now = s.now ∧ s.seedFiring.inputs = s.inputs
      ∧ s.seedFiring.pending = s.pending := by
  simp only [State.seedFiring]
  repeat' split
  all_goals simp

@[simp] theorem State.prepareRun_frame (s : State) :
    s.prepareRun.gauge = s.gauge ∧ s.prepareRun.resetActive = s.resetActive ∧ s.prepareRun.clearing = s.clearing
      ∧ s.prepareRun.haltPending = s.haltPending ∧ s.prepareRun.attnMask = s.attnMask ∧ s.prepareRun.pins = s.pins
      ∧ s.prepareRun.slots = s.slots ∧ s.prepareRun.queue = s.queue ∧ s.prepareRun.current = s.current
      ∧ s.prepareRun.cycleAt = s.cycleAt ∧ s.prepareRun.chans = s.chans ∧ s.prepareRun.lastValid = s.lastValid
      ∧ s.prepareRun.records = s.records ∧ s.prepareRun.serial = s.serial ∧ s.prepareRun.nextSearch = s.nextSearch
      ∧ s.prepareRun.tube = s.tube ∧ s.prepareRun.now = s.now ∧ s.prepareRun.inputs = s.inputs
      ∧ s.prepareRun.pending = s.pending := by
  simp only [State.prepareRun]
  simp

@[simp] theorem State.startRun_frame (s : State) :
    s.startRun.resetActive = s.resetActive ∧ s.startRun.clearing = s.clearing ∧ s.startRun.haltPending = s.haltPending
      ∧ s.startRun.attnMask = s.attnMask ∧ s.startRun.pins = s.pins ∧ s.startRun.queue = s.queue
      ∧ s.startRun.current = s.current ∧ s.startRun.lastValid = s.lastValid ∧ s.startRun.records = s.records
      ∧ s.startRun.serial = s.serial ∧ s.startRun.nextSearch = s.nextSearch ∧ s.startRun.now = s.now
      ∧ s.startRun.inputs = s.inputs ∧ s.startRun.pending = s.pending := by
  simp only [State.startRun]
  repeat' split
  all_goals simp

@[simp] theorem State.failRun_frame (s : State) (off : Nat) :
    (s.failRun off).gauge = s.gauge ∧ (s.failRun off).resetActive = s.resetActive ∧ (s.failRun off).clearing = s.clearing
      ∧ (s.failRun off).haltPending = s.haltPending ∧ (s.failRun off).attnMask = s.attnMask ∧ (s.failRun off).setup = s.setup
      ∧ (s.failRun off).pins = s.pins ∧ (s.failRun off).slots = s.slots ∧ (s.failRun off).queue = s.queue
      ∧ (s.failRun off).current = s.current ∧ (s.failRun off).slot = s.slot ∧ (s.failRun off).cycleAt = s.cycleAt
      ∧ (s.failRun off).firing = s.firing ∧ (s.failRun off).resumePending = s.resumePending ∧ (s.failRun off).heads = s.heads
      ∧ (s.failRun off).chans = s.chans ∧ (s.failRun off).lastValid = s.lastValid ∧ (s.failRun off).tracker = s.tracker
      ∧ (s.failRun off).presence = s.presence ∧ (s.failRun off).link = s.link ∧ (s.failRun off).records = s.records
      ∧ (s.failRun off).serial = s.serial ∧ (s.failRun off).nextSearch = s.nextSearch
      ∧ (s.failRun off).tubesCompleted = s.tubesCompleted ∧ (s.failRun off).tubesMissed = s.tubesMissed
      ∧ (s.failRun off).tube = s.tube ∧ (s.failRun off).pool = s.pool ∧ (s.failRun off).now = s.now
      ∧ (s.failRun off).inputs = s.inputs ∧ (s.failRun off).pending = s.pending := by
  simp only [State.failRun]
  simp

@[simp] theorem State.run_frame (s : State) :
    s.run.resetActive = s.resetActive ∧ s.run.clearing = s.clearing ∧ s.run.haltPending = s.haltPending
      ∧ s.run.attnMask = s.attnMask ∧ s.run.pins = s.pins ∧ s.run.queue = s.queue ∧ s.run.current = s.current
      ∧ s.run.lastValid = s.lastValid ∧ s.run.records = s.records ∧ s.run.serial = s.serial ∧ s.run.nextSearch = s.nextSearch
      ∧ s.run.now = s.now ∧ s.run.inputs = s.inputs ∧ s.run.pending = s.pending := by
  simp only [State.run]
  repeat' split
  all_goals simp

@[simp] theorem State.stopCmd_frame (s : State) :
    s.stopCmd.resetActive = s.resetActive ∧ s.stopCmd.clearing = s.clearing ∧ s.stopCmd.attnMask = s.attnMask
      ∧ s.stopCmd.setup = s.setup ∧ s.stopCmd.pins = s.pins ∧ s.stopCmd.queue = s.queue ∧ s.stopCmd.cycleAt = s.cycleAt
      ∧ s.stopCmd.firing = s.firing ∧ s.stopCmd.heads = s.heads ∧ s.stopCmd.chans = s.chans ∧ s.stopCmd.lastValid = s.lastValid
      ∧ s.stopCmd.presence = s.presence ∧ s.stopCmd.serial = s.serial ∧ s.stopCmd.nextSearch = s.nextSearch
      ∧ s.stopCmd.tubesMissed = s.tubesMissed ∧ s.stopCmd.now = s.now ∧ s.stopCmd.inputs = s.inputs
      ∧ s.stopCmd.pending = s.pending := by
  simp only [State.stopCmd]
  repeat' split
  all_goals simp

@[simp] theorem State.resumeCmd_frame (s : State) :
    s.resumeCmd.gauge = s.gauge ∧ s.resumeCmd.resetActive = s.resetActive ∧ s.resumeCmd.clearing = s.clearing
      ∧ s.resumeCmd.haltPending = s.haltPending ∧ s.resumeCmd.mem = s.mem ∧ s.resumeCmd.attnCause = s.attnCause
      ∧ s.resumeCmd.attnMask = s.attnMask ∧ s.resumeCmd.setup = s.setup ∧ s.resumeCmd.pins = s.pins
      ∧ s.resumeCmd.slots = s.slots ∧ s.resumeCmd.queue = s.queue ∧ s.resumeCmd.current = s.current ∧ s.resumeCmd.slot = s.slot
      ∧ s.resumeCmd.cycleAt = s.cycleAt ∧ s.resumeCmd.firing = s.firing ∧ s.resumeCmd.heads = s.heads
      ∧ s.resumeCmd.chans = s.chans ∧ s.resumeCmd.lastValid = s.lastValid ∧ s.resumeCmd.tracker = s.tracker
      ∧ s.resumeCmd.presence = s.presence ∧ s.resumeCmd.link = s.link ∧ s.resumeCmd.records = s.records
      ∧ s.resumeCmd.serial = s.serial ∧ s.resumeCmd.nextSearch = s.nextSearch ∧ s.resumeCmd.tubesCompleted = s.tubesCompleted
      ∧ s.resumeCmd.tubesMissed = s.tubesMissed ∧ s.resumeCmd.tube = s.tube ∧ s.resumeCmd.pool = s.pool
      ∧ s.resumeCmd.now = s.now ∧ s.resumeCmd.inputs = s.inputs ∧ s.resumeCmd.pending = s.pending := by
  simp only [State.resumeCmd]
  repeat' split
  all_goals simp

@[simp] theorem State.clearHead_frame (s : State) (k : Head) :
    (s.clearHead k).gauge = s.gauge ∧ (s.clearHead k).resetActive = s.resetActive ∧ (s.clearHead k).clearing = s.clearing
      ∧ (s.clearHead k).haltPending = s.haltPending ∧ (s.clearHead k).attnCause = s.attnCause
      ∧ (s.clearHead k).attnMask = s.attnMask ∧ (s.clearHead k).setup = s.setup ∧ (s.clearHead k).pins = s.pins
      ∧ (s.clearHead k).slots = s.slots ∧ (s.clearHead k).queue = s.queue ∧ (s.clearHead k).current = s.current
      ∧ (s.clearHead k).slot = s.slot ∧ (s.clearHead k).cycleAt = s.cycleAt ∧ (s.clearHead k).firing = s.firing
      ∧ (s.clearHead k).resumePending = s.resumePending ∧ (s.clearHead k).chans = s.chans
      ∧ (s.clearHead k).lastValid = s.lastValid ∧ (s.clearHead k).tracker = s.tracker ∧ (s.clearHead k).presence = s.presence
      ∧ (s.clearHead k).link = s.link ∧ (s.clearHead k).records = s.records ∧ (s.clearHead k).serial = s.serial
      ∧ (s.clearHead k).nextSearch = s.nextSearch ∧ (s.clearHead k).tubesCompleted = s.tubesCompleted
      ∧ (s.clearHead k).tubesMissed = s.tubesMissed ∧ (s.clearHead k).tube = s.tube ∧ (s.clearHead k).pool = s.pool
      ∧ (s.clearHead k).now = s.now ∧ (s.clearHead k).inputs = s.inputs ∧ (s.clearHead k).pending = s.pending := by
  simp only [State.clearHead]
  repeat' split
  all_goals simp

@[simp] theorem State.clearHeads_frame (s : State) (w : Word) :
    (s.clearHeads w).gauge = s.gauge ∧ (s.clearHeads w).resetActive = s.resetActive ∧ (s.clearHeads w).clearing = s.clearing
      ∧ (s.clearHeads w).haltPending = s.haltPending ∧ (s.clearHeads w).attnCause = s.attnCause
      ∧ (s.clearHeads w).attnMask = s.attnMask ∧ (s.clearHeads w).setup = s.setup ∧ (s.clearHeads w).pins = s.pins
      ∧ (s.clearHeads w).slots = s.slots ∧ (s.clearHeads w).queue = s.queue ∧ (s.clearHeads w).current = s.current
      ∧ (s.clearHeads w).slot = s.slot ∧ (s.clearHeads w).cycleAt = s.cycleAt ∧ (s.clearHeads w).firing = s.firing
      ∧ (s.clearHeads w).resumePending = s.resumePending ∧ (s.clearHeads w).chans = s.chans
      ∧ (s.clearHeads w).lastValid = s.lastValid ∧ (s.clearHeads w).tracker = s.tracker ∧ (s.clearHeads w).presence = s.presence
      ∧ (s.clearHeads w).link = s.link ∧ (s.clearHeads w).records = s.records ∧ (s.clearHeads w).serial = s.serial
      ∧ (s.clearHeads w).nextSearch = s.nextSearch ∧ (s.clearHeads w).tubesCompleted = s.tubesCompleted
      ∧ (s.clearHeads w).tubesMissed = s.tubesMissed ∧ (s.clearHeads w).tube = s.tube ∧ (s.clearHeads w).pool = s.pool
      ∧ (s.clearHeads w).now = s.now ∧ (s.clearHeads w).inputs = s.inputs ∧ (s.clearHeads w).pending = s.pending := by
  simp only [State.clearHeads, forHeads]
  repeat' split
  all_goals simp

@[simp] theorem State.runStop_frame (s : State) (w : Word) :
    (s.runStop w).resetActive = s.resetActive ∧ (s.runStop w).clearing = s.clearing ∧ (s.runStop w).attnMask = s.attnMask
      ∧ (s.runStop w).pins = s.pins ∧ (s.runStop w).queue = s.queue ∧ (s.runStop w).lastValid = s.lastValid
      ∧ (s.runStop w).serial = s.serial ∧ (s.runStop w).nextSearch = s.nextSearch ∧ (s.runStop w).now = s.now
      ∧ (s.runStop w).inputs = s.inputs ∧ (s.runStop w).pending = s.pending := by
  simp only [State.runStop]
  repeat' split
  all_goals simp

end Sys2Proof.Machine
end

