-- ==== Sys2Proof/Laws/Port.lean ====
section
/-! SUPPORT. What the host's writes change. For each operation, one lemma that says which parts of the state it leaves alone. -/

namespace Sys2Proof.Machine

@[simp] theorem State.slotWrite_frame (s : State) (j : SlotNo) (v : Word) :
    (s.slotWrite j v).gauge = s.gauge ∧ (s.slotWrite j v).resetActive = s.resetActive ∧ (s.slotWrite j v).clearing = s.clearing
      ∧ (s.slotWrite j v).haltPending = s.haltPending ∧ (s.slotWrite j v).attnMask = s.attnMask
      ∧ (s.slotWrite j v).setup = s.setup ∧ (s.slotWrite j v).pins = s.pins ∧ (s.slotWrite j v).slot = s.slot
      ∧ (s.slotWrite j v).cycleAt = s.cycleAt ∧ (s.slotWrite j v).firing = s.firing
      ∧ (s.slotWrite j v).resumePending = s.resumePending ∧ (s.slotWrite j v).heads = s.heads
      ∧ (s.slotWrite j v).chans = s.chans ∧ (s.slotWrite j v).lastValid = s.lastValid ∧ (s.slotWrite j v).tracker = s.tracker
      ∧ (s.slotWrite j v).presence = s.presence ∧ (s.slotWrite j v).link = s.link ∧ (s.slotWrite j v).records = s.records
      ∧ (s.slotWrite j v).serial = s.serial ∧ (s.slotWrite j v).nextSearch = s.nextSearch
      ∧ (s.slotWrite j v).tubesCompleted = s.tubesCompleted ∧ (s.slotWrite j v).tubesMissed = s.tubesMissed
      ∧ (s.slotWrite j v).tube = s.tube ∧ (s.slotWrite j v).pool = s.pool ∧ (s.slotWrite j v).now = s.now
      ∧ (s.slotWrite j v).inputs = s.inputs ∧ (s.slotWrite j v).pending = s.pending := by
  simp only [State.slotWrite]
  repeat' split
  all_goals simp

@[simp] theorem State.recWrite_frame (s : State) (r : RecNo) (v : Word) :
    (s.recWrite r v).gauge = s.gauge ∧ (s.recWrite r v).resetActive = s.resetActive ∧ (s.recWrite r v).clearing = s.clearing
      ∧ (s.recWrite r v).haltPending = s.haltPending ∧ (s.recWrite r v).attnMask = s.attnMask ∧ (s.recWrite r v).setup = s.setup
      ∧ (s.recWrite r v).pins = s.pins ∧ (s.recWrite r v).slots = s.slots ∧ (s.recWrite r v).queue = s.queue
      ∧ (s.recWrite r v).current = s.current ∧ (s.recWrite r v).slot = s.slot ∧ (s.recWrite r v).cycleAt = s.cycleAt
      ∧ (s.recWrite r v).firing = s.firing ∧ (s.recWrite r v).resumePending = s.resumePending ∧ (s.recWrite r v).heads = s.heads
      ∧ (s.recWrite r v).chans = s.chans ∧ (s.recWrite r v).lastValid = s.lastValid ∧ (s.recWrite r v).tracker = s.tracker
      ∧ (s.recWrite r v).presence = s.presence ∧ (s.recWrite r v).link = s.link ∧ (s.recWrite r v).serial = s.serial
      ∧ (s.recWrite r v).nextSearch = s.nextSearch ∧ (s.recWrite r v).tubesCompleted = s.tubesCompleted
      ∧ (s.recWrite r v).tubesMissed = s.tubesMissed ∧ (s.recWrite r v).tube = s.tube ∧ (s.recWrite r v).now = s.now
      ∧ (s.recWrite r v).inputs = s.inputs ∧ (s.recWrite r v).pending = s.pending := by
  simp only [State.recWrite]
  repeat' split
  all_goals simp

@[simp] theorem State.hostWrite_frame (s : State) (a v : Word) :
    (s.hostWrite a v).gauge = s.gauge ∧ (s.hostWrite a v).resetActive = s.resetActive ∧ (s.hostWrite a v).clearing = s.clearing
      ∧ (s.hostWrite a v).haltPending = s.haltPending ∧ (s.hostWrite a v).attnMask = s.attnMask
      ∧ (s.hostWrite a v).setup = s.setup ∧ (s.hostWrite a v).pins = s.pins ∧ (s.hostWrite a v).slot = s.slot
      ∧ (s.hostWrite a v).cycleAt = s.cycleAt ∧ (s.hostWrite a v).firing = s.firing
      ∧ (s.hostWrite a v).resumePending = s.resumePending ∧ (s.hostWrite a v).heads = s.heads
      ∧ (s.hostWrite a v).chans = s.chans ∧ (s.hostWrite a v).lastValid = s.lastValid ∧ (s.hostWrite a v).tracker = s.tracker
      ∧ (s.hostWrite a v).presence = s.presence ∧ (s.hostWrite a v).link = s.link ∧ (s.hostWrite a v).serial = s.serial
      ∧ (s.hostWrite a v).nextSearch = s.nextSearch ∧ (s.hostWrite a v).tubesCompleted = s.tubesCompleted
      ∧ (s.hostWrite a v).tubesMissed = s.tubesMissed ∧ (s.hostWrite a v).tube = s.tube ∧ (s.hostWrite a v).now = s.now
      ∧ (s.hostWrite a v).inputs = s.inputs ∧ (s.hostWrite a v).pending = s.pending := by
  simp only [State.hostWrite]
  repeat' split
  all_goals simp

end Sys2Proof.Machine
end

