-- ==== Sys2Proof/Laws/Memory.lean ====
section
/-! SUPPORT. The laws of exchange memory: what a read returns after a write or a clearing, and that every operation keeps the
canonical form. -/

namespace Sys2Proof.Machine

/-! ### Reading after a change -/

/-- A read of a memory whose words at `b` are left out. -/
theorem memRead_memErase (m : Memory) (b a : Nat) : memRead (memErase m b) a = if a = b then 0#16 else memRead m a := by
  induction m with
  | nil => simp [memErase, memRead]
  | cons c cs ih =>
    simp only [memErase, List.filter_cons] at ih ⊢
    by_cases hc : c.1 = b
    · simp only [hc, ne_eq, not_true_eq_false, decide_false, Bool.false_eq_true, ↓reduceIte, ih, memRead]
      by_cases ha : a = b
      · simp [ha]
      · simp [ha, Ne.symm ha]
    · simp only [ne_eq, hc, not_false_eq_true, decide_true, ↓reduceIte, memRead]
      by_cases hca : c.1 = a
      · simp [hca ▸ hc, hca]
      · simpa [hca] using ih

/-- A read of a memory into which a word at an address that it does not list is put. -/
theorem memRead_memInsert (m : Memory) (b a : Nat) (v : Word) (h : ∀ c ∈ m, c.1 ≠ b) :
    memRead (memInsert m b v) a = if a = b then v else memRead m a := by
  induction m with
  | nil => by_cases ha : b = a <;> simp [memInsert, memRead, ha, eq_comm]
  | cons c cs ih =>
    have hc : c.1 ≠ b := h c (by simp)
    have ih := ih (fun d hd => h d (by simp [hd]))
    simp only [memInsert]
    split
    · by_cases ha : a = b
      · simp [memRead, ha]
      · simp [memRead, ha, Ne.symm ha]
    · simp only [memRead, ih]
      by_cases ha : a = b
      · subst ha; simp [hc]
      · simp [ha]

/-- No word at `b` is listed once the words at `b` are left out. -/
theorem memErase_fresh (m : Memory) (b : Nat) : ∀ c ∈ memErase m b, c.1 ≠ b := by simp [memErase]

/-- A read after a write: the value written at its address, what it was everywhere else. -/
theorem memRead_memWrite (m : Memory) (b v : Word) (a : Nat) :
    memRead (memWrite m b v) a = if a = b.toNat then v else memRead m a := by
  unfold memWrite
  split
  · next h => rw [memRead_memErase, h]
  · rw [memRead_memInsert _ _ _ _ (memErase_fresh m b.toNat), memRead_memErase]
    split <;> simp_all

/-- The words of a list that is written from address `b` on, by address. -/
theorem memRead_memWriteList (m : Memory) (b : Nat) (vs : List Word) (a : Nat) (hb : b + vs.length ≤ 65536) :
    memRead (memWriteList m b vs) a = if b ≤ a ∧ a < b + vs.length then vs.getD (a - b) 0#16 else memRead m a := by
  induction vs generalizing m b with
  | nil => simp [memWriteList]
  | cons v vs ih =>
    simp only [List.length_cons] at hb
    have ht : (toWord b).toNat = b := by simp [toWord]; omega
    simp only [memWriteList, ih (memWrite m (toWord b) v) (b + 1) (by omega), memRead_memWrite, List.length_cons, ht]
    by_cases h1 : a = b
    · subst h1; simp
    · by_cases h2 : b + 1 ≤ a ∧ a < b + 1 + vs.length
      · have h3 : a - b = (a - (b + 1)) + 1 := by omega
        rw [if_pos h2, if_pos (by omega), h3]; simp
      · rw [if_neg h2, if_neg h1, if_neg (by omega)]

/-- A read of a memory that is filtered by address. -/
theorem memRead_filter (m : Memory) (p : Nat → Bool) (a : Nat) :
    memRead (m.filter (fun c => p c.1)) a = if p a then memRead m a else 0#16 := by
  induction m with
  | nil => simp [memRead]
  | cons c cs ih =>
    by_cases hp : p c.1
    · simp only [List.filter_cons, hp, ↓reduceIte, memRead, ih]
      by_cases hc : c.1 = a
      · simp [hc, hc ▸ hp]
      · simp [hc]
    · simp only [List.filter_cons, hp, Bool.false_eq_true, ↓reduceIte, ih, memRead]
      by_cases hc : c.1 = a
      · subst hc; simp [hp]
      · simp [hc]

/-- A read after the rest of an INIT clearing. -/
theorem memRead_memClearFrom (m : Memory) (soft : Bool) (b a : Nat) :
    memRead (memClearFrom m soft b) a = if b ≤ a ∧ cleared soft a then 0#16 else memRead m a := by
  have h := memRead_filter m (fun x => !(b ≤ x && cleared soft x)) a
  simp only [memClearFrom]
  rw [h]
  by_cases hb : b ≤ a <;> by_cases hc : cleared soft a <;> simp [hb, hc]

/-! ### The canonical form -/

/-- Leaving cells out keeps the canonical form. -/
theorem Memory.wf_filter (m : Memory) (p : WordCell → Bool) (h : Memory.wf m) : Memory.wf (m.filter p) :=
  ⟨h.1.filter p, fun c hc => h.2 c (List.mem_of_mem_filter hc)⟩

/-- Every cell of a memory with an inserted word is that word's or an old one. -/
theorem mem_memInsert (m : Memory) (b : Nat) (v : Word) (c : WordCell) (h : c ∈ memInsert m b v) : c = (b, v) ∨ c ∈ m := by
  induction m with
  | nil => simpa [memInsert] using h
  | cons d ds ih =>
    simp only [memInsert] at h
    split at h
    · simpa using h
    · rcases List.mem_cons.mp h with h | h
      · simp [h]
      · rcases ih h with h | h <;> simp [h]

/-- Inserting a word that is not 0 at a fresh address in range keeps the canonical form. -/
theorem Memory.wf_memInsert (m : Memory) (b : Nat) (v : Word) (h : Memory.wf m) (hb : b < Config.memWords) (hv : v ≠ 0#16)
    (hf : ∀ c ∈ m, c.1 ≠ b) : Memory.wf (memInsert m b v) := by
  refine ⟨?_, fun c hc => ?_⟩
  · induction m with
    | nil => simp [memInsert]
    | cons d ds ih =>
      have hd := List.pairwise_cons.mp h.1
      simp only [memInsert]
      split
      · next hlt =>
        refine List.pairwise_cons.mpr ⟨fun c hc => ?_, h.1⟩
        rcases List.mem_cons.mp hc with hc | hc
        · simpa [hc] using hlt
        · exact lt_trans hlt (hd.1 c hc)
      · next hge =>
        have hdb : d.1 ≠ b := hf d (by simp)
        refine List.pairwise_cons.mpr ⟨fun c hc => ?_, ih ⟨hd.2, fun c hc => h.2 c (by simp [hc])⟩ (fun c hc => hf c (by simp [hc]))⟩
        rcases mem_memInsert ds b v c hc with hc | hc
        · subst hc; show d.1 < b; omega
        · exact hd.1 c hc
  · rcases mem_memInsert m b v c hc with hc | hc
    · subst hc; exact ⟨hb, hv⟩
    · exact h.2 c hc

/-- Writing a word keeps the canonical form. -/
theorem Memory.wf_memWrite (m : Memory) (b v : Word) (h : Memory.wf m) : Memory.wf (memWrite m b v) := by
  unfold memWrite
  split
  · exact Memory.wf_filter m _ h
  · next hv => exact Memory.wf_memInsert _ _ _ (Memory.wf_filter m _ h) (by simpa [Config.memWords] using b.isLt) hv (memErase_fresh m _)

/-- Writing words keeps the canonical form. -/
theorem Memory.wf_memWriteList (m : Memory) (b : Nat) (vs : List Word) (h : Memory.wf m) : Memory.wf (memWriteList m b vs) := by
  induction vs generalizing m b with
  | nil => exact h
  | cons v vs ih => exact ih _ _ (Memory.wf_memWrite _ _ _ h)

/-- The clearing of one word keeps the canonical form. -/
theorem Memory.wf_memClearOne (m : Memory) (soft : Bool) (a : Nat) (h : Memory.wf m) : Memory.wf (memClearOne m soft a) := by
  unfold memClearOne
  split
  · exact Memory.wf_filter m _ h
  · exact h

/-- The rest of the clearing keeps the canonical form. -/
theorem Memory.wf_memClearFrom (m : Memory) (soft : Bool) (a : Nat) (h : Memory.wf m) : Memory.wf (memClearFrom m soft a) :=
  Memory.wf_filter m _ h

/-- The memory after reset is in the canonical form. -/
theorem State.reset_mem_wf : Memory.wf State.reset.mem := by simp [State.reset, Memory.wf]

end Sys2Proof.Machine
end

