-- ==== Sys2Proof/Laws/Writes.lean ====
section
/-! SUPPORT. What the writes of the part do to the words of exchange memory: single words, consecutive words, words rewritten where
they change, and one write after another; and the bounds of the addresses. -/

namespace Sys2Proof.Machine

open Safety

/-! ### Addresses (chapter 11) -/

theorem slotAddr_lt (j : SlotNo) (off : Nat) (h : off < 512) : slotAddr j off < 65536 := by
  have := j.isLt; simp only [slotAddr, Config.slotBase, Config.slotWords]; omega

theorem recAddr_lt (r : RecNo) (off : Nat) (h : off < 128) : recAddr r off < 65536 := by
  have := r.isLt; simp only [recAddr, Config.recordBase, Config.recordWords]; omega

theorem blkAddr_lt (b : BlockNo) (off : Nat) (h : off < 64) : blkAddr b off < 65536 := by
  have := b.isLt; simp only [blkAddr, Config.blockBase, Config.blockWords]; omega

theorem slotAddr_inj (i j : SlotNo) (a b : Nat) (ha : a < 512) (hb : b < 512) : slotAddr i a = slotAddr j b ↔ i = j ∧ a = b := by
  have := i.isLt; have := j.isLt
  simp only [slotAddr, Config.slotBase, Config.slotWords, Fin.ext_iff]; omega

theorem recAddr_inj (i j : RecNo) (a b : Nat) (ha : a < 128) (hb : b < 128) : recAddr i a = recAddr j b ↔ i = j ∧ a = b := by
  have := i.isLt; have := j.isLt
  simp only [recAddr, Config.recordBase, Config.recordWords, Fin.ext_iff]; omega

theorem blkAddr_inj (i j : BlockNo) (a b : Nat) (ha : a < 64) (hb : b < 64) : blkAddr i a = blkAddr j b ↔ i = j ∧ a = b := by
  have := i.isLt; have := j.isLt
  simp only [blkAddr, Config.blockBase, Config.blockWords, Fin.ext_iff]; omega

/-! ### Reads after writes -/

theorem memRead_put (s : State) (b a : Nat) (v : Word) (h : b < 65536) :
    memRead (s.put b v).mem a = if a = b then v else memRead s.mem a := by
  rw [State.put_mem, memRead_memWrite, toWord_toNat b h]

theorem memRead_putIf (s : State) (c : Bool) (b a : Nat) (v : Word) (h : b < 65536) :
    memRead (s.putIf c b v).mem a = if c = true ∧ a = b then v else memRead s.mem a := by
  cases c
  · simp
  · simp [memRead_memWrite, toWord_toNat b h]

theorem memRead_putList (s : State) (b a : Nat) (vs : List Word) (h : b + vs.length ≤ 65536) :
    memRead (s.putList b vs).mem a = if b ≤ a ∧ a < b + vs.length then vs.getD (a - b) 0#16 else memRead s.mem a := by
  rw [State.putList_mem, memRead_memWriteList _ _ _ _ h]

/-! ### Lists of writes -/

theorem lookup_single (a b : Nat) (v : Word) : ([(a, v)] : List (Nat × Word)).lookup b = if b = a then some v else none := by
  by_cases e : b = a
  · subst e; simp
  · rw [List.lookup_cons, show (b == a) = false by simpa using e]; simp [e]

theorem wrote_nil (s t : State) (h : t.mem = s.mem) : Wrote s t [] := by
  intro a _
  simp [h]

theorem wrote_put (s : State) (a : Nat) (v : Word) (h : a < 65536) : Wrote s (s.put a v) [(a, v)] := by
  intro b _
  rw [memRead_put s a b v h, lookup_single]
  by_cases e : b = a <;> simp [e]

theorem wrote_putIf (s : State) (c : Bool) (a : Nat) (v : Word) (h : a < 65536) : Wrote s (s.putIf c a v) (ifChanged c a v) := by
  cases c
  · exact wrote_nil _ _ (by simp)
  · intro b hb
    have := wrote_put s a v h b hb
    simpa [ifChanged] using this

theorem lookup_wordsAt (vs : List Word) (a b : Nat) :
    (wordsAt a vs).lookup b = if a ≤ b ∧ b < a + vs.length then some (vs.getD (b - a) 0#16) else none := by
  induction vs generalizing a with
  | nil => rw [wordsAt, List.lookup_nil, if_neg (by simp)]
  | cons v vs ih =>
    rw [wordsAt, List.lookup_cons, ih]
    by_cases e : b = a
    · subst e; simp
    · rw [show (b == a) = false by simpa using e]
      by_cases h : a + 1 ≤ b ∧ b < a + 1 + vs.length
      · rw [if_pos h, if_pos (by simp; omega), show b - a = (b - (a + 1)) + 1 by omega, List.getD_cons_succ]
      · rw [if_neg h, if_neg (by simp; omega)]

theorem wrote_putList (s : State) (a : Nat) (vs : List Word) (h : a + vs.length ≤ 65536) :
    Wrote s (s.putList a vs) (wordsAt a vs) := by
  intro b _
  rw [memRead_putList s a b vs h, lookup_wordsAt]
  split <;> rfl

theorem lookup_append (xs ys : List (Nat × Word)) (a : Nat) :
    (xs ++ ys).lookup a = (xs.lookup a).or (ys.lookup a) := by
  induction xs with
  | nil => simp
  | cons x xs ih =>
    rw [List.cons_append, List.lookup_cons, List.lookup_cons, ih]
    cases a == x.1 <;> rfl

theorem lookup_ifChanged (c : Bool) (a b : Nat) (v : Word) :
    (ifChanged c a v).lookup b = if c = true ∧ b = a then some v else none := by
  cases c
  · simp [ifChanged]
  · simp only [ifChanged, if_true, lookup_single, true_and]

end Sys2Proof.Machine

namespace Sys2Proof.Safety

open Machine

/-! ### Lists of writes taken together -/

/-- One change of the memory after another: the later one's words come first. -/
theorem Wrote.trans {s t u : State} {ws vs : List (Nat × Word)} (h : Wrote s t ws) (g : Wrote t u vs) : Wrote s u (vs ++ ws) := by
  intro a ha
  rw [g a ha, h a ha, lookup_append]
  cases vs.lookup a <;> rfl

/-- What is written does not depend on anything but the memories. -/
theorem Wrote.of_mem {s t s' t' : State} {ws : List (Nat × Word)} (h : Wrote s t ws) (hs : s'.mem = s.mem) (ht : t'.mem = t.mem) :
    Wrote s' t' ws := by
  intro a ha
  rw [hs, ht]
  exact h a ha

/-- Two lists of writes that give each address the same entry say the same. -/
theorem Wrote.congr {s t : State} {ws vs : List (Nat × Word)} (h : Wrote s t ws)
    (e : ∀ a, a < Config.memWords → vs.lookup a = ws.lookup a) : Wrote s t vs := by
  intro a ha
  rw [h a ha, e a ha]

/-- A word that no write names is as it was. -/
theorem Wrote.read {s t : State} {ws : List (Nat × Word)} (h : Wrote s t ws) (a : Nat) (ha : a < Config.memWords)
    (hn : ws.lookup a = none) : memRead t.mem a = memRead s.mem a := by
  rw [h a ha, hn, Option.getD_none]

end Sys2Proof.Safety
end

