-- ==== Sys2Proof/Laws/Effects.lean ====
section
/-! SUPPORT. What the shared operations of the blocks do to the parts of the state that they change: the block pool, the answers and
the order slots, the sections, the link's words. What each leaves alone is said by its frame lemma. -/

namespace Sys2Proof.Machine

open Safety

/-! ### Block pool (10.5, 10.6) -/

theorem State.judgeLow_effect (s : State) :
    s.judgeLow.pool = { s.pool with
        lowArmed := s.pool.lowArmed && !(s.setup.isSome && s.pool.lowArmed && s.poolIsLow) }
      ∧ s.judgeLow.attnCause =
        if s.setup.isSome && s.pool.lowArmed && s.poolIsLow then s.attnCause ||| causePoolLow else s.attnCause := by
  unfold State.judgeLow
  split
  · rename_i h
    rw [h]
    simp
  · rename_i h
    rw [Bool.eq_false_iff.2 h]
    simp

theorem State.rearmLow_effect (s : State) :
    s.rearmLow.pool = { s.pool with lowArmed := s.pool.lowArmed || (s.setup.isSome && !s.poolIsLow) } := by
  unfold State.rearmLow
  cases hs : s.setup.isSome <;> cases hl : s.poolIsLow <;> cases hc : s.pool.lowArmed <;>
    simp only [Bool.not_true, Bool.not_false, Bool.and_true, Bool.and_false, Bool.or_false, Bool.or_true, if_true,
      Bool.false_eq_true, if_false] <;> rw [← hc]

/-- What an allocation does: the front block goes to the record, the count word follows, and POOL_LOW is judged (R162, R163). -/
theorem State.takeBlock_effect (s : State) (r : RecNo) (b : BlockNo) (rest : List BlockNo) :
    (let low := s.setup.isSome && s.pool.lowArmed && decide (rest.length < s.cfg.poolLow)
     (s.takeBlock r b rest).pool = { s.pool with
        free := rest, owner := vset s.pool.owner b (some r), lowArmed := s.pool.lowArmed && !low }
      ∧ (s.takeBlock r b rest).attnCause = (if low then s.attnCause ||| causePoolLow else s.attnCause)
      ∧ Wrote s (s.takeBlock r b rest) [(stFreeCount, toWord rest.length)]) := by
  refine ⟨?_, ?_, ?_⟩
  · rw [State.takeBlock, (State.judgeLow_effect _).1]; rfl
  · rw [State.takeBlock, (State.judgeLow_effect _).2]; rfl
  · refine (wrote_put s stFreeCount (toWord rest.length) (by decide)).of_mem rfl ?_
    rw [State.takeBlock, (State.judgeLow_frame _).2.2.2.2.1]
    rfl

/-- What the return of a block does: it joins the tail of the free list, the count word follows, and the POOL_LOW mark may be armed
again (R163, R166). -/
theorem State.returnBlock_effect (s : State) (b : BlockNo) :
    (s.returnBlock b).pool = { s.pool with
        free := s.pool.free ++ [b], owner := vset s.pool.owner b none
        lowArmed := s.pool.lowArmed || (s.setup.isSome && decide (s.cfg.poolLow ≤ s.pool.free.length + 1)) }
      ∧ Wrote s (s.returnBlock b) [(stFreeCount, toWord (s.pool.free.length + 1))] := by
  constructor
  · rw [State.returnBlock, (State.rearmLow_effect _)]
    simp only [State.putFreeCount, State.poolIsLow, State.cfg, State.put_pool, State.put_setup, List.length_append,
      List.length_singleton, ← decide_not, Nat.not_lt]
    rfl
  · refine (wrote_put s stFreeCount (toWord (s.pool.free.length + 1)) (by decide)).of_mem rfl ?_
    rw [State.returnBlock, (State.rearmLow_frame _).2.2.2.2.1]
    simp [State.putFreeCount]

/-- What an answer to a record's request does (R164). -/
theorem State.answerRec_effect (s : State) (r : RecNo) (a : Word) :
    (s.answerRec r a).attnCause = s.attnCause ||| causeRequest
      ∧ Wrote s (s.answerRec r a) [(recAddr r 1, s.recWriteBack r), (recAddr r 2, a)] :=
  ⟨rfl, ((wrote_put s _ a (recAddr_lt r 2 (by decide))).trans (wrote_put _ _ _ (recAddr_lt r 1 (by decide)))).of_mem rfl rfl⟩

/-! ### Orders (chapter 9) -/

/-- What an answer to a slot's request does (R140). -/
theorem State.answerSlot_effect (s : State) (j : SlotNo) (a : Word) :
    (s.answerSlot j a).attnCause = s.attnCause ||| causeRequest
      ∧ Wrote s (s.answerSlot j a) [(slotAddr j 1, writeBack s.slots[j]), (slotAddr j 2, a)] :=
  ⟨rfl, ((wrote_put s _ a (slotAddr_lt j 2 (by decide))).trans (wrote_put _ _ _ (slotAddr_lt j 1 (by decide)))).of_mem rfl rfl⟩

/-- What the end of the current order does: the slot is SPENT, no order is current, and a pending amendment is dropped
(R148, R153). -/
theorem State.spendSlot_effect (s : State) (j : SlotNo) :
    (s.spendSlot j).slots = vset s.slots j (emptied s.slots[j] .spent) ∧ (s.spendSlot j).current = none
      ∧ (s.spendSlot j).attnCause = (if s.slots[j].amendment.isSome then s.attnCause ||| causeRequest else s.attnCause)
      ∧ Wrote s (s.spendSlot j)
        ((if s.slots[j].amendment.isSome then [(slotAddr j 1, reqNone), (slotAddr j 2, ansDropped)] else [])
          ++ [(stCurrent, Config.noneWord), (slotAddr j 0, slotCode .spent)]) := by
  have h1 : Wrote s ({ (s.setSlot j (emptied s.slots[j] .spent)).putSlotState j with current := none } : State).putCurrent
      [(stCurrent, Config.noneWord), (slotAddr j 0, slotCode .spent)] := by
    refine Wrote.trans (vs := [(stCurrent, Config.noneWord)]) (t := (s.setSlot j (emptied s.slots[j] .spent)).putSlotState j) ?_ ?_
    · refine (wrote_put s (slotAddr j 0) (slotCode .spent) (slotAddr_lt j 0 (by decide))).of_mem rfl ?_
      simp [State.putSlotState, State.setSlot, emptied]
    · exact (wrote_put _ stCurrent Config.noneWord (by decide)).of_mem rfl rfl
  unfold State.spendSlot
  cases h : s.slots[j].amendment with
  | none => exact ⟨rfl, rfl, rfl, h1⟩
  | some y =>
    refine ⟨rfl, rfl, rfl, h1.trans (vs := [(slotAddr j 1, reqNone), (slotAddr j 2, ansDropped)]) ?_⟩
    refine (State.answerSlot_effect _ j ansDropped).2.congr ?_
    intro a _
    simp [writeBack, State.putCurrent, State.putSlotState, State.setSlot, emptied, reqNone]

/-- The four order-queue words (R145). -/
theorem State.putQueue_wrote (s : State) : Wrote s s.putQueue (queueWords s.queue) :=
  wrote_putList s stQueue _ (by simp [stQueue])

/-! ### Sections (8.6 to 8.8) -/

/-- What the publication of a section in a block does (R132, steps 3 to 6): the block's 64 words, the link of the chain, the
sections-written word, ATTN SECTION, and the offer to the tube accumulators. -/
theorem State.publishSection_effect (s : State) (r : RecNo) (t : Tube) (b : BlockNo) (x : SectionResult) :
    (s.publishSection r t b x).tube = s.tube.map (fun u =>
        { u with lastBlock := some b, written := sat16 u.written, accum := offer u.accum x })
      ∧ (s.publishSection r t b x).attnCause = s.attnCause ||| causeSection
      ∧ Wrote s (s.publishSection r t b x)
        ((recAddr r 11, toWord (sat16 t.written))
          :: (match t.lastBlock with
              | some p => (blkAddr p 0, toWord b.val)
              | none => (recAddr r 10, toWord b.val))
          :: wordsAt (blkAddr b 0) (blockWordsOf x)) := by
  have hb : blkAddr b 0 + (blockWordsOf x).length ≤ 65536 := by
    have := b.isLt
    simp only [blockWordsOf, words32, List.length_append, List.length_map, Vector.length_toList, List.length_replicate,
      List.length_cons, List.length_nil, blkAddr, Config.blockBase, Config.blockWords]
    omega
  have h1 := wrote_putList s (blkAddr b 0) (blockWordsOf x) hb
  unfold State.publishSection
  cases t.lastBlock with
  | none =>
    refine ⟨?_, rfl, ?_⟩
    · cases h : s.tube <;> simp [State.offerSection, h]
    · exact ((h1.trans (wrote_put _ (recAddr r 10) _ (recAddr_lt r 10 (by decide)))).trans
        (wrote_put _ (recAddr r 11) _ (recAddr_lt r 11 (by decide)))).of_mem rfl rfl
  | some p =>
    refine ⟨?_, rfl, ?_⟩
    · cases h : s.tube <;> simp [State.offerSection, h]
    · exact ((h1.trans (wrote_put _ (blkAddr p 0) _ (blkAddr_lt p 0 (by decide)))).trans
        (wrote_put _ (recAddr r 11) _ (recAddr_lt r 11 (by decide)))).of_mem rfl rfl

/-- What the loss of a section does (R132, step 1). -/
theorem State.loseSection_effect (s : State) (r : RecNo) (t : Tube) (x : SectionResult) :
    (s.loseSection r t x).tube = s.tube.map (fun u =>
        { u with lost := sat16 u.lost, flags := u.flags ||| tfPoolExhausted, accum := offer u.accum x })
      ∧ Wrote s (s.loseSection r t x) (ifChanged (t.lost ≠ sat16 t.lost) (recAddr r 12) (toWord (sat16 t.lost))) := by
  constructor
  · cases h : s.tube <;> simp [State.loseSection, State.offerSection, h]
  · exact (wrote_putIf s _ (recAddr r 12) _ (recAddr_lt r 12 (by decide))).of_mem rfl rfl

/-- A written section is lost without a free block, and goes into the front block with one; without an open tube with a record
nothing happens (R132). -/
theorem State.writeSection_cases (s : State) (x : SectionResult) :
    (s.tube.bind Tube.record = none ∧ s.writeSection x = s)
      ∨ ∃ t r, s.tube = some t ∧ t.record = some r
        ∧ ((s.pool.free = [] ∧ s.writeSection x = s.loseSection r t x)
          ∨ ∃ b rest, s.pool.free = b :: rest ∧ s.writeSection x = (s.takeBlock r b rest).publishSection r t b x) := by
  unfold State.writeSection
  cases ht : s.tube with
  | none => exact .inl ⟨rfl, rfl⟩
  | some t =>
    cases hr : t.record with
    | none => exact .inl ⟨by simp [hr], by simp [hr]⟩
    | some r =>
      refine .inr ⟨t, r, rfl, hr, ?_⟩
      cases hf : s.pool.free with
      | nil => exact .inl ⟨rfl, by simp [hr]⟩
      | cons b rest => exact .inr ⟨b, rest, rfl, by simp [hr]⟩

/-! ### Temperature link (chapter 4) -/

/-- What a link counter does: the counters change, and the word of counter `i` where that counter does (R67). -/
theorem State.count_effect (s : State) (i : Nat) (f : LinkCounters → LinkCounters) (hi : i < 7) :
    (s.count i f).link = { s.link with counters := f s.link.counters }
      ∧ Wrote s (s.count i f) (ifChanged
        ((counterList s.link.counters).getD i 0 ≠ (counterList (f s.link.counters)).getD i 0) (stCounters + i)
        (toWord ((counterList (f s.link.counters)).getD i 0))) := by
  constructor
  · simp [State.count]
  · exact (wrote_putIf _ _ (stCounters + i) _ (by simp only [stCounters]; omega)).of_mem rfl rfl

/-! ### Published values -/

theorem State.setGain_wrote (s : State) (k : Head) (g : Nat) :
    Wrote s (s.setGain k g) (ifChanged (s.chans[k].gain ≠ g) (stGain + k.val) (toWord g)) :=
  (wrote_putIf _ _ (stGain + k.val) _ (by have := k.isLt; simp only [stGain]; omega)).of_mem rfl rfl

theorem State.setMisfires_wrote (s : State) (k : Head) (n : Nat) :
    Wrote s (s.setMisfires k n) (ifChanged (s.heads[k].misfires ≠ n) (stMisfires + k.val) (toWord n)) :=
  (wrote_putIf _ _ (stMisfires + k.val) _ (by have := k.isLt; simp only [stMisfires]; omega)).of_mem rfl rfl

theorem State.setHeadState_wrote (s : State) (k : Head) (h : HeadState) :
    Wrote s (s.setHeadState k h) (ifChanged (s.heads[k].state ≠ h) (stHeadState + k.val) (headCode h)) :=
  (wrote_putIf _ _ (stHeadState + k.val) _ (by have := k.isLt; simp only [stHeadState]; omega)).of_mem rfl rfl

theorem State.setStray_wrote (s : State) (k : Head) (n : Nat) :
    Wrote s (s.setStray k n) (ifChanged (s.heads[k].stray ≠ n) (stStray + k.val) (toWord n)) :=
  (wrote_putIf _ _ (stStray + k.val) _ (by have := k.isLt; simp only [stStray]; omega)).of_mem rfl rfl

theorem State.setFiring_wrote (s : State) (f : FiringState) :
    Wrote s (s.setFiring f) (ifChanged (s.firing ≠ f) stFiring (firingCode f)) :=
  (wrote_putIf _ _ stFiring _ (by decide)).of_mem rfl rfl

theorem State.setTrack_wrote (s : State) (t : TrackState) :
    Wrote s (s.setTrack t) (ifChanged (s.tracker.state ≠ t) stTracking (trackCode t)) :=
  (wrote_putIf _ _ stTracking _ (by decide)).of_mem rfl rfl

theorem State.setZ_wrote (s : State) (z : Nat) :
    Wrote s (s.setZ z) (ifChanged (positionOf s.tracker.z ≠ positionOf z) stPosition (toWord (positionOf z))) :=
  (wrote_putIf _ _ stPosition _ (by decide)).of_mem rfl rfl

theorem State.setPLast_wrote (s : State) (p : Option Nat) :
    Wrote s (s.setPLast p) (ifChanged (speedOf s.cfg.encStep s.tracker.pLast ≠ speedOf s.cfg.encStep p) stSpeed
      (toWord (speedOf s.cfg.encStep p))) :=
  (wrote_putIf _ _ stSpeed _ (by decide)).of_mem rfl rfl

theorem State.setGauge_wrote (s : State) (g : GaugeState) : Wrote s (s.setGauge g) [(stGauge, gaugeCode g)] :=
  (wrote_put _ stGauge _ (by decide)).of_mem rfl rfl

theorem State.setRecState_wrote (s : State) (r : RecNo) (x : RecState) :
    Wrote s (s.setRecState r x) [(recAddr r 0, recCode x)] :=
  (wrote_put _ (recAddr r 0) _ (recAddr_lt r 0 (by decide))).of_mem rfl rfl

end Sys2Proof.Machine
end

