-- ==== Sys2Proof/Laws/Change.lean ====
section
/-! SUPPORT. What the writing of sections does as a whole: a list of sections, a release pass, and the completion of the
CLOSING section, each in the terms of `Sys2Proof.Safety`. -/

namespace Sys2Proof.Machine

open Safety

/-- A state is another one with its own memory once every other part of it is that one's. -/
theorem State.eq_withMem (s t : State) (h : { s with mem := [] } = ({ t with mem := [] } : State)) : s = { t with mem := s.mem } := by
  cases s; cases t
  simp only [State.mk.injEq] at h ⊢
  simp only [h, and_self]

/-! ### Sections that are written (R132) -/

/-- The writing of sections does not look at the memory. -/
theorem sectionsWritten_withMem (xs : List SectionResult) (s : State) (r : RecNo) (t : Tube) (m : Memory) :
    sectionsWritten { s with mem := m } r t xs = { sectionsWritten s r t xs with mem := m } := by
  induction xs generalizing s t with
  | nil => rfl
  | cons x xs ih =>
    simp only [sectionsWritten]
    cases h : s.pool.free with
    | nil => exact ih s _
    | cons b rest =>
      exact ih { s with
        pool := { s.pool with
          free := rest
          owner := vset s.pool.owner b (some r)
          lowArmed := s.pool.lowArmed && !(s.setup.isSome && s.pool.lowArmed && decide (rest.length < s.cfg.poolLow)) }
        attnCause := (if s.setup.isSome && s.pool.lowArmed && decide (rest.length < s.cfg.poolLow) then s.attnCause ||| causePoolLow
          else s.attnCause) ||| causeSection } _

/-- Nor at the tube that stands open before it. -/
theorem sectionsWritten_withTube (xs : List SectionResult) (s : State) (r : RecNo) (t : Tube) (u : Option Tube) :
    sectionsWritten { s with tube := u } r t xs = sectionsWritten s r t xs := by
  induction xs generalizing s t with
  | nil => rfl
  | cons x xs ih =>
    simp only [sectionsWritten]
    cases h : s.pool.free with
    | nil => exact ih s _
    | cons b rest =>
      exact ih { s with
        pool := { s.pool with
          free := rest
          owner := vset s.pool.owner b (some r)
          lowArmed := s.pool.lowArmed && !(s.setup.isSome && s.pool.lowArmed && decide (rest.length < s.cfg.poolLow)) }
        attnCause := (if s.setup.isSome && s.pool.lowArmed && decide (rest.length < s.cfg.poolLow) then s.attnCause ||| causePoolLow
          else s.attnCause) ||| causeSection } _

/-- The POOL_LOW judgement after an allocation, in one record (R163). -/
theorem State.judgeLow_eq (s : State) :
    s.judgeLow = { s with
      pool := { s.pool with lowArmed := s.pool.lowArmed && !(s.setup.isSome && s.pool.lowArmed && s.poolIsLow) }
      attnCause := if s.setup.isSome && s.pool.lowArmed && s.poolIsLow then s.attnCause ||| causePoolLow else s.attnCause } := by
  unfold State.judgeLow
  split
  · rename_i h
    simp [h, State.raise]
  · rename_i h
    simp only [h]
    cases s; simp_all

/-- A block taken off the free list, in one record (R162, R163). -/
theorem State.takeBlock_eq (s : State) (r : RecNo) (b : BlockNo) (rest : List BlockNo) :
    s.takeBlock r b rest = { s with
      mem := (s.put stFreeCount (toWord rest.length)).mem
      pool := { s.pool with
        free := rest
        owner := vset s.pool.owner b (some r)
        lowArmed := s.pool.lowArmed && !(s.setup.isSome && s.pool.lowArmed && decide (rest.length < s.cfg.poolLow)) }
      attnCause := if s.setup.isSome && s.pool.lowArmed && decide (rest.length < s.cfg.poolLow) then s.attnCause ||| causePoolLow
        else s.attnCause } := by
  rw [State.takeBlock, State.judgeLow_eq]
  rfl

/-- What one written section does: the state and the words of `sectionsWritten` (R132). -/
theorem State.writeSection_written (s : State) (r : RecNo) (t : Tube) (x : SectionResult) (ht : s.tube = some t)
    (hr : t.record = some r) :
    s.writeSection x = { sectionsWritten s r t [x] with mem := (s.writeSection x).mem }
      ∧ Wrote s (s.writeSection x) (sectionWords s.pool.free r t [x]) := by
  cases hf : s.pool.free with
  | nil =>
    have he : s.writeSection x = s.loseSection r t x := by
      unfold State.writeSection
      simp only [ht, hr, hf]
    rw [he]
    refine ⟨State.eq_withMem _ _ ?_, ?_⟩
    · simp [sectionsWritten, hf, State.loseSection, State.offerSection, State.modTube, State.putIf, ht, sat16]
    · exact (State.loseSection_effect s r t x).2.congr (fun a _ => by
        simp only [sectionWords, List.nil_append, toWord, sat16]
        congr!)
  | cons b rest =>
    have he : s.writeSection x = (s.takeBlock r b rest).publishSection r t b x := by
      unfold State.writeSection
      simp only [ht, hr, hf]
    obtain ⟨-, -, hw⟩ := State.takeBlock_effect s r b rest
    obtain ⟨-, -, hw'⟩ := State.publishSection_effect (s.takeBlock r b rest) r t b x
    rw [he]
    refine ⟨State.eq_withMem _ _ ?_, ?_⟩
    · rw [State.takeBlock_eq]
      cases hb : t.lastBlock <;>
        simp [State.publishSection, hb, sectionsWritten, hf, State.offerSection, State.modTube, State.put, State.putList, State.raise,
          sat16, ht]
    · refine (hw.trans hw').congr ?_
      intro a _
      cases hb : t.lastBlock <;> simp [sectionWords, toWord, sat16, hb]

/-- The open tube after one section was written or lost. -/
def tubeAfter (free : List BlockNo) (t : Tube) (x : SectionResult) : Tube :=
  match free with
  | [] => { t with lost := min (t.lost + 1) 65535, flags := t.flags ||| tfPoolExhausted, accum := offer t.accum x }
  | b :: _ => { t with lastBlock := some b, written := min (t.written + 1) 65535, accum := offer t.accum x }

theorem sectionWords_congr (xs : List SectionResult) (free : List BlockNo) (r : RecNo) (t u : Tube) (h : t.lost = u.lost)
    (hb : t.lastBlock = u.lastBlock) (hw : t.written = u.written) : sectionWords free r t xs = sectionWords free r u xs := by
  induction xs generalizing free t u with
  | nil => rfl
  | cons x xs ih =>
    cases free with
    | nil =>
      simp only [sectionWords, h]
      congr 1
      exact ih [] _ _ rfl hb hw
    | cons b rest =>
      simp only [sectionWords, hw, hb]
      rw [ih rest { t with lastBlock := some b, written := min (u.written + 1) 65535 }
        { u with lastBlock := some b, written := min (u.written + 1) 65535 } h rfl rfl]

theorem sectionWords_cons (free : List BlockNo) (r : RecNo) (t : Tube) (x : SectionResult) (xs : List SectionResult) :
    sectionWords free r t (x :: xs) = sectionWords free.tail r (tubeAfter free t x) xs ++ sectionWords free r t [x] := by
  cases free with
  | nil =>
    simp only [sectionWords, List.tail_nil, List.nil_append]
    congr 1
    exact sectionWords_congr xs [] r _ _ rfl rfl rfl
  | cons b rest =>
    simp only [sectionWords, List.tail_cons, List.nil_append, List.append_assoc]
    congr 1
    exact sectionWords_congr xs rest r _ _ rfl rfl rfl

theorem sectionsWritten_one_tube (s : State) (r : RecNo) (t : Tube) (x : SectionResult) :
    (sectionsWritten s r t [x]).tube = some (tubeAfter s.pool.free t x)
      ∧ (sectionsWritten s r t [x]).pool.free = s.pool.free.tail := by
  cases h : s.pool.free <;> simp [sectionsWritten, tubeAfter, h]

theorem sectionsWritten_cons (s : State) (r : RecNo) (t : Tube) (x : SectionResult) (xs : List SectionResult) :
    sectionsWritten s r t (x :: xs) = sectionsWritten (sectionsWritten s r t [x]) r (tubeAfter s.pool.free t x) xs := by
  cases h : s.pool.free <;> simp only [sectionsWritten, tubeAfter, h] <;> exact (sectionsWritten_withTube _ _ _ _ _).symm

/-- What a list of written sections does (R132). -/
theorem State.writeSections_written (xs : List SectionResult) (s : State) (r : RecNo) (t : Tube) (ht : s.tube = some t)
    (hr : t.record = some r) :
    s.writeSections xs = { sectionsWritten s r t xs with mem := (s.writeSections xs).mem }
      ∧ Wrote s (s.writeSections xs) (sectionWords s.pool.free r t xs) := by
  induction xs generalizing s t with
  | nil => exact ⟨by cases s; simp_all [sectionsWritten, State.writeSections], wrote_nil _ _ rfl⟩
  | cons x xs ih =>
    obtain ⟨hs, hw⟩ := State.writeSection_written s r t x ht hr
    obtain ⟨h1, h2⟩ := sectionsWritten_one_tube s r t x
    have ha : (tubeAfter s.pool.free t x).record = some r := by unfold tubeAfter; split <;> exact hr
    obtain ⟨h, h'⟩ := ih (s.writeSection x) (tubeAfter s.pool.free t x) (by rw [hs]; exact h1) ha
    rw [State.writeSections, sectionWords_cons, sectionsWritten_cons]
    have hp : (s.writeSection x).pool.free = s.pool.free.tail := by rw [hs]; exact h2
    rw [hp] at h'
    refine ⟨?_, hw.trans h'⟩
    have e : sectionsWritten (s.writeSection x) r (tubeAfter s.pool.free t x) xs
        = { sectionsWritten (sectionsWritten s r t [x]) r (tubeAfter s.pool.free t x) xs with mem := (s.writeSection x).mem } := by
      conv_lhs => rw [hs]
      exact sectionsWritten_withMem _ _ _ _ _
    refine h.trans ?_
    rw [e]

/-! ### Release passes (R130) -/

/-- What a release pass does with the open tube `t` of record `r` (R130). -/
theorem State.releasePass_released (s : State) (r : RecNo) (t : Tube) (ht : s.tube = some t) (hr : t.record = some r) :
    s.releasePass = { released s r s.tailSkip s.passZ t with mem := s.releasePass.mem }
      ∧ Wrote s s.releasePass (releasedWords s r s.tailSkip s.passZ t) := by
  have hh : s.held = t.holdback := by simp [State.held, ht]
  have hp : s.releasePass = (s.modTube (fun u => { u with holdback := u.holdback.dropWhile (leaves s.tailSkip s.passZ) })).writeSections
      (t.holdback.takeWhile (leaves s.tailSkip s.passZ)) := by
    rw [← hh]; rfl
  obtain ⟨h, hw⟩ := State.writeSections_written (t.holdback.takeWhile (leaves s.tailSkip s.passZ))
    (s.modTube (fun u => { u with holdback := u.holdback.dropWhile (leaves s.tailSkip s.passZ) })) r
    { t with holdback := t.holdback.dropWhile (leaves s.tailSkip s.passZ) } (by simp [State.modTube, ht]) hr
  have e := sectionsWritten_withTube (t.holdback.takeWhile (leaves s.tailSkip s.passZ)) s r
    { t with holdback := t.holdback.dropWhile (leaves s.tailSkip s.passZ) }
    (s.tube.map (fun u => { u with holdback := u.holdback.dropWhile (leaves s.tailSkip s.passZ) }))
  rw [hp]
  refine ⟨h.trans ?_, (hw.of_mem rfl rfl).congr fun a _ => ?_⟩
  · rw [State.modTube, e, released]
  · rw [releasedWords, sectionWords_congr _ _ r t { t with holdback := t.holdback.dropWhile (leaves s.tailSkip s.passZ) } rfl rfl rfl]
    rfl

/-! ### The completion of the CLOSING section (R109) -/

/-- What a completion does with the CLOSING section `c` of the open tube `t` of record `r`, in the terms of a release pass (R109, R130). -/
theorem State.completeSection_released (s : State) (r : RecNo) (t : Tube) (n : Snapshot) (c : Accum) (f : Word) (ht : s.tube = some t)
    (hr : t.record = some r) (hn : s.tubeOrder = some n) :
    (s.completeSection c f) = { released s r n.recipe.tailSkip (t.zTail.getD s.tracker.z)
        { t with holdback := t.holdback ++ [resultOf n.recipe c f] } with mem := (s.completeSection c f).mem }
      ∧ Wrote s (s.completeSection c f) (releasedWords s r n.recipe.tailSkip (t.zTail.getD s.tracker.z)
        { t with holdback := t.holdback ++ [resultOf n.recipe c f] }) := by
  have hm : markHead s.lSec s.headSkip (completeAccum s.lSec s.occMin c ((c.index + 1) * s.lSec) f) = resultOf n.recipe c f := by
    simp only [markHead, resultOf, State.lSec, State.headSkip, State.occMin, hn, Option.map_some, Option.getD_some, giveIf]
    have hi : (completeAccum n.recipe.lSec n.recipe.occMin c ((c.index + 1) * n.recipe.lSec) f).index = c.index := by
      unfold completeAccum
      split <;> rfl
    rw [hi]
    split <;> rename_i h <;> simp [h, flagIf]
  have ha : s.completeSection c f
      = ({ s with tube := some { t with holdback := t.holdback ++ [resultOf n.recipe c f] } } : State).releasePass := by
    rw [State.completeSection, State.appendHeld, hm, State.modTube, ht, Option.map_some]
  have hi : t.order.bind (fun j => s.slots[j].snapshot) = some n := by
    simpa [State.tubeOrder, State.orderInUse, ht] using hn
  obtain ⟨h, hw⟩ := State.releasePass_released
    ({ s with tube := some { t with holdback := t.holdback ++ [resultOf n.recipe c f] } } : State) r _ rfl hr
  have h1 : ({ s with tube := some { t with holdback := t.holdback ++ [resultOf n.recipe c f] } } : State).tailSkip =
      n.recipe.tailSkip := by
    simp only [State.tailSkip, State.tubeOrder, State.orderInUse, Option.bind_some, hi, Option.map_some, Option.getD_some]
  have h2 : ({ s with tube := some { t with holdback := t.holdback ++ [resultOf n.recipe c f] } } : State).passZ
      = t.zTail.getD s.tracker.z := rfl
  rw [ha]
  rw [h1, h2] at hw
  refine ⟨?_, hw.of_mem rfl rfl⟩
  rw [h1, h2] at h
  refine h.trans ?_
  simp only [released, sectionsWritten_withTube]

/-- What the completion of a CLOSING section awaiting no shot does: `settled` and its words (R109). -/
theorem State.settleClosing_settled (s : State) (r : RecNo) (t : Tube) (n : Snapshot) (ht : s.tube = some t) (hr : t.record = some r)
    (hn : s.tubeOrder = some n) (hf : ∀ c, t.closing = some c → s.flightFor c.index = false) :
    s.settleClosing = { settled s t with mem := s.settleClosing.mem } ∧ Wrote s s.settleClosing (settledWords s t) := by
  cases hc : t.closing with
  | none =>
    have h : s.settleClosing = s := by simp [State.settleClosing, ht, hc]
    rw [h]
    refine ⟨?_, (wrote_nil s s rfl).congr fun a _ => by simp [settledWords, hc]⟩
    simp only [settled, hc, ← ht]
  | some c =>
    have hi : t.order.bind (fun j => s.slots[j].snapshot) = some n := by
      simpa [State.tubeOrder, State.orderInUse, ht] using hn
    have he : s.settleClosing = ({ s with tube := some { t with closing := none } } : State).completeSection c 0#16 := by
      simp [State.settleClosing, ht, hc, hf c hc, State.modTube]
    obtain ⟨h, hw⟩ := State.completeSection_released ({ s with tube := some { t with closing := none } } : State) r
      { t with closing := none } n c 0#16 rfl hr (by simpa only [State.tubeOrder, State.orderInUse, Option.bind_some] using hi)
    rw [he]
    refine ⟨h.trans ?_, (hw.of_mem rfl rfl).congr fun a _ => ?_⟩
    · simp only [settled, hc, hr, hn, released, sectionsWritten_withTube, withClosingDone, Option.toList, List.map]
    · simp only [settledWords, hc, hr, hn, withClosingDone, Option.toList, List.map]
      rfl

end Sys2Proof.Machine
end

