-- ==== Sys2Proof/Laws/Clock.lean ====
section
/-! SUPPORT. What one ct can change: the receiver signals touch the channels, the ECHO levels and the slot in progress, and nothing else. -/

namespace Sys2Proof.Machine

/-- Nothing but the channels, the ECHO levels and the slot in progress differs. -/
def OnlyEchoes (s t : State) : Prop :=
  t = { s with chans := t.chans, pins := { s.pins with echo := t.pins.echo }, slot := t.slot }

theorem OnlyEchoes.refl (s : State) : OnlyEchoes s s := rfl

theorem OnlyEchoes.trans {s t u : State} (h : OnlyEchoes s t) (g : OnlyEchoes t u) : OnlyEchoes s u := by
  unfold OnlyEchoes at *
  rw [g, h]

/-- The peak detector touches the slot in progress alone (R49). -/
theorem State.followEcho_only (s : State) (k : Head) (t : Nat) (level : Int) :
    s.followEcho k t level = { s with slot := (s.followEcho k t level).slot } := by
  unfold State.followEcho
  split
  · split
    · unfold State.setPhase; rfl
    · rfl
  all_goals rfl

/-- A standing level changes its own channel's outputs, the ECHO level and the peak (R43, R49). -/
theorem State.takeLevel_only (s : State) (p : EchoPoint) : OnlyEchoes s (s.takeLevel p) := by
  unfold OnlyEchoes State.takeLevel
  rw [State.followEcho_only]

/-- The channels after a standing level (R43). -/
theorem State.takeLevel_chans (s : State) (p : EchoPoint) :
    (s.takeLevel p).chans = vset s.chans p.head (compare (s.codeInUse p.head) s.chans[p.head] p.level) := by
  unfold State.takeLevel
  rw [State.followEcho_only]

theorem State.echoPoint_only (s : State) (p : EchoPoint) : OnlyEchoes s (s.echoPoint p).1 := s.takeLevel_only p

theorem State.standing_only (s : State) (k : Head) : OnlyEchoes s (s.standing k).1 := s.echoPoint_only _

theorem State.settleEchoes_only (s : State) : OnlyEchoes s s.settleEchoes.1 := by
  have h : ∀ (ks : List Head) (r : State × List Instr), OnlyEchoes s r.1 → OnlyEchoes s (ks.foldl settleChannel r).1 := by
    intro ks
    induction ks with
    | nil => exact fun r hr => hr
    | cons k ks ih => exact fun r hr => ih _ (hr.trans (r.1.standing_only k))
  exact h _ _ (OnlyEchoes.refl s)

theorem State.echoPoints_only (s : State) (ps : List EchoPoint) : OnlyEchoes s (s.echoPoints ps).1 := by
  induction ps generalizing s with
  | nil => exact OnlyEchoes.refl s
  | cons p ps ih => exact (s.echoPoint_only p).trans (ih _)

/-- The receiver signals over one ct (R42, R43, R49). -/
theorem State.echoTick_only (s : State) (ps : List EchoPoint) : OnlyEchoes s (s.echoTick ps).1 :=
  s.settleEchoes_only.trans (State.echoPoints_only _ ps)

/-- One word of the INIT clearing changes the memory and the clearing alone (R5). -/
theorem State.clearWord_only (s : State) : s.clearWord = { s with mem := s.clearWord.mem, clearing := s.clearWord.clearing } := by
  unfold State.clearWord
  split <;> rfl

/-- The sampled inputs change the tracker, the presence filter and the receiver alone (R55, R86, R120). -/
theorem State.sampleInputs_only (s : State) (x : PinSample) :
    (s.sampleInputs x).1 = { s with
      tracker := (s.sampleInputs x).1.tracker
      presence := (s.sampleInputs x).1.presence
      link := (s.sampleInputs x).1.link } := rfl

/-- What one ct can do: it steps the time and the input samples, moves the filters and outputs, and clears at most one word. -/
theorem State.tick_only (s : State) :
    s.tick = { s with
      now := s.now + 1
      inputs := s.inputs.tail
      pins := s.tick.pins
      chans := s.tick.chans
      slot := s.tick.slot
      mem := s.tick.mem
      clearing := s.tick.clearing
      tracker := s.tick.tracker
      presence := s.tick.presence
      link := s.tick.link
      pending := s.tick.pending } := by
  obtain ⟨c, e, h, hu⟩ : ∃ c e h, (s.echoTick s.nextSample.echo).1
      = { s with chans := c, pins := { s.pins with echo := e }, slot := h } := ⟨_, _, _, s.echoTick_only _⟩
  obtain ⟨m, cl, hw⟩ : ∃ m cl, (State.advance (s.echoTick s.nextSample.echo).1 s.nextSample).clearWord
      = { State.advance (s.echoTick s.nextSample.echo).1 s.nextSample with mem := m, clearing := cl } :=
    ⟨_, _, State.clearWord_only _⟩
  rw [hu] at hw
  have ht : s.tick = if runs s.gauge then
      { ((State.advance (s.echoTick s.nextSample.echo).1 s.nextSample).clearWord.sampleInputs s.nextSample).1 with
        pending := (s.echoTick s.nextSample.echo).2
          ++ ((State.advance (s.echoTick s.nextSample.echo).1 s.nextSample).clearWord.sampleInputs s.nextSample).2 }
      else (State.advance (s.echoTick s.nextSample.echo).1 s.nextSample).clearWord := rfl
  rw [hu, hw] at ht
  split at ht
  · rw [State.sampleInputs_only] at ht
    generalize (State.sampleInputs _ _) = r at ht
    rw [ht]; rfl
  · rw [ht]; rfl

end Sys2Proof.Machine
end

