-- ==== Sys2Proof/Laws/Operands.lean ====
section
/-! SUPPORT. What the checks of the setup block, of a recipe and of an amendment find, what the window fit gives, and which word is
which slot's or record's request word. -/

namespace Sys2Proof.Machine

open Safety

/-! ### Checks in word order -/

/-- A list of checks has no bad field exactly where it passes (R141, R150). -/
theorem firstBad_none_iff (cs : List (Nat × Bool)) : firstBad cs = none ↔ Passes cs := by
  induction cs with
  | nil => simp [firstBad, Passes]
  | cons c cs ih =>
    cases h : c.2 with
    | false => simp [firstBad, Passes, h]
    | true => simp [firstBad, Passes, h, ih]

/-- The bad field of a list of checks is the first one that fails (R142, R150). -/
theorem firstBad_some_iff (cs : List (Nat × Bool)) (off : Nat) : firstBad cs = some off ↔ FailsFirstAt cs off := by
  induction cs with
  | nil => simp [firstBad, FailsFirstAt]
  | cons c cs ih =>
    obtain ⟨a, b⟩ := c
    cases b with
    | false =>
      constructor
      · intro h
        obtain rfl : a = off := by simpa [firstBad] using h
        exact ⟨[], cs, rfl, by simp [Passes]⟩
      · rintro ⟨before, behind, h, hp⟩
        cases before with
        | nil => simp_all [firstBad]
        | cons x xs =>
          obtain ⟨rfl, -⟩ := List.cons.inj h
          exact absurd (hp (a, false) (by simp)) (by simp)
    | true =>
      rw [firstBad, if_pos rfl, ih]
      constructor
      · rintro ⟨before, behind, h, hp⟩
        refine ⟨(a, true) :: before, behind, by simp [h], ?_⟩
        intro c hc
        rcases List.mem_cons.1 hc with rfl | hc
        · rfl
        · exact hp c hc
      · rintro ⟨before, behind, h, hp⟩
        cases before with
        | nil => simp at h
        | cons x xs =>
          obtain ⟨-, h2⟩ := List.cons.inj h
          exact ⟨xs, behind, h2, fun c hc => hp c (List.mem_cons_of_mem _ hc)⟩

/-! ### Setup block -/

/-- The word at `a` lies within a range. -/
def wordWithin (m : Memory) (a : Nat) (r : Nat × Nat) : Prop := r.1 ≤ (memRead m a).toNat ∧ (memRead m a).toNat ≤ r.2

theorem within_iff (m : Memory) (a : Nat) (r : Nat × Nat) : within r.1 r.2 (fieldAt m a) = true ↔ wordWithin m a r := by
  rw [within, Bool.and_eq_true, decide_eq_true_eq, decide_eq_true_eq]
  rfl

theorem firstBadSetup_none_iff (m : Memory) (rs : List (Nat × Nat)) (k : Nat) :
    firstBadSetup m rs k = none ↔ ∀ (i : Nat) (r : Nat × Nat), rs[i]? = some r → wordWithin m (0x0100 + (k + i)) r := by
  induction rs generalizing k with
  | nil => simp [firstBadSetup]
  | cons q rs ih =>
    rw [firstBadSetup]
    by_cases h : within q.1 q.2 (fieldAt m (Config.setupBase + k)) = true
    · rw [if_pos h, ih]
      rw [within_iff] at h
      constructor
      · intro g i r hr
        cases i with
        | zero => obtain rfl : q = r := by simpa using hr
                  exact h
        | succ i => have := g i r (by simpa using hr)
                    rwa [Nat.add_assoc, Nat.add_comm 1 i] at this
      · intro g i r hr
        have := g (i + 1) r (by simpa using hr)
        rwa [Nat.add_assoc, Nat.add_comm 1 i]
    · rw [if_neg h]
      rw [within_iff] at h
      simp only [reduceCtorEq, false_iff]
      intro g
      exact h (g 0 q (by simp))

theorem firstBadSetup_some_iff (m : Memory) (rs : List (Nat × Nat)) (k off : Nat) :
    firstBadSetup m rs k = some off ↔
      ∃ i, off = k + i ∧ (∃ r, rs[i]? = some r ∧ ¬wordWithin m (0x0100 + off) r)
        ∧ ∀ j < i, ∀ r, rs[j]? = some r → wordWithin m (0x0100 + (k + j)) r := by
  induction rs generalizing k with
  | nil => simp [firstBadSetup]
  | cons q rs ih =>
    rw [firstBadSetup]
    by_cases h : within q.1 q.2 (fieldAt m (Config.setupBase + k)) = true
    · rw [if_pos h, ih]
      rw [within_iff] at h
      constructor
      · rintro ⟨i, rfl, ⟨r, hr, hn⟩, hl⟩
        refine ⟨i + 1, by omega, ⟨r, by simpa using hr, hn⟩, ?_⟩
        intro j hj r hr
        cases j with
        | zero => obtain rfl : q = r := by simpa using hr
                  exact h
        | succ j => have := hl j (by omega) r (by simpa using hr)
                    rwa [Nat.add_assoc, Nat.add_comm 1 j] at this
      · rintro ⟨i, rfl, ⟨r, hr, hn⟩, hl⟩
        cases i with
        | zero => obtain rfl : q = r := by simpa using hr
                  exact absurd h hn
        | succ i =>
          refine ⟨i, by omega, ⟨r, by simpa using hr, hn⟩, ?_⟩
          intro j hj r hr
          have := hl (j + 1) (by omega) r (by simpa using hr)
          rwa [Nat.add_assoc, Nat.add_comm 1 j]
    · rw [if_neg h]
      rw [within_iff] at h
      constructor
      · intro g
        obtain rfl : k = off := by simpa using g
        exact ⟨0, by omega, ⟨q, by simp, h⟩, by omega⟩
      · rintro ⟨i, rfl, ⟨r, hr, hn⟩, hl⟩
        cases i with
        | zero => rfl
        | succ i => exact absurd (hl 0 (by omega) q (by simp)) h

/-- A setup block has no error exactly where every field is in its range (R9, R10). -/
theorem setupError_none_iff (m : Memory) :
    setupError m = none ↔ ∀ (i : Nat) (r : Nat × Nat), setupRanges[i]? = some r → wordWithin m (0x0100 + i) r := by
  rw [setupError, firstBadSetup_none_iff]
  simp only [Nat.zero_add]

/-- The error of a setup block is its first field outside its range (R9). -/
theorem setupError_some_iff (m : Memory) (off : Nat) :
    setupError m = some off ↔ (∃ r, setupRanges[off]? = some r ∧ ¬wordWithin m (0x0100 + off) r)
      ∧ ∀ i < off, ∀ r, setupRanges[i]? = some r → wordWithin m (0x0100 + i) r := by
  rw [setupError, firstBadSetup_some_iff]
  simp only [Nat.zero_add]
  constructor
  · rintro ⟨i, rfl, h⟩
    exact h
  · intro h
    exact ⟨off, rfl, h⟩

/-! ### Window fit (R34) -/

/-- What a window fit that is accepted gives (R34). -/
theorem fitOk_spec (setup : Option Setup) (b w : Nat) (h : fitOk setup b w = true) :
    ∃ c, setup = some c ∧ (fitWindow c b w : Int) = min (w : Int) (fitRoom c b) ∧ 25 ≤ fitWindow c b w ∧ b + w ≤ 1630 := by
  cases setup with
  | none => simp [fitOk] at h
  | some c =>
    simp only [fitOk, Bool.and_eq_true, decide_eq_true_eq] at h
    refine ⟨c, rfl, ?_, ?_, h.2⟩
    · unfold fitWindow
      rw [Int.toNat_of_nonneg (by omega)]
    · unfold fitWindow
      omega

/-! ### Request words (Table 10-1) -/

theorem slotOfRequest_slotAddr (j : SlotNo) : slotOfRequest (slotAddr j 1) = some j := by revert j; decide

theorem slotOfRequest_recAddr (r : RecNo) : slotOfRequest (recAddr r 1) = none := by revert r; decide

theorem recordOfRequest_recAddr (r : RecNo) : recordOfRequest (recAddr r 1) = some r := by revert r; decide

theorem slotOfRequest_eq_some (a : Nat) (j : SlotNo) (h : slotOfRequest a = some j) : a = slotAddr j 1 := by
  have := List.find?_some h
  exact (by simpa using this : _ = a).symm

theorem recordOfRequest_eq_some (a : Nat) (r : RecNo) (h : recordOfRequest a = some r) : a = recAddr r 1 := by
  have := List.find?_some h
  exact (by simpa using this : _ = a).symm

end Sys2Proof.Machine
end

