-- ==== Sys2Proof/Laws/Timers.lean ====
section
/-! SUPPORT. What is due in each block: the timer events of the model against the timers of `Sys2Proof.Safety`, group by group. -/

namespace Sys2Proof.Machine

open Safety

/-- The command of the first due timer of a list. -/
def firstDue (l : List (Bool × Instr)) : Option Instr := (l.find? Prod.fst).map Prod.snd

@[simp] theorem firstDue_nil : firstDue [] = none := rfl

@[simp] theorem firstDue_cons (b : Bool) (i : Instr) (l : List (Bool × Instr)) :
    firstDue ((b, i) :: l) = (dueIf b i <|> firstDue l) := by
  cases b <;> simp [firstDue, dueIf]

@[simp] theorem firstDue_append (l m : List (Bool × Instr)) : firstDue (l ++ m) = (firstDue l <|> firstDue m) := by
  induction l with
  | nil => rfl
  | cons e l ih =>
    obtain ⟨b, i⟩ := e
    cases b <;> simp [dueIf, ih]

/-- The timer events of the tracker (R91, R92). -/
theorem State.dueTracker_firstDue (s : State) : s.dueTracker = firstDue (trackerTimers s) := by
  unfold State.dueTracker trackerTimers
  have e : Config.ctPerUs = 25 := rfl
  cases h : s.tracker.stallLimit <;> cases g : s.tracker.pLast <;> simp [h, g, dueIf, e]

/-- The timer events of the shot in flight (R23, R46, R47, R49, R51). -/
theorem State.dueShot_firstDue (s : State) : s.slot.bind (fun h => s.dueShot h.phase) = firstDue (shotTimers s) := by
  unfold shotTimers
  have e : Config.tuPerCt = 160 := rfl
  have w : ∀ n : Snapshot, windowEndTu n = 160 * (n.recipe.blanking + n.wEff) := fun _ => rfl
  cases s.slot with
  | none => rfl
  | some h =>
    cases hp : h.phase with
    | opened sh c =>
      cases ho : c.holdOff <;> cases he : c.echoes <;>
        simp [hp, ho, he, State.dueShot, dueIf, w, e]
    | _ => simp [hp, State.dueShot, dueIf]

/-- The events of the cycle timer (R16, R18). -/
theorem State.dueSlot_firstDue (s : State) : s.slot.bind s.dueSlot = firstDue (slotTimers s) := by
  unfold slotTimers
  have c : ∀ x : Setup, cycleCt x = 25 * x.cyclePeriod := fun _ => rfl
  have d : ∀ x : Setup, slotCt x = 25 * x.cyclePeriod / 4 := fun _ => rfl
  cases hs : s.slot with
  | none => rfl
  | some h =>
    by_cases hk : h.head = 3 <;> cases hp : h.phase <;>
      simp [hp, hk, State.dueSlot, State.awaiting, State.peakNow, hs, dueIf, c, d]

/-- The events of the release scanner (R165, R166). -/
theorem State.dueScan_firstDue (s : State) : s.dueScan = firstDue (scanTimers s) := by
  unfold State.dueScan scanTimers
  cases s.pool.scan with
  | none => cases s.pool.releaseQueue <;> simp [dueIf]
  | some c => simp [dueIf]

/-- The end of the clearing, and the completions that a close waits for (R5, R6, R109, R134). -/
theorem State.dueCompletions_firstDue (s : State) : (s.dueInit <|> s.dueClose) = firstDue (completionTimers s) := by
  unfold State.dueInit State.dueClose completionTimers
  have f : ∀ i, s.flightFor i = stampedFor s i := by
    intro i
    unfold State.flightFor stampedFor
    cases s.inFlight <;> simp [Bool.beq_eq_decide_eq]
  cases h : s.tube.bind Tube.closing <;> simp [dueIf, State.initRunning, f, and_assoc]

/-- The eight data points, as the sum of their weights and as the bits of the byte (R57). -/
theorem frameOfPoints_data (parity : Bool) (bits : List Bool) :
    (frameOfPoints parity bits).data
      = (BitVec.ofBoolListLE (bits.take 8 ++ List.replicate (8 - bits.length) false)).setWidth 8 := by
  have key : ∀ b : Fin 8 → Bool,
      BitVec.ofNat 8 ((List.range 8).map (fun i => if (if h : i < 8 then b ⟨i, h⟩ else false) then 2 ^ i else 0)).sum
        = (BitVec.ofBoolListLE (List.ofFn b)).setWidth 8 := by
    decide +kernel
  have hl : bits.take 8 ++ List.replicate (8 - bits.length) false = List.ofFn (fun i : Fin 8 => bits.getD i.val false) := by
    apply List.ext_getElem
    · simp; omega
    · intro n h1 h2
      rw [List.getElem_ofFn]
      by_cases hn : n < bits.length
      · have h8 : n < 8 := by simpa using h2
        simp [hn, h8]
      · simp [List.getElem_append, hn]
  rw [hl, ← key]
  simp [frameOfPoints, List.range_succ]

/-- The timer events of the temperature link (R56, R57, R61, R65). -/
theorem State.dueLink_firstDue (s : State) : s.dueLink = firstDue (linkTimers s) := by
  have b : ∀ x : Setup, bitTime x = x.pyroDiv + 1 := fun _ => rfl
  have hb : ∀ x : Setup, halfBit x = (x.pyroDiv + 1) / 2 := fun _ => rfl
  have ms : Config.ctPerMs = 25000 := rfl
  have pts : ∀ x : Setup, framePoints x = 8 + (if x.pyroParity = .none then 0 else 1) + x.pyroStop := fun _ => rfl
  have fr : ∀ x : RxState, inFrame x = decide (x = .data ∨ x = .parity ∨ x = .stop) := by intro x; cases x <;> rfl
  have fp : frameOfPoints (decide (s.cfg.pyroParity ≠ .none)) s.link.rx.bits
      = { data := (BitVec.ofBoolListLE (s.link.rx.bits.take 8 ++ List.replicate (8 - s.link.rx.bits.length) false)).setWidth 8,
          parity := s.link.rx.bits.getD 8 false,
          stop1 := s.link.rx.bits.getD (if s.cfg.pyroParity = .none then 8 else 9) false,
          stop2 := s.link.rx.bits.getD ((if s.cfg.pyroParity = .none then 8 else 9) + 1) false } := by
    rw [← frameOfPoints_data (decide (s.cfg.pyroParity ≠ .none))]
    by_cases h : s.cfg.pyroParity = .none <;> simp [frameOfPoints, h]
  unfold State.dueLink linkTimers
  simp only [fp]
  cases s.link.gapAt <;> simp [dueIf, b, hb, ms, pts, fr, and_assoc]

end Sys2Proof.Machine
end

