-- ==== Sys2Proof/Tests/Slice0.lean ====
section
/-! SUPPORT. Tests of the model: commands that the well-formedness check refuses, the spec's worked examples, one step at a time, and,
for every statement of Certificates/Slice0/Obligations.lean with hypotheses, a state and operands that meet them. -/

set_option Elab.async false

namespace Sys2Proof.Tests

open Machine Safety

/-! ### States to test on -/

/-- The setup of the worked tube (12.1.1), with the debounce of 0 ms. -/
def setupA : Setup :=
  { cyclePeriod := 1000, quietGate := 50, confWin := 20, misfireLimit := 3, autoRestart := true,
    headAngle := #v[0, 16384, 32768, 49152], encFilter := .mhz10, encStep := 500, stallMin := 20, drMax := 50, debounce := 0,
    pyroDiv := 1301, pyroParity := .even, pyroStop := 1, pyroInverted := false, pyroMsbFirst := false, gapLimit := 4,
    staleMs := 100, poolLow := 40 }

/-- The setup block's words for `setupA`, by word offset (Table 11-3). -/
def setupWordsA : List Word :=
  [1000#16, 50#16, 20#16, 3#16, 1#16, 0#16, 16384#16, 32768#16, 49152#16, 1#16, 500#16, 20#16, 50#16, 0#16, 1301#16, 1#16, 1#16,
   0#16, 0#16, 4#16, 100#16, 40#16]

/-- The recipe of the worked tube (12.1.1, Table 5-5). -/
def recipeA : Recipe :=
  { tag := #v[0x4C4F#16, 0x5434#16, 0x3000#16, 0x0001#16], lotCount := 40, headMask := 15#4, threshold := 40, polarity := .pos,
    noiseLimit := 4, blanking := 100, window := 1000, holdoff := 80, captureMax := 4, peakDelay := 20, gmin := 3, gmax := 12,
    g0 := 7, agcOn := true, agcLo := 60, agcHi := 200, ctol := 8, fallbackT := 11500, coreOffset := 450,
    velocity := #v[5380, 5345, 5310, 5275, 5240, 5205, 5170, 5135, 5100, 5065, 5030, 4995, 4960, 4925, 4890, 4855, 4820],
    trim := 12, tnom := 11000, bandLo := 4000, bandHi := 4000, lSec := 100000, pitch := 180000, twist := .cw, occMin := 24,
    headSkip := 200000, tailSkip := 300000, maxLen := 20000000 }

/-- The recipe area's words for `recipeA`, by word offset from 16 (Table 11-5). -/
def recipeWordsA : List Word :=
  [0x4C4F#16, 0x5434#16, 0x3000#16, 0x0001#16, 40#16, 15#16, 40#16, 0#16, 4#16, 100#16, 1000#16, 80#16, 4#16, 20#16, 3#16, 12#16,
   7#16, 1#16, 60#16, 200#16, 8#16, 11500#16, 450#16, 5380#16, 5345#16, 5310#16, 5275#16, 5240#16, 5205#16, 5170#16, 5135#16,
   5100#16, 5065#16, 5030#16, 4995#16, 4960#16, 4925#16, 4890#16, 4855#16, 4820#16, 12#16, 11000#16, 4000#16, 4000#16, 34464#16,
   1#16, 48928#16, 2#16, 0#16, 24#16, 3392#16, 3#16, 37856#16, 4#16, 11520#16, 305#16]

/-- The amendment of the tests: threshold 50, gmin 5, gmax 9, g0 8, immediate. -/
def amendA : Amendment :=
  { threshold := 50, noiseLimit := 6, gmin := 5, gmax := 9, g0 := 8, agcOn := true, agcLo := 60, agcHi := 200, ctol := 8,
    fallbackT := 11400, coreOffset := -20, trim := -3, bandLo := 3000, bandHi := 3500, immediate := true }

/-- The amendment area's words for `amendA`, by word offset from 128 (Table 11-6). -/
def amendWordsA : List Word :=
  [50#16, 6#16, 5#16, 9#16, 8#16, 1#16, 60#16, 200#16, 8#16, 11400#16, 0xFFEC#16, 0xFFFD#16, 3000#16, 3500#16, 1#16]

/-- The snapshot of `recipeA`; its window fits (12.1.2). -/
def snapA : Snapshot := { recipe := recipeA, wEff := 1000, clamped := false }

/-- An ACTIVE slot with the order `snapA`. -/
def slotA : OrderSlot :=
  { state := .active, snapshot := some snapA, taken := 1, finalTube := false, amendment := none, cancelPending := false }

/-- A READY slot with the order `snapA`. -/
def slotReady : OrderSlot := { slotA with state := .ready, taken := 0 }

/-- HALTED after INIT, with the setup block loaded. -/
def halted : State := { State.reset with gauge := .halted, mem := memWriteList [] 0x0100 setupWordsA }

/-- ARMED under `setupA`, in the quiet gate of slot 0, firing PERMITTED, the link READY for a frame. -/
def armed : State :=
  { State.reset with
    gauge := .armed, setup := some setupA, slot := some { head := 0, startAt := 1000, phase := .quiet 0 }, firing := .permitted,
    pins := { permit := true, present := false, enc := false, pyro := true, echo := Vector.replicate 4 0 }, now := 2000,
    link := { Link.reset with rx := { Receiver.off with state := .ready } }, pool := { Pool.reset with lowArmed := true } }

/-- WAIT_CLEAR, the presence level high. -/
def waiting : State := { armed with gauge := .waitClear, presence := { level := true, run := 0 } }

/-- A NO_ORDER tube with record 0. -/
def tubeNo : Tube := newTube (some 0) none 1 .noOrder 0#16 none

/-- A tube with record 0 and the order of slot 0, section 0 OPEN. -/
def tubeA : Tube := newTube (some 0) (some 0) 1 .normal 0#16 (some (newAccum 0 0#16))

/-- MEASURING a NO_ORDER tube, TRACKING at z = 0. -/
def measNo : State :=
  { armed with
    gauge := .measuring, tube := some tubeNo, records := vset armed.records 0 .opened,
    tracker := { Tracker.reset with state := .tracking, stallLimit := some 20000 } }

/-- MEASURING the tube `tubeA` under the order of slot 0, every gain code 7, the held temperature 11,180 d°C LIVE. -/
def meas : State :=
  { measNo with
    tube := some tubeA, slots := vset armed.slots 0 slotA, current := some 0,
    chans := Vector.replicate 4 { gain := 7, dac := 40, polarity := .pos, cmpPos := false, cmpNeg := false },
    link := { measNo.link with tSurf := 11180, source := .live } }

/-- CLOSING of `tubeA` with z_tail = 50,000 and no shot in flight. -/
def closing : State :=
  { meas with gauge := .closing, tracker := Tracker.reset, tube := some { tubeA with zTail := some 50000 } }

/-- CLOSING of a NO_ORDER tube. -/
def closingNo : State :=
  { measNo with gauge := .closing, tracker := Tracker.reset, tube := some { tubeNo with zTail := some 50000 } }

/-- A shot of head 1 stamped for section 0, bound to `snapA`. -/
def shotA : Shot :=
  { stamp := { z := 500, secIdx := 0, angle := 16566, sector := 8, estimated := false, unmapped := false }, bound := snapA,
    clampDue := false, firedAt := 2000, confAt := 2000 }

/-- `meas` with the present slot of head `k` in the phase `p`. -/
def inPhase (k : Head) (p : Phase) : State := { meas with slot := some { head := k, startAt := 1950, phase := p } }

/-- A capture of the echoes `es`, with the sample `a` if there is one. -/
def cap (tu : Nat) (es : List Nat) (hold : Option Nat) (a : Option Byte) : Capture :=
  { tu := tu, echoes := es, holdOff := hold, peak := 0#8, sample := a }

/-- `tubeA` in section 5, with section 4 CLOSING and section 3 held. -/
def waitingTube : Tube :=
  { tubeA with
    opened := some (newAccum 5 0#16), closing := some (newAccum 4 0#16)
    holdback := [completeAccum 100000 24 (newAccum 3 0#16) 400000 0#16] }

/-- The state after a command. -/
def after (i : Instr) (s : State) : State :=
  match exec i s with
  | .next t => t
  | .fault _ => s
  | .refused _ => s

/-! ### Commands that the well-formedness check refuses -/

theorem test_wf_refuses_write_to_slot_request : wellFormed (.hostMemoryWrite 0x0201#16 7#16) = false := by decide +kernel
theorem test_wf_refuses_release_as_plain_write : wellFormed (.hostMemoryWrite 0x0A01#16 4#16) = false := by decide +kernel
theorem test_wf_refuses_post_as_bad_request : wellFormed (.badRequest 0 1#16) = false := by decide +kernel
theorem test_wf_refuses_release_as_bad_request : wellFormed (.recordBadRequest 0 4#16) = false := by decide +kernel
theorem test_wf_refuses_none_as_bad_request : wellFormed (.recordBadRequest 0 0#16) = false := by decide +kernel
theorem test_wf_refuses_soft_reset_as_ignored : wellFormed (.ignoredRegisterWrite .control 8#16) = false := by decide +kernel
theorem test_wf_refuses_long_crossing : wellFormed (.crossing 0 .pos 262144) = false := by decide +kernel
theorem test_wf_refuses_long_hold_off : wellFormed (.holdOffEnd 262144) = false := by decide +kernel
theorem test_wf_refuses_long_period : wellFormed (.realStep 16777216) = false := by decide +kernel
theorem test_wf_admits_boundary_values :
    (wellFormed (.crossing 0 .pos 262143) && wellFormed (.hostMemoryWrite 0x0A01#16 0#16) && wellFormed (.realStep 16777215)) = true := by
  decide +kernel
/-- No row of the table has bits, so no word spells a command. -/
theorem test_no_word_spells_a_command : decodeTableWord 16 0 = none ∧ State.reset.withFetchWord 16 0 = State.reset := ⟨rfl, rfl⟩

/-! ### Resets, RUN and STOP (Table 1-6, 12.1.1) -/

theorem test_fullReset_drops_order : (after .fullReset meas).current = none ∧ (after .fullReset meas).readMem 0x0100#16 = 0#16 := by
  decide +kernel
theorem test_resetRelease_begins_full_init :
    (after .resetRelease { State.reset with resetActive := true, clearing := { soft := true, next := 9 } }).clearing
      = { soft := false, next := 0 } := by decide +kernel
/-- After INIT the free-block count reads 952 and the current-order word 0xFFFF (Table 1-6). -/
theorem test_initComplete_status_words :
    memRead (after .initComplete State.reset).mem 0x05 = 952#16 ∧ memRead (after .initComplete State.reset).mem 0x06 = 0xFFFF#16 := by
  decide +kernel
/-- The setup block survives a soft reset (1.7). -/
theorem test_softReset_keeps_setup :
    memRead (after .initComplete (after (.softReset 0#16) halted)).mem 0x0100 = 1000#16 := by decide +kernel
/-- A RUN on a setup block of zeros names cycle_period (Table 1-6). -/
theorem test_run_on_zero_setup :
    memRead (after (.run 0#16) { halted with mem := [] }).mem 0x03 = 2#16
      ∧ (after (.run 0#16) { halted with mem := [] }).attnCause = 0x80#8 := by decide +kernel
/-- With PRESENT high a valid RUN leads to WAIT_CLEAR (Table 1-6). -/
theorem test_run_with_present_high :
    (after (.run 0#16) { halted with pins := { halted.pins with present := true } }).gauge = .waitClear := by decide +kernel
/-- STOP with RUN in one write: neither is carried out (1.6). -/
theorem test_stop_with_run_conflicts :
    memRead (after (.stop 3#16) meas).mem 0x03 = 4#16 ∧ (after (.stop 3#16) meas).gauge = .measuring := by decide +kernel
/-- STOP while a tube is measured leads to HALTED, the record COMPLETE (1.6). -/
theorem test_stop_in_measuring :
    (after (.stop 0#16) measNo).gauge = .halted ∧ memRead (after (.stop 0#16) measNo).mem 0x0A00 = 2#16 := by decide +kernel
theorem test_resume_sets_mark : (after (.resume 0#16) { armed with firing := .suspended }).resumePending = true := by decide +kernel
theorem test_clear_returns_head :
    (after (.clearHk 1 0#16) { armed with heads := vset armed.heads 1 { HeadUnit.reset with state := .fault, misfires := 3 } }).heads
      = armed.heads := by decide +kernel

/-! ### Port, orders and records (Tables 2-4, 9-5, 10-4, 12-1) -/

theorem test_attnCauseWrite_clears_ones :
    (after (.attnCauseWrite 0x0004#16) { armed with attnCause := 0x85#8 }).attnCause = 0x81#8 := by decide +kernel
theorem test_attnMaskWrite_replaces : (after (.attnMaskWrite 0xFF30#16) armed).attnMask = 0x30#8 := by decide +kernel
theorem test_ignoredRegisterWrite_ident : (after (.ignoredRegisterWrite .ident 0xFFFF#16) armed).readReg .ident = 0x0641#16 := by
  decide +kernel
theorem test_hostMemoryWrite_top_word : memRead (after (.hostMemoryWrite 0xFFFF#16 9#16) armed).mem 0xFFFF = 9#16 := by decide +kernel
/-- `armed` with the recipe of the worked tube in slot 0. -/
def loaded : State := { armed with mem := memWriteList [] 0x0210 recipeWordsA }
/-- The POST of the worked recipe (Table 12-1, 12.1.2). -/
theorem test_post_takes_worked_recipe :
    (after (.post 0) loaded).slots[0] = { slotReady with taken := 0 } ∧ (after (.post 0) loaded).queue = [0]
      ∧ memRead (after (.post 0) loaded).mem 0x0202 = 1#16 := by decide +kernel
/-- The first bad field is named: the head mask 0, at offset 21 (R142). -/
theorem test_post_names_bad_field :
    memRead (after (.post 0) { loaded with mem := memWrite loaded.mem 0x0215#16 0#16 }).mem 0x0203 = 21#16 := by decide +kernel
/-- The window fit of Table 2-4. -/
theorem test_window_fit_examples :
    fitWindow { setupA with cyclePeriod := 250, quietGate := 100, confWin := 40 } 300 1200 = 1122
      ∧ fitOk (some setupA) 600 1100 = false
      ∧ fitOk (some { setupA with cyclePeriod := 250, quietGate := 250, confWin := 100 }) 1200 400 = false
      ∧ fitOk (some { setupA with cyclePeriod := 250, quietGate := 100, confWin := 40 }) 600 1000 = true := by decide +kernel
/-- CANCEL of a slot that waits in the queue (R149). -/
theorem test_cancel_ready :
    (after (.cancel 2) { armed with slots := vset (vset armed.slots 2 slotReady) 1 slotReady, queue := [2, 1] }).queue = [1] := by
  decide +kernel
/-- `meas` with the amendment of the tests in slot 0. -/
def amendable : State := { meas with mem := memWriteList [] 0x0280 amendWordsA }
/-- A valid AMEND in ACTIVE stays pending, unanswered (Table 9-5). -/
theorem test_amend_active_is_pending :
    (after (.amend 0) amendable).slots[0].amendment = some amendA ∧ memRead (after (.amend 0) amendable).mem 0x0201 = 3#16
      ∧ memRead (after (.amend 0) amendable).mem 0x0202 = 0#16 := by decide +kernel
theorem test_withdrawal_is_answered :
    memRead (after (.withdrawal 0) { meas with slots := vset meas.slots 0 { slotA with amendment := some amendA } }).mem 0x0202
      = 5#16 := by decide +kernel
theorem test_badRequest_is_answered : memRead (after (.badRequest 3 9#16) armed).mem 0x0802 = 4#16 := by decide +kernel
/-- The pool of Table 10-4: blocks 17 to 19 free, block 5 owned by record 4, block 17's neighbours by record 6. -/
def pool104 : Pool :=
  { free := [17, 18, 19]
    owner := Vector.ofFn (fun b : BlockNo =>
      if b = 5 ∨ b = 9 ∨ b = 30 then some 4 else if b = 17 ∨ b = 18 ∨ b = 19 then none else some 6)
    lowArmed := false, releaseQueue := [], scan := some { record := 4, next := 5, startAt := 0 } }
/-- `armed` under the setup and pool of Table 10-4. -/
def scanning : State :=
  { armed with
    setup := some { setupA with poolLow := 4 }, pool := pool104
    records := vset (vset armed.records 4 .releasing) 6 .opened }
/-- RELEASE of a COMPLETE record with the scanner idle (Table 10-4, time 0). -/
theorem test_release_begins_scan :
    (after (.release 4) { scanning with records := vset scanning.records 4 .complete, pool := { pool104 with scan := none } }).pool.scan
      = some { record := 4, next := 0, startAt := 2000 } := by decide +kernel
theorem test_recordBadRequest_is_answered : memRead (after (.recordBadRequest 15 1#16) armed).mem 0x1182 = 4#16 := by decide +kernel
theorem test_scanStart_takes_front :
    (after .scanStart { scanning with pool := { pool104 with scan := none, releaseQueue := [2, 4] } }).pool.releaseQueue = [4] := by
  decide +kernel
/-- Block 5 is examined: it is appended, the count is 4 and the mark armed (Table 10-4, time 5). -/
theorem test_scanStep_returns_block :
    (after .scanStep scanning).pool.free = [17, 18, 19, 5] ∧ (after .scanStep scanning).pool.lowArmed = true
      ∧ memRead (after .scanStep scanning).mem 0x05 = 4#16 := by decide +kernel
/-- The scan ends: answer OK, FREE, REQUEST (Table 10-4, time 952). -/
theorem test_scanEnd_frees_record :
    (after .scanEnd { scanning with pool := { pool104 with scan := some { record := 4, next := 952, startAt := 0 } } }).records[4] = .free
      ∧ (after .scanEnd { scanning with pool := { pool104 with scan := some { record := 4, next := 952, startAt := 0 } } }).attnCause
        = 0x04#8 := by decide +kernel

/-! ### The shot cycle and PERMIT (Table 2-6) -/

/-- Auto-restart at a cycle start (Table 2-6, 25,000 ct). -/
theorem test_cycleStart_restarts_firing :
    (after (.cycleStart .cutFirst 0#8) { inPhase 3 .idle with firing := .suspended }).firing = .permitted := by decide +kernel
/-- Immediate amendments clamp the gains at a cycle start (Table 9-5). -/
theorem test_cycleStart_applies_amendment :
    (after (.cycleStart .cutFirst 0#8)
      { inPhase 3 .idle with
        slots := vset meas.slots 0 { slotA with amendment := some { amendA with gmin := 8 } } }).chans[2].gain = 8 := by
  decide +kernel
theorem test_slotStart_opens_next_head :
    (after (.slotStart 0#8) (inPhase 1 .idle)).slot = some { head := 2, startAt := 2000, phase := .quiet 0 } := by decide +kernel
/-- A count of 1 with a limit of 4 fires; a count of 5 is NOISY (Table 2-6, R20). -/
theorem test_fireDecision_fires_within_limit :
    (after .fireDecision (inPhase 0 (.quiet 1))).heads[0].fires = 1 ∧ (after .fireDecision (inPhase 0 (.quiet 5))).heads[0].fires = 0 := by
  decide +kernel
/-- The worked placement: angle 7099 and sector 3 under CW, 25,669 and sector 12 under CCW (6.6, Table 6-4). -/
theorem test_fireDecision_worked_placement :
    ({ meas with tracker := { meas.tracker with z := 1234500 } } : State).stampFor 1 snapA
        = { z := 1234500, secIdx := 12, angle := 7099, sector := 3, estimated := false, unmapped := false }
      ∧ stampAngle { recipeA with twist := .ccw } 16384 1234500 = 25669 ∧ stampAngle recipeA 49152 1234500 = 39867 := by
  decide +kernel
theorem test_confEdge_confirms :
    (after (.confEdge 1) (inPhase 1 (.awaitConf shotA))).channelPhase 1 = .blanking shotA := by decide +kernel
theorem test_confEdge_stray_saturates :
    (after (.confEdge 2) { armed with heads := vset armed.heads 2 { HeadUnit.reset with stray := 65535 } }).heads[2].stray = 65535 := by
  decide +kernel
/-- The second misfire leaves head 1 ON, the third reaches misfire_limit (Table 2-6). -/
theorem test_misfire_counts_to_fault :
    (after .misfire { inPhase 1 (.awaitConf shotA) with
        heads := vset meas.heads 1 { HeadUnit.reset with misfires := 1 } }).heads[1] = { HeadUnit.reset with misfires := 2 }
      ∧ (after .misfire { inPhase 1 (.awaitConf shotA) with
        heads := vset meas.heads 1 { HeadUnit.reset with misfires := 2 } }).heads[1].state = .fault := by decide +kernel
/-- PERMIT lost in an open window: ABORTED, SUSPENDED, gain untouched (Tables 2-6, 3-6). -/
theorem test_permitLoss_aborts :
    (after .permitLoss (inPhase 1 (.opened shotA (cap 40000 [20000, 37600] none (some 212#8))))).chans[1].gain = 7
      ∧ ((after .permitLoss (inPhase 1 (.opened shotA (cap 40000 [20000, 37600] none (some 212#8))))).tube.map
        (fun x => x.totals.aborted)) = some 1 := by decide +kernel
theorem test_permitActive_leaves_suspended :
    (after .permitActive { armed with firing := .suspended, pins := { armed.pins with permit := false } }).firing = .suspended := by
  decide +kernel

/-! ### The echo channel (Tables 3-5, 3-6) -/

theorem test_endOfBlanking_opens_at_16000 :
    (after .endOfBlanking (inPhase 1 (.blanking shotA))).channelPhase 1 = .opened shotA (cap 16000 [] none none) := by decide +kernel
/-- The last crossing fills the list: the window closes, gain 6, thickness 11,000 (Table 3-5, 5.9). -/
theorem test_crossing_completes_worked_shot :
    (after (.crossing 1 .pos 72790)
        (inPhase 1 (.opened shotA (cap 55210 [20000, 37600, 55210] (some 68010) (some 212#8))))).chans[1].gain = 6
      ∧ (after (.crossing 1 .pos 72790)
        (inPhase 1 (.opened shotA (cap 55210 [20000, 37600, 55210] (some 68010) (some 212#8))))).lastValid[1] = 11000 := by
  decide +kernel
/-- A crossing in the hold-off of the first capture is ignored (Table 3-5, 24,100 tu). -/
theorem test_crossing_in_hold_off :
    (after (.crossing 1 .pos 24100) (inPhase 1 (.opened shotA (cap 23200 [20000] (some 32800) (some 212#8))))).channelPhase 1
      = .opened shotA (cap 24100 [20000] (some 32800) (some 212#8)) := by decide +kernel
theorem test_holdOffEnd_at_its_time :
    (after (.holdOffEnd 32800) (inPhase 1 (.opened shotA (cap 24100 [20000] (some 32800) none)))).channelPhase 1
      = .opened shotA (cap 32800 [20000] none none) := by decide +kernel
theorem test_amplitudeSample_takes_212 :
    (after (.amplitudeSample 212#8) (inPhase 1 (.opened shotA (cap 23200 [20000] (some 32800) none)))).channelPhase 1
      = .opened shotA (cap 23200 [20000] (some 32800) (some 212#8)) := by decide +kernel
/-- A window end without an echo raises the gain; with one echo at 45 too; at 150 it holds (Table 3-6). -/
theorem test_windowEnd_gain_steps :
    (after (.windowEnd 0#8) (inPhase 1 (.opened shotA (cap 16000 [] none none)))).chans[1].gain = 8
      ∧ (after (.windowEnd 0#8) (inPhase 1 (.opened shotA (cap 23200 [20000] none (some 45#8))))).chans[1].gain = 8
      ∧ (after (.windowEnd 0#8) (inPhase 1 (.opened shotA (cap 40000 [20000, 37600] none (some 150#8))))).chans[1].gain = 7 := by
  decide +kernel

/-- A threshold load below a standing signal is a crossing in the quiet gate that runs, and none where the gate has just begun (R42 to
R44). -/
theorem test_tick_settles_after_threshold_load :
    (let s : State := { armed with
        now := 1040, pins := { armed.pins with echo := vset armed.pins.echo 0 60 }, link := Link.reset
        chans := vset armed.chans 0 { Channel.reset with dac := 40 } }
     (s.tick.pending = [.crossing 0 .pos 0] ∧ s.tick.chans[(0 : Head)].cmpPos = true)
       ∧ ({ s with now := 1000 } : State).tick.pending = []) := by decide +kernel
/-- A signal that stands at 75 from before the window on is the peak of the shot; one after the sample instant is not (R49). -/
theorem test_tick_follows_standing_level :
    (let s : State := { inPhase 1 (.opened { shotA with confAt := 2000 } (cap 0 [] none none)) with
        pins := { armed.pins with echo := vset armed.pins.echo 1 75 } }
     s.tick.peakNow = 75#8
       ∧ ({ s with slot := some (HeadSlot.mk 1 1950 (Phase.opened { shotA with confAt := 1980 } (cap 0 [0] none none))) } :
          State).tick.peakNow = 0#8) := by decide +kernel

/-! ### Thickness (5.9, Tables 5-2, 5-7) -/

/-- Cases A, B and C of Table 5-7: 10,955; 10,633; 17,271 out of band. -/
theorem test_thickness_cases :
    (confirmedRecord 1 shotA (effTemp .stale 11180 recipeA)
        { echoes := [20000, 37600, 55210, 79000, 96600], cut := false }).t = 10955
      ∧ (confirmedRecord 1 shotA (effTemp .live 13800 recipeA) { echoes := [20000, 37600, 55210, 72790], cut := false }).t = 10633
      ∧ (confirmedRecord 1 shotA (effTemp .live 5000 recipeA) { echoes := [20000, 45600, 71210], cut := false }).outcome = .outOfBand
      ∧ thickness 5396 51210 3 = 17271 := by decide +kernel
/-- The effective temperatures and velocities of Tables 5-6 and 5-7. -/
theorem test_velocity_cases :
    velocityOfTemp recipeA 11630 = 4986 ∧ trimVelocity 4986 12 = 5001 ∧ velocityOfTemp recipeA 11950 = 4963
      ∧ velocityOfTemp recipeA 14000 = 4820 ∧ effTemp .live 13800 recipeA = { tEff := 14000, fallback := false, clamped := true } := by
  decide +kernel

/-! ### Temperature link (4.7) -/

/-- `armed` in a frame with the telegram bytes `bs` taken. -/
def inTelegram (bs : List Byte) : State :=
  { armed with
    link := { armed.link with rx := { armed.link.rx with state := .stop }, asm := .collecting bs, gapAt := some 1500, source := .live } }
/-- The telegram 5C 01 2B AC CC is accepted at 11,180 d°C; with 0x5C as a data byte, 5C 01 2E 5C 19 at 11,868 (4.7). -/
theorem test_pyroFrame_accepts_telegram :
    (after (.pyroFrame { data := 0xCC#8, parity := false, stop1 := true, stop2 := true })
        (inTelegram [0x01#8, 0x2B#8, 0xAC#8])).link.tSurf = 11180
      ∧ (after (.pyroFrame { data := 0x19#8, parity := true, stop1 := true, stop2 := true })
        (inTelegram [0x01#8, 0x2E#8, 0x5C#8])).link.tSurf = 11868 := by decide +kernel
/-- The telegram 5C 01 2B AD CA is a checksum error, 5C 03 4E 21 32 one rejection (4.7). -/
theorem test_pyroFrame_refuses_telegram :
    (after (.pyroFrame { data := 0xCA#8, parity := false, stop1 := true, stop2 := true })
        (inTelegram [0x01#8, 0x2B#8, 0xAD#8])).link.counters.checksum = 1
      ∧ (after (.pyroFrame { data := 0x32#8, parity := true, stop1 := true, stop2 := true })
        (inTelegram [0x03#8, 0x4E#8, 0x21#8])).link.counters.rejected = 1 := by decide +kernel
theorem test_gapTimerExpiry_truncates : (after .gapTimerExpiry (inTelegram [0x01#8, 0x2B#8])).link.counters.truncated = 1 := by
  decide +kernel
/-- The age reaches stale_ms = 100: STALE (Table 4-7, 106.0). -/
theorem test_ageIncrease_to_stale :
    (after .ageIncrease { meas with link := { meas.link with age := 99 } }).link.source = .stale
      ∧ (after .ageIncrease { meas with link := { meas.link with age := 98 } }).link.source = .live := by decide +kernel
theorem test_lineSettled_is_ready : (after .lineSettled { armed with link := { armed.link with rx := { Receiver.off with state := .settle } } }).link.rx.state
    = .ready := by decide +kernel
theorem test_startEdge_sets_t0 : (after .startEdge armed).link.rx.t0 = 2000 := by decide +kernel
theorem test_midStartCheck_stops_gap_timer :
    (after (.midStartCheck false) { inTelegram [] with
      link := { (inTelegram []).link with rx := { armed.link.rx with state := .start } } }).link.gapAt = none := by decide +kernel

/-! ### Position (6.7, 7.8) -/

/-- The state of 6.7 before its stall: enc_step 1000, P_last 2000, z 2,395,000. -/
def slipping : State :=
  { measNo with
    setup := some { setupA with encStep := 1000 }
    tracker := { Tracker.reset with state := .tracking, z := 2395000, pLast := some 2000, fresh := true, stallLimit := some 20000 } }
/-- A stored period of 2000 µs with steps of 1000 µm reads 500 mm/s; the real step that ends an episode stores no period
(Table 6-6, 27,300). -/
theorem test_realStep_periods :
    memRead (after (.realStep 2000) { slipping with tracker := { slipping.tracker with pLast := none } }).mem 0x18 = 500#16
      ∧ (after (.realStep 2000) slipping).tracker.z = 2396000
      ∧ (after (.realStep 7300) { slipping with
          tracker := { slipping.tracker with state := .deadReckoning, z := 2408000, episode := 13 } }).tracker
        = { slipping.tracker with z := 2409000, stallAt := 2000, stepAt := 2000 } := by decide +kernel
/-- The catch-up of 10 steps, and of 8 with dr_max = 8, which ends in LOST (6.7). -/
theorem test_stall_catches_up :
    (after .stall slipping).tracker.z = 2405000 ∧ (after .stall slipping).tracker.episode = 10
      ∧ (after .stall { slipping with setup := some { setupA with encStep := 1000, drMax := 8 } }).tracker.state = .lost
      ∧ (after .stall { slipping with setup := some { setupA with encStep := 1000, drMax := 8 } }).tracker.z = 2403000 := by
  decide +kernel
/-- The catch-up across a waiting close: sections 119, 120 and 121 in one change, the first LATE (Table 7-7). -/
theorem test_stall_across_waiting_close :
    (after .stall { inPhase 2 (.opened { shotA with stamp := { shotA.stamp with secIdx := 119 } } (cap 16000 [] none none)) with
        setup := some { setupA with encStep := 5000 }
        slots := vset meas.slots 0 { slotA with snapshot := some { snapA with recipe := { recipeA with lSec := 20000 } } }
        tube := some { tubeA with opened := some (newAccum 119 0#16) }
        tracker := slipping.tracker }).tube.map (fun x => (x.opened.map Accum.index, x.holdback.map (fun h => (h.index, h.flags))))
      = some (some 122, [(119, 0x0051#16), (120, 0x0041#16), (121, 0x0041#16)]) := by decide +kernel
/-- With dr_max = 12 the twelfth step of the episode ends in LOST at 2,407,000 (6.7). -/
theorem test_syntheticStep_reaches_limit :
    (after .syntheticStep { slipping with
        setup := some { setupA with encStep := 1000, drMax := 12 }
        tracker := { slipping.tracker with state := .deadReckoning, z := 2406000, episode := 11 } }).tracker.state = .lost
      ∧ (after .syntheticStep { slipping with
        setup := some { setupA with encStep := 1000, drMax := 12 }
        tracker := { slipping.tracker with state := .deadReckoning, z := 2406000, episode := 11 } }).tracker.z = 2407000 := by
  decide +kernel

/-! ### Tubes and sections (12.1.3, 8.11, 7.7) -/

/-- The head event of the worked tube (12.1.3). -/
theorem test_headEvent_worked_tube :
    (let t := after .headEvent { armed with slots := vset armed.slots 0 slotReady, queue := [0] }
     t.serial = 1 ∧ t.nextSearch = 1 ∧ t.current = some 0 ∧ t.slots[0].taken = 1 ∧ t.chans[3].gain = 7
       ∧ memRead t.mem 0x0A00 = 1#16 ∧ memRead t.mem 0x0A0A = 0xFFFF#16 ∧ memRead t.mem 0x07 = 0xFFFF#16) := by decide +kernel
/-- With no FREE record the tube is missed (R123). -/
theorem test_headEvent_missed_tube :
    (after .headEvent { armed with records := Vector.replicate 16 .complete }).tubesMissed = 1 := by decide +kernel
/-- A tail event with a shot in flight waits in CLOSING; without one the close completes (R127, R134). -/
theorem test_tailEvent_waits_for_shot :
    (after .tailEvent (inPhase 1 (.blanking shotA))).gauge = .closing ∧ (after .tailEvent measNo).gauge = .armed := by decide +kernel
/-- WAIT_CLEAR leads to ARMED (Table 1-6). -/
theorem test_presenceClear_arms : (after .presenceClear waiting).gauge = .armed := by decide +kernel
theorem test_presenceRecorded_in_closing : (after (.presenceRecorded true) closing).presence.level = true := by decide +kernel
/-- A CLOSING section whose shot has ended completes into the queue (R109). -/
theorem test_closingSection_completes :
    ((after .closingSectionCompletion { meas with
        tube := some { tubeA with closing := some (newAccum 0 0#16), opened := some (newAccum 1 0#16) } }).tube.map
      (fun x => x.holdback.map SectionResult.index)) = some [0] := by decide +kernel
/-- The close writes the partial section 0 with EXCLUDED_HEAD and EXCLUDED_TAIL, NO_DATA, PARTIAL into block 0 (R112, R129, R135). -/
theorem test_closeCompletion_writes_partial :
    (let t := after .closeCompletion closing
     memRead t.mem 0x1204 = 0x0360#16 ∧ memRead t.mem 0x0A0A = 0#16 ∧ memRead t.mem 0x0A0B = 1#16 ∧ memRead t.mem 0x0A00 = 2#16
       ∧ t.gauge = .armed) := by decide +kernel
/-- The record of a NO_ORDER tube that dead-reckoned 27 steps: its totals are 0 (R125). -/
theorem test_closeCompletion_no_order_totals :
    (let t := after .closeCompletion { closingNo with
       tube := some { tubeNo with zTail := some 50000, totals := { noTotals with deadReckoned := 27 } } }
     (memRead t.mem 0x0A26 = 0#16 ∧ memRead t.mem 0x0A10 = 50000#16) ∧ memRead t.mem 0x0A00 = 2#16) := by decide +kernel
/-- Section 0 of the tube of Table 8-6 is released by the crossing of 400,000, and not by the step before it. -/
theorem test_realStep_releases_section :
    (let h := markHead 100000 200000 (completeAccum 100000 24 (newAccum 0 0#16) 100000 0#16)
     let s := fun z : Nat => { meas with
       tube := some { tubeA with opened := some (newAccum 3 0#16), holdback := [h] }, tracker := { meas.tracker with z := z } }
     ((after (.realStep 2000) (s 399499)).tube.map (fun x => x.written)) = some 0
       ∧ ((after (.realStep 2000) (s 399500)).tube.map (fun x => x.written)) = some 1) := by decide +kernel
/-- The worked section (7.7): three shots in every sector, sector 0 at 10,320 and sector 16 at 9680. -/
def section77 : Accum :=
  { newAccum 12 0#16 with
    counts := Vector.replicate 32 3
    sums := Vector.ofFn (fun i : Fin 32 => if i = 0 then 30960 else if i = 16 then 29040 else 30000)
    n := 96, sumT := 960000, sumT2 := 9600614400, range := some (9680, 10320), sumTEff := 96 * 11630 }
/-- The statistics of the worked section (Table 7-5): mean 10,000, sd 80, thin sector 16, E = 4. -/
theorem test_section_statistics :
    (let x := completeAccum 100000 24 section77 1300000 0#16
     x.mean = 10000 ∧ x.sd = 80 ∧ x.tMean = 11630 ∧ x.occupied = 32 ∧ x.thin = some 16 ∧ x.ecc = 4 ∧ x.flags = 0#16) := by
  decide +kernel
/-- The same wall with eight occupied sectors (Table 7-6): E = 20, or 0 with LOW_COVERAGE under occ_min = 24. -/
theorem test_section_partial_coverage :
    (let a : Accum := { section77 with
       counts := Vector.ofFn (fun i : Fin 32 => if i.val % 4 = 0 then 1 else 0)
       sums := Vector.ofFn (fun i : Fin 32 => if i = 0 then 10400 else if i = 16 then 9600 else if i.val % 4 = 0 then 10000 else 0)
       n := 8, sumT := 80000, sumTEff := 8 * 11630 }
     (completeAccum 100000 8 a 1300000 0#16).ecc = 20 ∧ (completeAccum 100000 24 a 1300000 0#16).ecc = 0
       ∧ (completeAccum 100000 24 a 1300000 0#16).flags = 0x0080#16) := by decide +kernel
/-- The weights of the circle cancel (7.7). -/
theorem test_weights_sum_to_zero : (weights.map Prod.fst).sum = 0 ∧ (weights.map Prod.snd).sum = 0 ∧ weights.length = 32 := by
  decide +kernel
/-- The holdback bound leaves room in the queue (R130, R131). -/
theorem test_holdback_bound_is_below_capacity : 22 < Config.holdbackCapacity := by decide +kernel

/-! ### Time -/

/-- The INIT clearing takes 65,536 ct and then completes (R5, R6; log 14). -/
theorem test_init_completion_is_due :
    ({ State.reset with clearing := { soft := false, next := 65536 } } : State).due = some .initComplete
      ∧ State.reset.due = none ∧ State.reset.tick.clearing.next = 1 := by decide +kernel

/-! ### Witnesses: states and operands that meet the hypotheses of the statements

Each theorem is named for the statement and, where it has several, the clause. -/

theorem witness_IdleStepTakesDueEventOrTime :
    (State.reset.pending = [] ∧ State.reset.due = none ∧ ∀ e ∈ timers State.reset, e.1 = false)
      ∧ (let s : State := { State.reset with clearing := { soft := false, next := 65536 } }
         s.due = some .initComplete ∧ (timers s).find? Prod.fst = some (true, .initComplete)) := by decide +kernel

/-- The fire decision falls q ct after the slot start and not one ct before; slot 1 begins at a quarter of the cycle (2.10). -/
theorem test_timers_slot :
    (let at0 := fun n : Nat => ((slotTimers { armed with now := n }).find? Prod.fst).map Prod.snd
     let q := 1000 + armed.cfg.quietGate
     at0 (q - 1) = none ∧ at0 q = some .fireDecision
       ∧ ((slotTimers { armed with now := armed.cycleAt + 25 * armed.cfg.cyclePeriod / 4 }).find?
            (fun e => e.1 && e.2 != .fireDecision)).map Prod.snd = some (.slotStart 0#8)) := by decide +kernel

/-- A ct in a quiet gate that was running, with a standing signal and none, with a change of a signal and without; and a ct of INIT. -/
theorem witness_SampledInputsAreFiltered :
    (let q : EchoPoint := { head := 0, offset := 80, level := 300 }
     ∀ x ∈ [PinSample.mk true true true [], PinSample.mk true true true [q]],
      let s : State := { armed with inputs := [x], now := 1040 }
      s.pending = [] ∧ s.due = none ∧ runs s.gauge = true
        ∧ x = s.inputs.headD { present := s.pins.present, enc := s.pins.enc, pyro := s.pins.pyro, echo := [] }
        ∧ (x.echo = [] ∨ x.echo = [q]) ∧ ∀ k, heard s k s.pins.echo[k] = s.chans[k])
      ∧ (halted.pending = [] ∧ halted.due = none ∧ halted.gauge = .halted)
      ∧ (State.reset.pending = [] ∧ State.reset.due = none ∧ State.reset.gauge = .init ∧ State.reset.resetActive = false) := by
  decide +kernel

theorem witness_ResetPinAbandonsAndBeginsFullInit : ({ meas with resetActive := true, gauge := .init } : State).resetActive = true := rfl

theorem witness_SoftResetBeginsSoftInit : meas.resetActive = false ∧ State.reset.resetActive = false := ⟨rfl, rfl⟩

theorem witness_InitCompletesInHalted :
    (State.reset.gauge = .init ∧ State.reset.resetActive = false)
      ∧ (let s : State := { halted with gauge := .init, clearing := { soft := true, next := 0x0100 } }
         s.gauge = .init ∧ s.resetActive = false ∧ InitOk s)
      ∧ InitOk State.reset ∧ step State.reset = .next State.reset.tick := by
  refine ⟨by decide +kernel, ⟨rfl, rfl, ⟨fun _ => rfl, ?_⟩⟩, ⟨fun _ => rfl, ?_⟩, rfl⟩
  · intro _ _ a _ ha _
    have key : ∀ b < 0x0100, memRead halted.mem b = 0#16 := by decide +kernel
    exact key a ha
  · intro _ _ a _ _ _
    rfl

theorem witness_ControlWriteTakesItsBitsInOrder :
    PortOpen meas ∧ (0x0001#16 : Word) = 0#16 ||| 0x0001#16 ∧ (0x00F7#16 : Word) = 0x00F5#16 ||| 0x0002#16
      ∧ (0x0004#16 : Word) = 0x0004#16 ||| 0x0004#16 ∧ (0x000F#16 : Word) = 0x0007#16 ||| 0x0008#16
      ∧ (0x0080#16 : Word) = 0#16 ||| BitVec.ofNat 16 (2 ^ (4 + (3 : Head).val)) :=
  ⟨⟨rfl, by decide +kernel⟩, by decide +kernel⟩

theorem witness_RunIsIgnoredOrRefused_ignored :
    (armed.gauge = .armed ∧ meas.gauge = .measuring ∧ closing.gauge = .closing ∧ waiting.gauge = .waitClear)
      ∧ armed.resetActive = false ∧ meas.resetActive = false ∧ closing.resetActive = false ∧ waiting.resetActive = false := by
  decide +kernel

/-- The first field, `stall_min` as in Table 1-6, and the last field. -/
theorem witness_RunIsIgnoredOrRefused_refused :
    (∀ x ∈ ([(0, { halted with mem := [] }), (11, { halted with mem := memWrite halted.mem 0x010B#16 0#16 }),
        (21, { halted with mem := memWrite halted.mem 0x0115#16 952#16 })] : List (Nat × State)),
      x.2.resetActive = false ∧ x.2.gauge = .halted
        ∧ (∃ r, setupRanges[x.1]? = some r
          ∧ ¬(r.1 ≤ (memRead x.2.mem (0x0100 + x.1)).toNat ∧ (memRead x.2.mem (0x0100 + x.1)).toNat ≤ r.2))
        ∧ ∀ i < x.1, ∀ r, setupRanges[i]? = some r →
          r.1 ≤ (memRead x.2.mem (0x0100 + i)).toNat ∧ (memRead x.2.mem (0x0100 + i)).toNat ≤ r.2) := by
  have key : ∀ x ∈ ([(0, { halted with mem := [] }), (11, { halted with mem := memWrite halted.mem 0x010B#16 0#16 }),
        (21, { halted with mem := memWrite halted.mem 0x0115#16 952#16 })] : List (Nat × State)),
      x.2.resetActive = false ∧ x.2.gauge = .halted ∧ setupError x.2.mem = some x.1 := by decide +kernel
  intro x hx
  obtain ⟨h1, h2, h3⟩ := key x hx
  obtain ⟨h4, h5⟩ := (setupError_some_iff x.2.mem x.1).1 h3
  exact ⟨h1, h2, h4, h5⟩

theorem witness_RunWithValidSetupStarts :
    halted.resetActive = false ∧ halted.gauge = .halted ∧ halted.dueAmendment = none
      ∧ (let s : State := { halted with slots := vset halted.slots 0 { slotA with amendment := some amendA }, current := some 0 }
         s.gauge = .halted ∧ s.dueAmendment = some (0, amendA) ∧ s.orderInUse ≠ some 0)
      ∧ ∀ i r, setupRanges[i]? = some r →
        r.1 ≤ (memRead halted.mem (0x0100 + i)).toNat ∧ (memRead halted.mem (0x0100 + i)).toNat ≤ r.2 :=
  ⟨rfl, rfl, rfl, by decide +kernel, (setupError_none_iff halted.mem).1 (by decide +kernel)⟩

theorem witness_StopByGaugeState :
    (armed.resetActive = false ∧ armed.gauge = .armed) ∧ (waiting.resetActive = false ∧ waiting.gauge = .waitClear)
      ∧ (halted.resetActive = false ∧ halted.gauge = .halted)
      ∧ (meas.resetActive = false ∧ meas.gauge = .measuring ∧ meas.inFlight = none)
      ∧ (let s := inPhase 1 (.blanking shotA)
         s.resetActive = false ∧ s.gauge = .measuring ∧ s.inFlight ≠ none)
      ∧ (closing.resetActive = false ∧ closing.gauge = .closing ∧ closing.haltPending = false) := by decide +kernel

theorem witness_ResumeAndClearHead :
    (let s : State := { armed with firing := .suspended, heads := vset armed.heads 3 { HeadUnit.reset with state := .fault } }
     (s.resetActive = false ∧ s.gauge ≠ .init) ∧ s.gauge ≠ .halted ∧ s.firing = .suspended ∧ s.pins.permit = true
       ∧ s.heads[(3 : Head)].state = .fault ∧ s.heads[(0 : Head)].state = .on) := by decide +kernel

theorem witness_AttentionRegistersAndLine : PortOpen armed ∧ PortOpen halted ∧ armed.chans[(0 : Head)].gain ≤ 15 :=
  ⟨⟨rfl, by decide +kernel⟩, ⟨rfl, by decide +kernel⟩, by decide +kernel⟩

theorem witness_PortIsolatesDuringInit :
    (State.reset.resetActive = false ∧ State.reset.gauge = .init)
      ∧ ({ meas with resetActive := true } : State).resetActive = true ∧ hasFlag 0x00F7#16 ctlSoftReset = false := by decide +kernel

/-- The first and the last word of the memory, a record's request word with NONE; and values at both ends of the request codes. -/
theorem witness_HostMemoryWritesAndRequestEvents :
    PortOpen armed ∧ plainWrite 0#16 7#16 = true ∧ plainWrite 0xFFFF#16 7#16 = true ∧ plainWrite 0x0A01#16 0#16 = true
      ∧ (1#16 : Word) ≠ 0#16 ∧ (0xFFFF#16 : Word) ≠ 0#16 :=
  ⟨⟨rfl, by decide +kernel⟩, by decide +kernel⟩

/-- `loaded` with a bad first field of the recipe, and with a bad last one. -/
def badFirst : State := { loaded with mem := memWrite loaded.mem 0x0215#16 0#16 }
/-- `loaded` with a bad last field of the recipe. -/
def badLast : State := { loaded with mem := memWrite loaded.mem 0x0247#16 0#16 }

theorem witness_PostIsValidatedFittedAndTaken_refused :
    PortOpen badFirst ∧ badFirst.slots[(0 : SlotNo)].state = .free
      ∧ FailsFirstAt (recipeChecks badFirst.mem badFirst.setup (slotAddr 0 0)) 21
      ∧ PortOpen badLast ∧ badLast.slots[(0 : SlotNo)].state = .free
      ∧ FailsFirstAt (recipeChecks badLast.mem badLast.setup (slotAddr 0 0)) 70 :=
  ⟨⟨rfl, by decide +kernel⟩, rfl, (firstBad_some_iff _ _).1 (by decide +kernel), ⟨rfl, by decide +kernel⟩, rfl,
    (firstBad_some_iff _ _).1 (by decide +kernel)⟩

theorem witness_PostIsValidatedFittedAndTaken_taken :
    PortOpen loaded ∧ loaded.slots[(0 : SlotNo)].state = .free
      ∧ Passes (recipeChecks loaded.mem loaded.setup (slotAddr 0 0)) :=
  ⟨⟨rfl, by decide +kernel⟩, rfl, (firstBad_none_iff _).1 (by decide +kernel)⟩

theorem witness_PostIsValidatedFittedAndTaken_fitted :
    PortOpen loaded ∧ loaded.slots[(0 : SlotNo)].state = .free ∧ exec (.post 0) loaded = .next (after (.post 0) loaded)
      ∧ (after (.post 0) loaded).slots[(0 : SlotNo)].state = .ready
      ∧ (after (.post 0) loaded).slots[(0 : SlotNo)].snapshot = some snapA :=
  ⟨⟨rfl, by decide +kernel⟩, rfl, rfl, by decide +kernel⟩

theorem witness_RequestsOutOfStateAndWithdrawals :
    (let s : State := { meas with slots := vset (vset meas.slots 0 { slotA with cancelPending := true }) 3 slotReady }
     (s.resetActive = false ∧ s.gauge ≠ .init) ∧ s.slots[(3 : SlotNo)].state = .ready ∧ s.slots[(0 : SlotNo)].state = .active
       ∧ s.slots[(1 : SlotNo)].state = .free ∧ s.slots[(0 : SlotNo)].cancelPending = true
       ∧ noSlotRequest 4#16 = true ∧ noSlotRequest 0xFFFF#16 = true ∧ s.slots[(0 : SlotNo)].amendment = none)
      ∧ (let s : State := { meas with slots := vset meas.slots 0 { slotA with amendment := some amendA } }
         (s.resetActive = false ∧ s.gauge ≠ .init) ∧ s.slots[(0 : SlotNo)].amendment.isSome = true) := by decide +kernel

theorem witness_CancelBySlotState :
    (let s : State := { armed with slots := vset (vset armed.slots 3 slotReady) 0 slotA, queue := [3], current := some 0 }
     (s.resetActive = false ∧ s.gauge ≠ .init) ∧ s.slots[(3 : SlotNo)].state = .ready ∧ s.slots[(0 : SlotNo)].state = .active
       ∧ s.slots[(0 : SlotNo)].cancelPending = false ∧ s.orderInUse ≠ some 0)
      ∧ ((meas.resetActive = false ∧ meas.gauge ≠ .init) ∧ meas.slots[(0 : SlotNo)].state = .active
        ∧ meas.slots[(0 : SlotNo)].cancelPending = false ∧ meas.orderInUse = some 0)
      ∧ (let s : State := { meas with slots := vset meas.slots 0 { slotA with cancelPending := true } }
         s.slots[(0 : SlotNo)].state = .active ∧ s.slots[(0 : SlotNo)].cancelPending = true
           ∧ s.slots[(0 : SlotNo)].amendment = none) := by decide +kernel

/-- `amendable` with the slot READY instead of ACTIVE. -/
def amendReady : State := { amendable with slots := vset armed.slots 0 slotReady, queue := [0], current := none, tube := some tubeNo }

theorem witness_AmendIsCheckedAndTaken :
    (PortOpen amendReady ∧ amendReady.slots[(0 : SlotNo)].snapshot = some snapA ∧ amendReady.slots[(0 : SlotNo)].state = .ready
        ∧ Passes (amendChecks amendReady.mem snapA.recipe.tnom (slotAddr 0 0)))
      ∧ (PortOpen amendable ∧ amendable.slots[(0 : SlotNo)].snapshot = some snapA ∧ amendable.slots[(0 : SlotNo)].state = .active
        ∧ amendable.slots[(0 : SlotNo)].cancelPending = false
        ∧ Passes (amendChecks amendable.mem snapA.recipe.tnom (slotAddr 0 0)))
      ∧ FailsFirstAt (amendChecks (memWrite amendable.mem 0x0280#16 0#16) snapA.recipe.tnom (slotAddr 0 0)) 128
      ∧ FailsFirstAt (amendChecks (memWrite amendable.mem 0x028E#16 2#16) snapA.recipe.tnom (slotAddr 0 0)) 142 :=
  ⟨⟨⟨rfl, by decide +kernel⟩, by decide +kernel, rfl, (firstBad_none_iff _).1 (by decide +kernel)⟩,
    ⟨⟨rfl, by decide +kernel⟩, by decide +kernel, rfl, rfl, (firstBad_none_iff _).1 (by decide +kernel)⟩,
    (firstBad_some_iff _ _).1 (by decide +kernel), (firstBad_some_iff _ _).1 (by decide +kernel)⟩

theorem witness_ImmediateAmendmentIsAppliedAtCycleStart :
    (∀ p ∈ [Phase.idle, Phase.blanking shotA],
      let s : State := { inPhase 3 p with slots := vset meas.slots 0 { slotA with amendment := some amendA } }
      runs s.gauge = true ∧ s.firing = .permitted ∧ s.cfg.quietGate ≠ 0 ∧ s.current = some 0
        ∧ s.slots[(0 : SlotNo)].snapshot = some snapA ∧ s.slots[(0 : SlotNo)].amendment = some amendA ∧ amendA.immediate = true
        ∧ s.orderInUse = some 0 ∧ (s.inFlight = none ∨ s.inFlight = some (3, shotA)))
      ∧ (let s : State := { inPhase 3 .idle with
            slots := vset meas.slots 0 { slotA with amendment := some amendA }, setup := some { setupA with quietGate := 0 } }
         runs s.gauge = true ∧ s.inFlight = none ∧ s.cfg.quietGate = 0)
      ∧ (let s : State := { armed with slots := vset armed.slots 0 { slotA with amendment := some amendA }, current := some 0 }
         runs s.gauge = true ∧ s.inFlight = none ∧ s.current = some 0 ∧ s.orderInUse ≠ some 0) := by decide +kernel

/-- The first and the last record; the scanner idle, and busy. -/
theorem witness_RecordRequestsAreTaken :
    (let s : State := { armed with records := vset (vset armed.records 0 .complete) 15 .complete }
     (s.resetActive = false ∧ s.gauge ≠ .init) ∧ s.records[(0 : RecNo)] = .complete ∧ s.records[(15 : RecNo)] = .complete
       ∧ s.pool.scan = none ∧ s.pool.releaseQueue = [] ∧ s.records[(1 : RecNo)] ≠ .complete)
      ∧ (let s : State := { scanning with records := vset scanning.records 15 .complete }
         (s.resetActive = false ∧ s.gauge ≠ .init) ∧ s.records[(15 : RecNo)] = .complete ∧ s.pool.scan.isSome = true)
      ∧ noRecordRequest 1#16 = true ∧ noRecordRequest 0xFFFF#16 = true := by decide +kernel

/-- The first and the last block of a scan, a block owned by the record and one that is not, and the end of the scan. -/
theorem witness_ReleaseScanStartsStepsAndEnds :
    (pool104.scan.isSome = true ∧ { pool104 with scan := none, releaseQueue := [2, 4] }.releaseQueue = [2, 4])
      ∧ (scanning.pool.scan = some { record := 4, next := 5, startAt := 0 } ∧ scanning.pool.owner[5] = some 4)
      ∧ pool104.owner[0] ≠ some 4 ∧ pool104.owner[951] ≠ some 4
      ∧ ({ scanning with pool := { pool104 with scan := some { record := 4, next := 952, startAt := 0 } } } : State).pool.scan
        = some { record := 4, next := 952, startAt := 0 } := by decide +kernel

theorem witness_CycleStartRestartsFiringAndOpensSlotZero :
    (runs armed.gauge = true ∧ armed.inFlight = none ∧ armed.dueAmendment = none)
      ∧ (let s : State := { inPhase 3 .idle with firing := .suspended, setup := some { setupA with quietGate := 0 } }
         runs s.gauge = true ∧ s.inFlight = none ∧ s.dueAmendment = none ∧ s.cfg.quietGate = 0)
      ∧ (let s := inPhase 3 (.opened shotA (cap 20000 [20000] none none))
         s.slot = some { head := 3, startAt := 1950, phase := .opened shotA (cap 20000 [20000] none none) }
           ∧ s.gauge = .measuring ∧ s.tube = some tubeA ∧ tubeA.record.isSome = true ∧ s.tubeOrder = some snapA
           ∧ s.dueAmendment = none)
      ∧ (let s : State := { closing with slot := some { head := 3, startAt := 1950, phase := .blanking shotA } }
         s.gauge = .closing ∧ s.tube = some { tubeA with zTail := some 50000 } ∧ s.tubeOrder = some snapA) := by decide +kernel

/-- Head 0 and head 2; a shot in BLANKING, and one in OPEN with and without echoes. -/
theorem witness_SlotStartCutsAndBeginsQuietGate :
    ((0 : Head) ≠ 3 ∧ (2 : Head) ≠ 3 ∧ runs meas.gauge = true
        ∧ (inPhase 0 .idle).slot = some { head := 0, startAt := 1950, phase := .idle }
        ∧ (inPhase 2 (.quiet 255)).slot = some { head := 2, startAt := 1950, phase := .quiet 255 }
        ∧ phaseShot .idle = none ∧ phaseShot (.quiet 255) = none)
      ∧ ((inPhase 2 (.blanking shotA)).slot = some { head := 2, startAt := 1950, phase := .blanking shotA }
        ∧ (inPhase 2 (.opened shotA (cap 20000 [20000] none none))).slot
          = some { head := 2, startAt := 1950, phase := .opened shotA (cap 20000 [20000] none none) }
        ∧ meas.gauge = .measuring ∧ meas.tube = some tubeA ∧ tubeA.record.isSome = true ∧ meas.tubeOrder = some snapA)
      ∧ (closing.gauge = .closing ∧ runs closing.gauge = true ∧ closing.tubeOrder = some snapA
        ∧ closing.tube = some { tubeA with zTail := some 50000 }) := by decide +kernel

/-- A count at the noise limit, and a quiet gate of 0. -/
theorem witness_FireDecisionFiresHead :
    (let s := inPhase 3 (.quiet 4)
     s.slot = some { head := 3, startAt := 1950, phase := .quiet 4 } ∧ s.gauge = .measuring ∧ s.tubeOrder = some snapA
       ∧ inMask snapA.recipe.headMask 3 = true ∧ s.firing = .permitted ∧ s.heads[(3 : Head)].state = .on
       ∧ 4 ≤ snapA.recipe.noiseLimit)
      ∧ ({ inPhase 0 (.quiet 255) with setup := some { setupA with quietGate := 0 } } : State).cfg.quietGate = 0 := by decide +kernel

/-- A count just above the noise limit. -/
theorem witness_FireDecisionWithoutFire_noisy :
    (let s := inPhase 3 (.quiet 5)
     s.slot = some { head := 3, startAt := 1950, phase := .quiet 5 } ∧ s.gauge = .measuring ∧ s.tubeOrder = some snapA
       ∧ inMask snapA.recipe.headMask 3 = true ∧ s.firing = .permitted ∧ s.heads[(3 : Head)].state = .on ∧ s.cfg.quietGate ≠ 0
       ∧ snapA.recipe.noiseLimit < 5 ∧ s.tube = some tubeA ∧ tubeA.record.isSome = true ∧ tubeA.closing = none)
      ∧ (waitingTube.record.isSome = true ∧ waitingTube.closing.isSome = true) := by decide +kernel

/-- Dry: not MEASURING; SUSPENDED, which is counted; a head in FAULT; a tube without an order. -/
theorem witness_FireDecisionWithoutFire_dry :
    (armed.slot = some { head := 0, startAt := 1000, phase := .quiet 0 } ∧ armed.gauge ≠ .measuring)
      ∧ (let s : State := { inPhase 3 (.quiet 0) with firing := .suspended }
         s.gauge = .measuring ∧ s.firing = .suspended ∧ s.hasRecord = true ∧ s.tubeOrder = some snapA
           ∧ inMask snapA.recipe.headMask 3 = true)
      ∧ (let s : State := { inPhase 3 (.quiet 0) with heads := vset meas.heads 3 { HeadUnit.reset with state := .fault } }
         s.heads[(3 : Head)].state = .fault ∧ s.firing ≠ .suspended)
      ∧ measNo.tubeOrder = none := by decide +kernel

theorem witness_ConfEdgeConfirmsOrStrays :
    ((inPhase 1 (.awaitConf shotA)).gauge ≠ .init
        ∧ (inPhase 1 (.awaitConf shotA)).slot = some { head := 1, startAt := 1950, phase := .awaitConf shotA })
      ∧ (armed.gauge ≠ .init ∧ ∀ at0 sh, armed.slot ≠ some { head := 0, startAt := at0, phase := .awaitConf sh }) := by
  refine ⟨by decide +kernel, by decide +kernel, ?_⟩
  intro at0 sh h
  simp [armed] at h

/-- The count just below the misfire limit, and below it by two. -/
theorem witness_MisfireCountsAndFaultsHead :
    (let s : State := { inPhase 1 (.awaitConf shotA) with
        heads := vset meas.heads 1 { HeadUnit.reset with misfires := 2 }, tube := some waitingTube }
     s.slot = some { head := 1, startAt := 1950, phase := .awaitConf shotA } ∧ s.gauge = .measuring
       ∧ s.tube = some waitingTube ∧ waitingTube.record.isSome = true ∧ s.tubeOrder.isSome = true
       ∧ s.cfg.misfireLimit = s.heads[(1 : Head)].misfires + 1)
      ∧ (inPhase 1 (.awaitConf shotA)).heads[(1 : Head)].misfires = 0 ∧ tubeA.closing = none
      ∧ (let s : State := { closing with slot := some { head := 1, startAt := 1950, phase := .awaitConf { shotA with clampDue := true } } }
         s.gauge = .closing ∧ s.tube.isSome = true ∧ s.tubeOrder.isSome = true) := by decide +kernel

theorem witness_PermitLossSuspendsAndAborts :
    State.reset.gauge = .init ∧ (meas.gauge ≠ .init ∧ meas.inFlight = none)
      ∧ (let s : State := { inPhase 1 (.blanking shotA) with tube := some waitingTube }
         s.slot = some { head := 1, startAt := 1950, phase := .blanking shotA } ∧ phaseShot (.blanking shotA) = some shotA
           ∧ s.gauge = .measuring ∧ s.tube = some waitingTube ∧ waitingTube.record.isSome = true ∧ s.tubeOrder.isSome = true)
      ∧ (closing.gauge = .closing ∧ closing.tubeOrder.isSome = true ∧ tubeA.closing = none) := by decide +kernel

/-- A hold-off at its end and just before it; a sample with room in the list, with a full list, and with none to take. -/
theorem witness_BlankingHoldOffAndAmplitude :
    (inPhase 1 (.blanking shotA)).slot = some { head := 1, startAt := 1950, phase := .blanking shotA }
      ∧ ((inPhase 1 (.opened shotA (cap 24100 [20000] (some 32800) none))).slot
          = some { head := 1, startAt := 1950, phase := .opened shotA (cap 24100 [20000] (some 32800) none) }
        ∧ 24100 ≤ 32800 ∧ 24100 ≤ 32799)
      ∧ ((cap 24100 [20000] none none).echoes ≠ [] ∧ (cap 24100 [20000] none none).sample = none
        ∧ (cap 24100 [20000] none none).echoes.length < shotA.bound.recipe.captureMax)
      ∧ ((cap 24100 [1, 2, 3, 4] none none).echoes ≠ [] ∧ (cap 24100 [1, 2, 3, 4] none none).sample = none
        ∧ shotA.bound.recipe.captureMax ≤ (cap 24100 [1, 2, 3, 4] none none).echoes.length)
      ∧ (cap 24100 [] none none).echoes = [] ∧ (cap 24100 [20000] none (some 0#8)).sample.isSome = true := by decide +kernel

theorem witness_CrossingsByPhase_quiet :
    (inPhase 1 (.quiet 255)).slot = some { head := 1, startAt := 1950, phase := .quiet 255 } ∧ halted.slot = none
      ∧ (2 : Head) ≠ 1 ∧ shotA.bound.recipe.polarity ≠ .neg := by decide +kernel

/-- Captured at the end of a hold-off, one tu before the window end, and as the last of a full list; ignored at the window end. -/
theorem witness_CrossingsByPhase_open :
    (let c := cap 24100 [20000] (some 32800) none
     (inPhase 1 (.opened shotA c)).slot = some { head := 1, startAt := 1950, phase := .opened shotA c } ∧ c.tu ≤ 32800
       ∧ c.echoes.length < shotA.bound.recipe.captureMax ∧ 32800 < 160 * (shotA.bound.recipe.blanking + shotA.bound.wEff)
       ∧ 175999 < 160 * (shotA.bound.recipe.blanking + shotA.bound.wEff)
       ∧ ¬176000 < 160 * (shotA.bound.recipe.blanking + shotA.bound.wEff))
      ∧ (let c := cap 55210 [20000, 37600, 55210] (some 68010) (some 212#8)
         c.tu ≤ 72790 ∧ c.echoes.length + 1 = shotA.bound.recipe.captureMax ∧ c.sample.isSome = true) := by decide +kernel

theorem witness_WindowEndHandsShotOver :
    (let s : State := { inPhase 1 (.opened shotA (cap 16000 [] none none)) with tube := some waitingTube }
     s.slot = some { head := 1, startAt := 1950, phase := .opened shotA (cap 16000 [] none none) } ∧ s.gauge = .measuring
       ∧ s.tube = some waitingTube ∧ waitingTube.record.isSome = true ∧ s.tubeOrder = some snapA)
      ∧ (let s : State := { closing with
            slot := some { head := 1, startAt := 1950, phase := .opened { shotA with clampDue := true } (cap 16000 [] none none) } }
         s.gauge = .closing ∧ s.tube = some { tubeA with zTail := some 50000 } ∧ s.tubeOrder = some snapA) := by decide +kernel

/-- Both ends of the temperature table, and a train cut short. -/
theorem witness_ThicknessOfConfirmedShot :
    6000 ≤ 6000 ∧ 14000 ≤ 14000
      ∧ (confirmedRecord 1 shotA (effTemp .live 11180 recipeA) { echoes := [20000, 37600, 55210, 72790], cut := false }).outcome = .valid
      ∧ recipeA.bandLo ≤ recipeA.tnom
      ∧ trainLength 8 [20000, 37600, 55210, 79000] < [20000, 37600, 55210, 79000].length := by decide +kernel

theorem witness_LinkReceiverAndTimers :
    ((inTelegram [0x01#8]).link.asm = .collecting [0x01#8] ∧ (inTelegram [0x01#8]).link.gapAt = some 1500)
      ∧ armed.link.asm = .awaitMarker ∧ armed.link.source = .none ∧ meas.link.source ≠ .none := by decide +kernel

/-- A frame that is judged good, one with a stop point at space, and one with a wrong parity. -/
theorem witness_FrameIsJudgedAndAssembled :
    (let s := inTelegram [0x01#8, 0x2B#8]
     let f : Frame := { data := 0xAC#8, parity := false, stop1 := true, stop2 := false }
     FrameGood s f ∧ FrameCarries s f 0xAC#8 ∧ s.link.asm = .collecting [0x01#8, 0x2B#8] ∧ [0x01#8, 0x2B#8].length < 3)
      ∧ (let s : State := { inTelegram [] with link := { (inTelegram []).link with asm := .awaitMarker, gapAt := none } }
         FrameGood s { data := 0x5C#8, parity := false, stop1 := true, stop2 := false }
           ∧ FrameCarries s { data := 0x5C#8, parity := false, stop1 := true, stop2 := false } 0x5C#8
           ∧ FrameGood s { data := 0x5D#8, parity := true, stop1 := true, stop2 := false }
           ∧ FrameCarries s { data := 0x5D#8, parity := true, stop1 := true, stop2 := false } 0x5D#8)
      ∧ (inTelegram []).link.rx.state = .stop
      ∧ ¬FrameGood (inTelegram []) { data := 0x5C#8, parity := true, stop1 := true, stop2 := false }
      ∧ armed.link.rx.state = .ready := by
  unfold FrameGood FrameCarries
  decide +kernel

/-- The three ways that a telegram can end, the temperature at its bound. -/
theorem witness_TelegramIsCheckedAndAccepted :
    (let s := inTelegram [0x01#8, 0x4E#8, 0x20#8]
     let f : Frame := { data := 0x35#8, parity := false, stop1 := true, stop2 := false }
     FrameGood s f ∧ FrameCarries s f 0x35#8 ∧ s.link.asm = .collecting [0x01#8, 0x4E#8, 0x20#8]
       ∧ (0x5C + 0x01 + 0x4E + 0x20 + 0x35) % 256 = 0 ∧ 0x4E * 256 + 0x20 = 20000)
      ∧ (0x5C + 0x01 + 0x4E + 0x21 + 0x34) % 256 = 0 ∧ ¬0x4E * 256 + 0x21 ≤ 20000
      ∧ (0x5C + 0x01 + 0x2B + 0xAD + 0xCA) % 256 ≠ 0 := by
  unfold FrameGood FrameCarries
  decide +kernel

/-- Every tracking state; the last position below saturation. -/
theorem witness_RealStepAdvancesPosition :
    armed.tracker.state = .idle ∧ ({ measNo with tracker := { Tracker.reset with state := .lost } } : State).tracker.state = .lost
      ∧ (let s : State := { measNo with tracker := { measNo.tracker with z := 67108363 } }
         s.tracker.state = .tracking ∧ s.gauge = .measuring ∧ s.tube = some tubeNo ∧ FollowsZ s tubeNo
           ∧ ¬(realAdvance s 2000).Overlong s)
      ∧ (let s : State := { meas with tracker := { meas.tracker with state := .deadReckoning, z := 99500 } }
         s.tracker.state = .deadReckoning ∧ s.gauge = .measuring ∧ s.tube = some tubeA ∧ FollowsZ s tubeA
           ∧ ¬(returnAdvance s).Overlong s) := by
  refine ⟨rfl, rfl, ⟨rfl, rfl, rfl, ⟨rfl, .inl ⟨rfl, rfl⟩⟩, ?_⟩, rfl, rfl, rfl, ⟨rfl, .inr ⟨snapA, newAccum 0 0#16, rfl, rfl, rfl, rfl⟩⟩, ?_⟩
  · rintro ⟨n, h, -⟩
    cases h
  · rintro ⟨n, h, hz⟩
    cases h
    revert hz
    decide +kernel

/-- A stall without a period, with one; a synthetic step below and at dr_max. -/
theorem witness_StallAndSyntheticSteps :
    (measNo.tracker.state = .tracking ∧ measNo.tracker.pLast = none) ∧ armed.tracker.state ≠ .tracking
      ∧ (slipping.tracker.state = .tracking ∧ slipping.tracker.pLast = some 2000 ∧ slipping.tracker.stallLimit = some 20000
        ∧ slipping.gauge = .measuring ∧ slipping.tube = some tubeNo ∧ FollowsZ slipping tubeNo
        ∧ ¬(stallAdvance slipping 2000 20000).Overlong slipping)
      ∧ (let s : State := { meas with tracker := { slipping.tracker with state := .deadReckoning, episode := 49, z := 99500 } }
         s.tracker.state = .deadReckoning ∧ s.tracker.pLast = some 2000 ∧ s.gauge = .measuring ∧ s.tube = some tubeA
           ∧ FollowsZ s tubeA ∧ ¬(syntheticAdvance s 2000).Overlong s ∧ (syntheticAdvance s 2000).spent = true) := by
  refine ⟨⟨rfl, rfl⟩, by decide, ⟨rfl, rfl, rfl, rfl, rfl, ⟨rfl, .inl ⟨rfl, rfl⟩⟩, ?_⟩,
    rfl, rfl, rfl, rfl, ⟨rfl, .inr ⟨snapA, newAccum 0 0#16, rfl, rfl, rfl, rfl⟩⟩, ?_, rfl⟩
  · rintro ⟨n, h, -⟩
    cases h
  · rintro ⟨n, h, hz⟩
    cases h
    revert hz
    decide +kernel

/-- A step that brings z to max_len exactly, with a shot in flight; and one that brings it to the last position. -/
theorem witness_PositionChangeEndsMeasuringOrSaturates :
    (let s : State := { inPhase 1 (.blanking shotA) with tracker := { meas.tracker with z := 19999500 } }
     s.tracker.state = .tracking ∧ s.gauge = .measuring ∧ s.tubeOrder = some snapA ∧ s.tube = some tubeA
       ∧ snapA.recipe.maxLen = min (s.tracker.z + s.cfg.encStep) 67108863 ∧ s.inFlight ≠ none)
      ∧ (let s : State := { measNo with tracker := { measNo.tracker with z := 67108363 } }
         s.tracker.state = .tracking ∧ s.gauge = .measuring ∧ s.tubeOrder = none
           ∧ 67108863 = s.tracker.z + s.cfg.encStep) := by decide +kernel

/-- The last section of a tube of max_len: a synthetic step reaches max_len exactly; and a catch-up in a tube without an order
saturates. -/
theorem witness_PositionChangeEndsMeasuringOrSaturates_all :
    (let x : Tube := { tubeA with opened := some (newAccum 199 0#16) }
     let s : State := { meas with
       tube := some x, tracker := { slipping.tracker with state := .deadReckoning, episode := 1, z := 19999500 } }
     s.gauge = .measuring ∧ s.tube = some x ∧ FollowsZ s x ∧ s.tracker.state = .deadReckoning ∧ s.tracker.pLast = some 2000
       ∧ (syntheticAdvance s 2000).Overlong s ∧ s.inFlight = none)
      ∧ (let s : State := { slipping with tracker := { slipping.tracker with z := 67108000 } }
         s.gauge = .measuring ∧ FollowsZ s tubeNo ∧ s.tracker.stallLimit = some 20000 ∧ ¬(stallAdvance s 2000 20000).Overlong s
           ∧ 67108863 ≤ s.tracker.z + (stallAdvance s 2000 20000).steps * s.cfg.encStep) := by
  refine ⟨⟨rfl, rfl, ⟨rfl, .inr ⟨snapA, newAccum 199 0#16, rfl, rfl, rfl, by decide +kernel⟩⟩, rfl, rfl,
    ⟨snapA, rfl, by decide +kernel⟩, by decide +kernel⟩, rfl, ⟨rfl, .inl ⟨rfl, rfl⟩⟩, rfl, ?_, by decide +kernel⟩
  rintro ⟨n, h, -⟩
  cases h

theorem witness_PositionNeverDecreasesInTube :
    meas.tracker.z ≤ 67108863 ∧ exec (.realStep 2000) meas = .next (after (.realStep 2000) meas) ∧ meas.gauge = .measuring
      ∧ (after (.realStep 2000) meas).gauge ≠ .init := ⟨by decide +kernel, rfl, rfl, by decide +kernel⟩

/-- The record at the next-search index is free; the search passes from 15 to 0; and no record is free. -/
theorem witness_HeadEventWithoutOrderOrRecord :
    (armed.gauge = .armed ∧ armed.records[(0 : RecNo)] = .free ∧ (0 : RecNo).val = (armed.nextSearch.val + 0) % 16
        ∧ armed.current = none ∧ armed.queue = [])
      ∧ (let s : State := { armed with nextSearch := 15, records := vset armed.records 15 .complete }
         s.records[(0 : RecNo)] = .free ∧ (0 : RecNo).val = (s.nextSearch.val + 1) % 16
           ∧ ∀ (i : Nat) (q : RecNo), i < 1 → q.val = (s.nextSearch.val + i) % 16 → s.records[q] ≠ .free)
      ∧ ∀ r : RecNo, ({ armed with records := Vector.replicate 16 .complete } : State).records[r] ≠ .free := by
  refine ⟨by decide +kernel, ⟨by decide +kernel, by decide +kernel, ?_⟩, by decide +kernel⟩
  intro i q hi hq
  obtain rfl : i = 0 := by omega
  obtain rfl : q = 15 := Fin.ext hq
  decide +kernel

/-- An order that waits in the queue, and one that is current. -/
theorem witness_HeadEventOpensTubeWithOrder :
    (let s : State := { armed with slots := vset armed.slots 0 slotReady, queue := [0] }
     s.gauge = .armed ∧ (0 : RecNo).val = (s.nextSearch.val + 0) % 16 ∧ s.records[(0 : RecNo)] = .free ∧ s.current = none
       ∧ s.queue = 0 :: [] ∧ s.slots[(0 : SlotNo)].snapshot = some snapA ∧ s.slots[(0 : SlotNo)].amendment = none)
      ∧ (let s : State := { armed with slots := vset armed.slots 0 { slotA with taken := 39 }, current := some 0 }
         s.current = some 0 ∧ s.slots[(0 : SlotNo)].state = .active ∧ s.queue = []
           ∧ s.slots[(0 : SlotNo)].snapshot = some snapA ∧ s.slots[(0 : SlotNo)].amendment = none) := by decide +kernel

/-- The open lot of slot 0 yields to slot 1 (Table 9-5); and an amendment waits on the current order. -/
theorem witness_HeadEventYieldsOpenLotAndAppliesAmendment :
    (let m : Snapshot := { snapA with recipe := { recipeA with lotCount := 0 } }
     let s : State := { armed with
       slots := vset (vset armed.slots 0 { slotA with snapshot := some m, taken := 5, amendment := some amendA }) 1 slotReady
       queue := [1], current := some 0 }
     s.gauge = .armed ∧ s.records[(0 : RecNo)] = .free ∧ s.current = some 0 ∧ s.slots[(0 : SlotNo)].snapshot = some m
       ∧ s.slots[(1 : SlotNo)].snapshot = some snapA ∧ (0 : SlotNo) ≠ 1 ∧ m.recipe.lotCount = 0 ∧ s.queue = 1 :: [])
      ∧ (let s : State := { armed with slots := vset armed.slots 0 { slotA with amendment := some amendA }, current := some 0 }
         s.gauge = .armed ∧ s.records[(0 : RecNo)] = .free ∧ s.current = some 0 ∧ s.slots[(0 : SlotNo)].snapshot = some snapA
           ∧ snapA.recipe.lotCount ≠ 0 ∧ s.slots[(0 : SlotNo)].amendment = some amendA) := by decide +kernel

theorem witness_TailAndPresenceEdges :
    meas.gauge = .measuring ∧ waiting.gauge = .waitClear ∧ closing.gauge = .closing ∧ State.reset.gauge = .init
      ∧ halted.gauge = .halted := by decide +kernel

/-- The CLOSING section 0 with z exactly tail_skip past its end; a free block, and none. -/
theorem witness_ClosingSectionCompletesAndIsWritten :
    (let x : Tube := { tubeA with closing := some (newAccum 0 0#16), opened := some (newAccum 4 0#16) }
     let s : State := { meas with tube := some x, tracker := { meas.tracker with z := 400000 } }
     s.tube = some x ∧ x.closing = some (newAccum 0 0#16) ∧ x.record = some 0 ∧ x.holdback = [] ∧ s.tubeOrder = some snapA
       ∧ s.inFlight = none ∧ ((newAccum 0 0#16).index + 1) * snapA.recipe.lSec + snapA.recipe.tailSkip = s.passZ
       ∧ s.pool.free = 0 :: s.pool.free.tail)
      ∧ ({ meas with pool := { Pool.reset with free := [] } } : State).pool.free = []
      ∧ (let s : State := { meas with tube := some waitingTube }
         s.tube = some waitingTube ∧ waitingTube.closing = some (newAccum 4 0#16) ∧ waitingTube.record = some 0
           ∧ waitingTube.holdback ≠ [] ∧ s.tubeOrder = some snapA ∧ s.inFlight = none) := by decide +kernel

/-- A NO_ORDER tube, a missed tube, and a halt pending. -/
theorem witness_CloseOfTubeWithoutSections :
    (closingNo.gauge = .closing ∧ closingNo.inFlight = none ∧ closingNo.tube = some { tubeNo with zTail := some 50000 }
        ∧ tubeNo.order = none ∧ tubeNo.opened = none ∧ tubeNo.holdback = [] ∧ closingNo.haltPending = false
        ∧ tubeNo.record = some 0)
      ∧ (newTube none none 1 .noOrder 0#16 none).record = none
      ∧ ({ closingNo with haltPending := true } : State).haltPending = true := by decide +kernel

theorem poolOk_replicate (n : Nat) : (List.finRange n).Nodup ∧
    ∀ b : Fin n, b ∈ List.finRange n ↔ (Vector.replicate n (none : Option RecNo))[b] = none :=
  ⟨List.nodup_finRange n, fun b => ⟨fun _ => Vector.getElem_replicate b.isLt, fun _ => List.mem_finRange b⟩⟩

/-- The whole pool free and nothing owned is a pool that meets PoolOk. -/
theorem poolOk_of_reset (s : State) (hf : s.pool.free = List.finRange 952) (ho : s.pool.owner = Vector.replicate 952 none) :
    PoolOk s := by
  unfold PoolOk
  rw [hf, ho]
  exact poolOk_replicate 952

/-- A partial section of length 0 and one of some length; no block in the chain yet. -/
theorem witness_CloseWritesEverySectionInItsChain :
    PoolOk closing ∧ closing.gauge = .closing ∧ closing.inFlight = none
      ∧ closing.tube = some { tubeA with zTail := some 50000 } ∧ tubeA.record = some 0 ∧ tubeA.order = some 0
      ∧ closing.slots[(0 : SlotNo)].snapshot = some snapA ∧ tubeA.opened = some (newAccum 0 0#16) ∧ tubeA.closing = none
      ∧ ∀ p : BlockNo, tubeA.lastBlock = some p → closing.pool.owner[p] = some 0 := by
  refine ⟨poolOk_of_reset _ (by simp only [closing, meas, measNo, armed, Pool.reset]) (by simp only [closing, meas, measNo, armed, Pool.reset]), rfl, rfl, rfl, rfl, rfl, by decide +kernel, rfl, rfl, fun p h => by cases h⟩

/-- The end of section 0 reached exactly: with its shot in flight, with none, and with a section CLOSING. -/
theorem witness_CrossingClosesAndOpensSections :
    (let s : State := { inPhase 1 (.blanking shotA) with tracker := { meas.tracker with z := 99500 } }
     s.gauge = .measuring ∧ s.tracker.state = .tracking ∧ s.tube = some tubeA ∧ tubeA.order = some 0
       ∧ s.slots[(0 : SlotNo)].snapshot = some snapA ∧ tubeA.zTail = none ∧ tubeA.opened = some (newAccum 0 0#16)
       ∧ tubeA.holdback = [] ∧ s.cfg.encStep < snapA.recipe.lSec
       ∧ ((newAccum 0 0#16).index + 1) * snapA.recipe.lSec = s.tracker.z + s.cfg.encStep
       ∧ s.tracker.z + s.cfg.encStep < snapA.recipe.maxLen ∧ tubeA.closing = none ∧ s.inFlight = some (1, shotA)
       ∧ shotA.stamp.secIdx = (newAccum 0 0#16).index)
      ∧ (meas.inFlight = none ∧ 100000 < ((newAccum 0 0#16).index + 1) * snapA.recipe.lSec + snapA.recipe.tailSkip)
      ∧ ({ tubeA with closing := some (newAccum 0 0#16), opened := some (newAccum 1 0#16) } : Tube).closing
        = some (newAccum 0 0#16) := by decide +kernel

/-- The smallest occupancy limit; a section without and one with VALID shots. -/
theorem witness_SectionStatisticsAndEccentricity :
    8 ≤ 8 ∧ (newAccum 0 0#16).n = 0 ∧ 0 < section77.n ∧ section77.range = some (9680, 10320) := by decide +kernel

theorem witness_SectionExtremesBoundItsMeans : AccumOk section77 ∧ 0 < section77.n := by
  refine ⟨⟨by decide +kernel, ?_, ?_, by decide +kernel, by decide +kernel⟩, by decide +kernel⟩
  · intro lo hi h
    obtain ⟨rfl, rfl⟩ : 9680 = lo ∧ 10320 = hi := by simpa [section77] using h
    decide +kernel
  · intro lo hi i h
    obtain ⟨rfl, rfl⟩ : 9680 = lo ∧ 10320 = hi := by simpa [section77] using h
    revert i
    decide +kernel

/-- The fire decision of the worked tube adds its pulse. -/
theorem witness_FireOnlyUnderItsConditions :
    exec .fireDecision (inPhase 3 (.quiet 4)) = .next (after .fireDecision (inPhase 3 (.quiet 4)))
      ∧ (inPhase 3 (.quiet 4)).heads[(3 : Head)].fires < (after .fireDecision (inPhase 3 (.quiet 4))).heads[(3 : Head)].fires :=
  ⟨rfl, by decide +kernel⟩

end Sys2Proof.Tests
end

section
/-! PROOFS. RUN: a CONTROL write that carries the RUN bit alone is the RUN itself (R7), and what a RUN does where it starts nothing
(R8, R9). -/

namespace Sys2Proof.Machine

open Safety

/-! ### The RUN bit alone -/

/-- With no CLEAR_Hk bit set no head is touched (R28). -/
theorem State.clearHeads_of_noBits (s : State) (w : Word) (h : ∀ k, hasFlag w (ctlClear k) = false) : s.clearHeads w = s := by
  simp [State.clearHeads, forHeads, h]

/-- Outside reset and INIT a CONTROL write of the RUN bit alone is the RUN (R7). -/
theorem State.controlWrite_ctlRun (s : State) (hr : s.resetActive = false) (hg : s.gauge ≠ .init) :
    s.controlWrite ctlRun = s.run := by
  have hreset : hasFlag ctlRun ctlSoftReset = false := by decide
  have hresume : hasFlag ctlRun ctlResume = false := by decide
  have hclear : ∀ k, hasFlag ctlRun (ctlClear k) = false := by decide
  have hrun : s.runStop ctlRun = s.run := rfl
  simp [State.controlWrite, hr, hg, hreset, hresume, hrun, State.clearHeads_of_noBits _ _ hclear]

theorem exec_run_zero (s : State) (hr : s.resetActive = false) (hg : s.gauge ≠ .init) : exec (.run 0#16) s = .next s.run := by
  have harm : exec (.run 0#16) s = .next (s.controlWrite (0#16 ||| ctlRun)) := rfl
  rw [harm, BitVec.zero_or, State.controlWrite_ctlRun s hr hg]

/-! ### Two words -/

/-- Two words written one after the other, at different addresses, listed in the order of the writes. -/
theorem wrote_put_put (s : State) (a b : Nat) (v w : Word) (ha : a < 65536) (hb : b < 65536) (hab : a ≠ b) :
    Wrote s ((s.put a v).put b w) [(a, v), (b, w)] := by
  refine ((wrote_put s a v ha).trans (wrote_put (s.put a v) b w hb)).congr fun x _ => ?_
  have hne : (a == b) = false := by simpa using hab
  by_cases hx : x = a
  · simp [List.lookup, hx, hne]
  · have hxa : (x == a) = false := by simpa using hx
    simp only [List.cons_append, List.nil_append, List.lookup, hxa]

/-! ### A RUN that starts nothing -/

/-- Outside HALTED a RUN is only answered (R8). -/
theorem State.run_of_running (s : State) (hg : s.gauge = .armed ∨ s.gauge = .measuring ∨ s.gauge = .closing ∨ s.gauge = .waitClear) :
    s.run = s.answerCmd ansCmdIgnored := by
  rcases hg with hg | hg | hg | hg <;> simp only [State.run, hg]

theorem State.run_of_setupError (s : State) (off : Nat) (hg : s.gauge = .halted) (he : setupError s.mem = some off) :
    s.run = s.failRun off := by
  simp only [State.run, hg, he]

/-- A refused RUN changes the memory and the attention causes, and nothing else (R9). -/
theorem State.failRun_eq_withMem (s : State) (off : Nat) :
    s.failRun off = { s with mem := (s.failRun off).mem, attnCause := s.attnCause ||| causeSetup } := rfl

/-- A refused RUN writes the offset of the field and the answer (R9). -/
theorem State.failRun_wrote (s : State) (off : Nat) :
    Wrote s (s.failRun off) [(stSetupError, toWord off), (stCommand, ansCmdSetupInvalid)] :=
  (wrote_put_put s stSetupError stCommand (toWord off) ansCmdSetupInvalid (by decide) (by decide) (by decide)).of_mem rfl rfl

/-- Settles O8: the RUN bit alone is `State.run`, whose branches are the answer alone (R8) and `failRun` at the first field outside
its range (R9). -/
theorem runIsIgnoredOrRefused : Obligations.RunIsIgnoredOrRefused := by
  constructor
  · intro s hr hg
    have hinit : s.gauge ≠ .init := by rcases hg with hg | hg | hg | hg <;> simp [hg]
    rw [exec_run_zero s hr hinit, State.run_of_running s hg]
    exact ⟨_, rfl, rfl, wrote_put s stCommand ansCmdIgnored (by decide)⟩
  · intro s off hr hg hbad hbefore
    have he : setupError s.mem = some off := (setupError_some_iff s.mem off).2 ⟨hbad, hbefore⟩
    rw [exec_run_zero s hr (by simp [hg]), State.run_of_setupError s off hg he]
    exact ⟨_, rfl, s.failRun_eq_withMem off, s.failRun_wrote off⟩

end Sys2Proof.Machine
end

section
/-! PROOFS. The temperature link: what a good frame delivers (R57, R58), what the check of a complete telegram finds (R63), and what an
accepted or a failed telegram changes (R64). -/

namespace Sys2Proof.Machine

open Safety

/-! ### Good frames (R57, R58) -/

theorem foldl_xor_eq_parity (f : Nat → Bool) (is : List Nat) (p : Bool) :
    is.foldl (fun q i => q ^^ f i) p = (p ^^ decide ((is.filter f).length % 2 = 1)) := by
  induction is generalizing p with
  | nil => simp
  | cons i is ih =>
    rw [List.foldl_cons, ih]
    cases hi : f i
    · simp [hi]
    · have hflip : decide (((is.filter f).length + 1) % 2 = 1) = !decide ((is.filter f).length % 2 = 1) := by
        rw [← decide_not, decide_eq_decide]
        omega
      simp [hi, hflip]

theorem oddOnes_eq (b : Byte) : oddOnes b = decide (((List.range 8).filter (fun i => b.getLsbD i)).length % 2 = 1) := by
  rw [oddOnes, foldl_xor_eq_parity, Bool.false_xor]

theorem stopsGood_of_frameGood {s : State} {f : Frame} (h : FrameGood s f) : stopsGood s.cfg f = true := by
  obtain ⟨-, hstop1, hstop2, -⟩ := h
  by_cases htwo : s.cfg.pyroStop = 2
  · simp [stopsGood, hstop1, hstop2 htwo]
  · simp [stopsGood, hstop1, htwo]

theorem parityGood_of_frameGood {s : State} {f : Frame} (h : FrameGood s f) : parityGood s.cfg f = true := by
  obtain ⟨-, -, -, hnone | ⟨heven, hones⟩ | ⟨hodd, hones⟩⟩ := h
  · simp [parityGood, hnone]
  · cases hp : f.parity <;> simp [parityGood, heven, oddOnes_eq, hp] at hones ⊢ <;> omega
  · cases hp : f.parity <;> simp [parityGood, hodd, oddOnes_eq, hp] at hones ⊢ <;> omega

theorem inFrame_of_frameGood {s : State} {f : Frame} (h : FrameGood s f) : inFrame s.link.rx.state = true := by
  obtain ⟨hstate, -⟩ := h
  rcases hstate with hstate | hstate | hstate <;> rw [hstate] <;> rfl

theorem getLsbD_reverseByte (b : Byte) (i : Nat) (hi : i < 8) : (reverseByte b).getLsbD i = b.getLsbD (7 - i) := by
  interval_cases i <;> simp [reverseByte, BitVec.ofBoolListBE, BitVec.getElem_cons]

/-- The model's byte of a frame has the bits that `FrameCarries` names, in either bit order (R57). -/
theorem frameByte_eq_of_carries {s : State} {f : Frame} {b : Byte} (h : FrameCarries s f b) : frameByte s.cfg f = b := by
  refine BitVec.eq_of_getLsbD_eq fun i hi => ?_
  rw [h i hi]
  cases hmsb : s.cfg.pyroMsbFirst
  · simp [frameByte, hmsb]
  · simp [frameByte, hmsb, getLsbD_reverseByte _ i hi]

/-- A good frame delivers its byte with the receiver READY (R58). -/
theorem State.takeFrame_of_good {s : State} {f : Frame} {b : Byte} (hgood : FrameGood s f) (hb : FrameCarries s f b) :
    s.takeFrame f = (s.setRx .ready).takeByte b := by
  simp [State.takeFrame, inFrame_of_frameGood hgood, stopsGood_of_frameGood hgood, parityGood_of_frameGood hgood,
    frameByte_eq_of_carries hb]

/-! ### The check of a complete telegram (R63) -/

theorem status_mask_eq_one_iff (b : Byte) :
    b &&& 0x07#8 = 0x01#8 ↔ b.getLsbD 0 = true ∧ b.getLsbD 1 = false ∧ b.getLsbD 2 = false := by
  constructor
  · intro h
    have hbit : ∀ i, (b &&& 0x07#8).getLsbD i = (0x01#8).getLsbD i := fun i => by rw [h]
    exact ⟨by simpa using hbit 0, by simpa using hbit 1, by simpa using hbit 2⟩
  · rintro ⟨h0, h1, h2⟩
    refine BitVec.eq_of_getLsbD_eq fun i hi => ?_
    interval_cases i <;> simp_all

theorem checkTelegram_of_badSum {status hi lo check : Byte}
    (hsum : (0x5C + status.toNat + hi.toNat + lo.toNat + check.toNat) % 256 ≠ 0) :
    checkTelegram status hi lo check = .checksumError := if_pos hsum

/-- Past the sum, the status bits and the temperature bound decide between rejection and acceptance. -/
theorem checkTelegram_of_goodSum {status hi lo check : Byte}
    (hsum : (0x5C + status.toNat + hi.toNat + lo.toNat + check.toNat) % 256 = 0) :
    checkTelegram status hi lo check =
      if (status.getLsbD 0 = true ∧ status.getLsbD 1 = false ∧ status.getLsbD 2 = false) ∧ hi.toNat * 256 + lo.toNat ≤ 20000
      then .accepted (hi.toNat * 256 + lo.toNat) else .rejected := by
  have hpast : ¬(Config.marker.toNat + status.toNat + hi.toNat + lo.toNat + check.toNat) % 256 ≠ 0 := not_not_intro hsum
  simp only [checkTelegram, if_neg hpast, ← status_mask_eq_one_iff]
  by_cases hstatus : status &&& 0x07#8 = 0x01#8
  · by_cases htemp : 20000 < hi.toNat * 256 + lo.toNat
    · simp [hstatus, htemp]
    · simp [hstatus, htemp, Nat.not_lt.mp htemp]
  · simp [hstatus]

/-! ### The words of the link (R64, R65, R67) -/

theorem State.countAccepted_wrote (s : State) :
    Wrote s s.countAccepted (ifChanged (s.link.counters.accepted ≠ sat16 s.link.counters.accepted) stCounters
      (toWord (sat16 s.link.counters.accepted))) :=
  (s.count_effect 0 _ (by decide)).2

theorem State.countChecksum_wrote (s : State) :
    Wrote s s.countChecksum (ifChanged (s.link.counters.checksum ≠ sat16 s.link.counters.checksum) (stCounters + 3)
      (toWord (sat16 s.link.counters.checksum))) :=
  (s.count_effect 3 _ (by decide)).2

theorem State.countRejected_wrote (s : State) :
    Wrote s s.countRejected (ifChanged (s.link.counters.rejected ≠ sat16 s.link.counters.rejected) (stCounters + 5)
      (toWord (sat16 s.link.counters.rejected))) :=
  (s.count_effect 5 _ (by decide)).2

theorem State.setSurface_wrote (s : State) (n : Nat) :
    Wrote s (s.setSurface n) (ifChanged (s.link.tSurf ≠ n) stTSurf (toWord n)) :=
  (wrote_putIf _ _ stTSurf _ (by decide)).of_mem rfl rfl

theorem State.setAge_wrote (s : State) (n : Nat) : Wrote s (s.setAge n) (ifChanged (s.link.age ≠ n) stAge (toWord n)) :=
  (wrote_putIf _ _ stAge _ (by decide)).of_mem rfl rfl

theorem State.setSource_wrote (s : State) (x : TempSource) :
    Wrote s (s.setSource x) (ifChanged (s.link.source ≠ x) stSource (sourceCode x)) :=
  (wrote_putIf _ _ stSource _ (by decide)).of_mem rfl rfl

theorem State.countChecksum_eq_withMem (s : State) :
    s.countChecksum = { s with
      mem := s.countChecksum.mem
      link := { s.link with counters := { s.link.counters with checksum := sat16 s.link.counters.checksum } } } := rfl

theorem State.countRejected_eq_withMem (s : State) :
    s.countRejected = { s with
      mem := s.countRejected.mem
      link := { s.link with counters := { s.link.counters with rejected := sat16 s.link.counters.rejected } } } := rfl

/-- A later word at an address not written before may be listed last. -/
theorem wrote_append_ifChanged {s t u : State} {ws : List (Nat × Word)} {c : Bool} {a : Nat} {v : Word} (h : Wrote s t ws)
    (g : Wrote t u (ifChanged c a v)) (hnew : ws.lookup a = none) : Wrote s u (ws ++ ifChanged c a v) := by
  refine (h.trans g).congr fun b _ => ?_
  rw [lookup_append, lookup_append, lookup_ifChanged]
  by_cases hb : c = true ∧ b = a
  · rw [hb.2, hnew, Option.none_or, if_pos ⟨hb.1, rfl⟩, Option.some_or]
  · rw [if_neg hb, Option.or_none, Option.none_or]

/-- Acceptance publishes the counter, the held temperature, the age and the source, each where it changes (R64). -/
theorem State.acceptTelegram_wrote (s : State) (temp : Nat) :
    Wrote s (s.acceptTelegram temp)
      (ifChanged (s.link.counters.accepted ≠ sat16 s.link.counters.accepted) stCounters (toWord (sat16 s.link.counters.accepted))
        ++ ifChanged (s.link.tSurf ≠ temp) stTSurf (toWord temp) ++ ifChanged (s.link.age ≠ 0) stAge 0#16
        ++ ifChanged (s.link.source ≠ .live) stSource 1#16) := by
  have hcount := s.countAccepted_wrote
  have hsurface := wrote_append_ifChanged hcount (s.countAccepted.setSurface_wrote temp)
    (by simp [lookup_ifChanged, stCounters, stTSurf])
  have hage := wrote_append_ifChanged hsurface ((s.countAccepted.setSurface temp).setAge_wrote 0)
    (by simp [lookup_append, lookup_ifChanged, stCounters, stTSurf, stAge])
  have hsource := wrote_append_ifChanged hage (((s.countAccepted.setSurface temp).setAge 0).setSource_wrote .live)
    (by simp [lookup_append, lookup_ifChanged, stCounters, stTSurf, stAge, stSource])
  rw [State.acceptTelegram]
  exact hsource.of_mem rfl (State.modLink_mem _ _)

theorem State.acceptTelegram_link (s : State) (temp : Nat) :
    (s.acceptTelegram temp).link = { s.link with
      tSurf := temp, source := .live, age := 0, ageAt := s.now,
      counters := { s.link.counters with accepted := sat16 s.link.counters.accepted } } := by
  simp [State.acceptTelegram, State.setSource, State.setAge, State.setSurface, State.countAccepted, State.count]

/-- Acceptance changes the memory and the link, its age restarted now, and nothing else (R64). -/
theorem State.acceptTelegram_eq_withMem (s : State) (temp : Nat) :
    s.acceptTelegram temp = { s with
      mem := (s.acceptTelegram temp).mem
      link := { s.link with
        tSurf := temp, source := .live, age := 0, ageAt := s.now,
        counters := { s.link.counters with accepted := sat16 s.link.counters.accepted } } } := by
  rw [← State.acceptTelegram_link]
  have hframe := s.acceptTelegram_frame temp
  generalize s.acceptTelegram temp = u at hframe ⊢
  cases u
  simp only [State.mk.injEq] at hframe ⊢
  simp only [hframe, and_self]

/-! ### The fourth byte of a telegram -/

/-- The link that a complete telegram is judged in: the receiver READY, the assembler awaiting a marker (R60). -/
def Link.telegramDone (l : Link) : Link := { l with rx := { l.rx with state := .ready }, asm := .awaitMarker, gapAt := none }

theorem State.dropTelegram_setRx_ready (s : State) :
    (s.setRx .ready).dropTelegram = { s with link := s.link.telegramDone } := rfl

theorem State.takeByte_of_fourth {s : State} {x y z : Byte} (hasm : s.link.asm = .collecting [x, y, z]) (b : Byte) :
    s.takeByte b = s.dropTelegram.judgeTelegram x y z b := by
  simp only [State.takeByte, hasm]

/-- The fourth good byte hands the telegram to its check (R60, R63). -/
theorem exec_pyroFrame_completes {s : State} {f : Frame} {status hi lo check : Byte} (hgood : FrameGood s f)
    (hb : FrameCarries s f check) (hasm : s.link.asm = .collecting [status, hi, lo]) :
    exec (.pyroFrame f) s = .next (State.judgeTelegram { s with link := s.link.telegramDone } status hi lo check) := by
  have harm : exec (.pyroFrame f) s = .next (s.takeFrame f) := rfl
  rw [harm, State.takeFrame_of_good hgood hb, State.takeByte_of_fourth (s := s.setRx .ready) hasm, State.dropTelegram_setRx_ready]

/-- Settles O35: the fourth byte is judged by `checkTelegram`, whose three results are one counter each, the accepted one with the held
temperature, age and source besides. -/
theorem telegramIsCheckedAndAccepted : Obligations.TelegramIsCheckedAndAccepted := by
  intro s f status hi lo check hgood hb hasm
  rw [exec_pyroFrame_completes hgood hb hasm, State.judgeTelegram]
  refine ⟨fun hsum => ?_, fun hsum hbad => ?_, fun hsum hstatus htemp => ?_⟩
  · rw [checkTelegram_of_badSum hsum]
    exact ⟨_, rfl, State.countChecksum_eq_withMem _, (State.countChecksum_wrote _).of_mem rfl rfl⟩
  · rw [checkTelegram_of_goodSum hsum, if_neg hbad]
    exact ⟨_, rfl, State.countRejected_eq_withMem _, (State.countRejected_wrote _).of_mem rfl rfl⟩
  · rw [checkTelegram_of_goodSum hsum, if_pos ⟨hstatus, htemp⟩]
    refine ⟨_, rfl, State.acceptTelegram_eq_withMem _ _, ?_⟩
    exact (State.acceptTelegram_wrote { s with link := s.link.telegramDone } _).of_mem rfl rfl

end Sys2Proof.Machine
end

section
/-! PROOFS. The thickness computer: where an echo train is cut (R73), the effective temperature (R75, R76), the velocity and the
thickness as "nearest" of their quotients (R77 to R79), and the record that the band decides (R80 to R82). -/

namespace Sys2Proof.Machine

open Safety

/-! ### The echo train (R73) -/

/-- Interval `i` of a train, from echo `i` to echo `i + 1`. -/
def intervalAt (echoes : List Nat) (i : Nat) : Nat := echoes.getD (i + 1) 0 - echoes.getD i 0

@[simp] theorem intervalAt_cons_succ (e : Nat) (es : List Nat) (i : Nat) : intervalAt (e :: es) (i + 1) = intervalAt es i := rfl

@[simp] theorem intervalAt_zero (e1 e2 : Nat) (es : List Nat) : intervalAt (e1 :: e2 :: es) 0 = e2 - e1 := rfl

theorem length_intervals_cons (e : Nat) (es : List Nat) : (intervals (e :: es)).length = es.length := by
  induction es generalizing e with
  | nil => rfl
  | cons e' es ih => rw [intervals, List.length_cons, ih, List.length_cons]

theorem getElem_intervals (e : Nat) (es : List Nat) (i : Nat) (h : i < (intervals (e :: es)).length) :
    (intervals (e :: es))[i] = intervalAt (e :: es) i := by
  induction es generalizing e i with
  | nil => exact absurd h (Nat.not_lt_zero i)
  | cons e' es ih =>
    cases i with
    | zero => rfl
    | succ i => exact ih e' i (Nat.lt_of_succ_lt_succ h)

theorem keeps_iff_abs_sub_le (dRef tol d : Nat) : keeps dRef tol d = true ↔ |(d : Int) - dRef| ≤ tol := by
  rw [keeps, decide_eq_true_iff, abs_le]
  omega

/-- Whether an interval ends the train: it is off the reference by more than the tolerance. -/
def endsTrain (dRef ctol d : Nat) : Bool := !keeps dRef (tolerance dRef ctol) d

theorem endsTrain_eq_true_iff (dRef ctol d : Nat) :
    endsTrain dRef ctol d = true ↔ ((dRef * ctol / 256 : Nat) : Int) < |(d : Int) - dRef| := by
  rw [endsTrain, Bool.not_eq_true', Bool.eq_false_iff, ne_eq, keeps_iff_abs_sub_le, not_le, tolerance]

theorem endsTrain_eq_false_iff (dRef ctol d : Nat) :
    endsTrain dRef ctol d = false ↔ |(d : Int) - dRef| ≤ ((dRef * ctol / 256 : Nat) : Int) := by
  rw [Bool.eq_false_iff, ne_eq, endsTrain_eq_true_iff, not_lt]

/-- Two echoes, and one more for each interval after the first up to one that ends the train. -/
theorem trainLength_eq_findIdx (ctol e1 e2 : Nat) (es : List Nat) :
    trainLength ctol (e1 :: e2 :: es) = 2 + (intervals (e2 :: es)).findIdx (endsTrain (e2 - e1) ctol) := by
  have hle := List.findIdx_le_length (p := endsTrain (e2 - e1) ctol) (xs := intervals (e2 :: es))
  simp only [trainLength, intervals, List.takeWhile_eq_take_findIdx_not, List.length_take]
  rw [← Nat.min_eq_left hle]
  rfl

theorem two_le_trainLength (ctol e1 e2 : Nat) (es : List Nat) : 2 ≤ trainLength ctol (e1 :: e2 :: es) := by
  rw [trainLength_eq_findIdx]
  exact Nat.le_add_right 2 _

theorem trainLength_le_length (ctol e1 e2 : Nat) (es : List Nat) :
    trainLength ctol (e1 :: e2 :: es) ≤ (e1 :: e2 :: es).length := by
  have hle := List.findIdx_le_length (p := endsTrain (e2 - e1) ctol) (xs := intervals (e2 :: es))
  rw [length_intervals_cons] at hle
  rw [trainLength_eq_findIdx, List.length_cons, List.length_cons]
  omega

/-- Every interval of the train lies within the tolerance of the first one. -/
theorem abs_intervalAt_sub_le_of_lt_trainLength {ctol e1 e2 : Nat} {es : List Nat} {i : Nat}
    (hi : i + 1 < trainLength ctol (e1 :: e2 :: es)) :
    |(intervalAt (e1 :: e2 :: es) i : Int) - ((e2 - e1 : Nat) : Int)| ≤ (((e2 - e1) * ctol / 256 : Nat) : Int) := by
  cases i with
  | zero =>
    rw [intervalAt_zero, sub_self, abs_zero]
    exact Int.natCast_nonneg _
  | succ i =>
    rw [trainLength_eq_findIdx] at hi
    have hkept := List.not_of_lt_findIdx (show i < (intervals (e2 :: es)).findIdx (endsTrain (e2 - e1) ctol) by omega)
    rwa [getElem_intervals, endsTrain_eq_false_iff] at hkept

/-- A train shorter than its echoes stops before an interval off the first one by more than the tolerance. -/
theorem lt_abs_intervalAt_sub_of_trainLength_lt {ctol e1 e2 : Nat} {es : List Nat}
    (hm : trainLength ctol (e1 :: e2 :: es) < (e1 :: e2 :: es).length) :
    (((e2 - e1) * ctol / 256 : Nat) : Int)
      < |(intervalAt (e1 :: e2 :: es) (trainLength ctol (e1 :: e2 :: es) - 1) : Int) - ((e2 - e1 : Nat) : Int)| := by
  rw [trainLength_eq_findIdx] at hm ⊢
  generalize hj : (intervals (e2 :: es)).findIdx (endsTrain (e2 - e1) ctol) = j at hm ⊢
  have hlt : (intervals (e2 :: es)).findIdx (endsTrain (e2 - e1) ctol) < (intervals (e2 :: es)).length := by
    rw [length_intervals_cons, hj]
    simp only [List.length_cons] at hm
    omega
  have hends := List.findIdx_getElem (w := hlt)
  rw [getElem_intervals, endsTrain_eq_true_iff, hj] at hends
  rwa [show 2 + j - 1 = j + 1 by omega]

/-! ### The effective temperature (R75, R76) -/

theorem effTemp_tEff (source : TempSource) (tSurf : Nat) (r : Recipe) :
    ((effTemp source tSurf r).tEff : Int)
      = max 6000 (min ((if source = .live then (tSurf : Int) else r.fallbackT) + r.coreOffset) 14000) := by
  rw [effTemp, baseTemp, Nat.cast_ite]
  exact Int.toNat_of_nonneg (le_max_of_le_left (by decide))

theorem effTemp_clamped_iff (source : TempSource) (tSurf : Nat) (r : Recipe) :
    (effTemp source tSurf r).clamped = true
      ↔ (if source = .live then (tSurf : Int) else r.fallbackT) + r.coreOffset < 6000
        ∨ 14000 < (if source = .live then (tSurf : Int) else r.fallbackT) + r.coreOffset := by
  simp only [effTemp, baseTemp, Nat.cast_ite, Bool.or_eq_true, decide_eq_true_iff]

theorem effTemp_fallback_iff (source : TempSource) (tSurf : Nat) (r : Recipe) :
    (effTemp source tSurf r).fallback = true ↔ source ≠ .live := decide_eq_true_iff

/-! ### Velocity and thickness (R77 to R79) -/

theorem velocityAt_eq_getElem (r : Recipe) {i : Nat} (hi : i < 17) : velocityAt r i = r.velocity[i] := by
  simp [velocityAt, hi]

/-- The velocity is the lower table point's plus "nearest" of the step along the table interval, whatever the temperature (R77). -/
theorem velocityOfTemp_interpolates (r : Recipe) (tEff : Nat) :
    ∃ (i : Nat) (hi : i + 1 < 17), i = min 15 ((tEff - 6000) / 500)
      ∧ IsNearest (((r.velocity[i + 1] : Int) - (r.velocity[i] : Int)) * ((tEff : Int) - (6000 + 500 * (i : Int)))) 500
          (velocityOfTemp r tEff - (r.velocity[i] : Int)) := by
  have hi : min 15 ((tEff - 6000) / 500) + 1 < 17 := by omega
  refine ⟨_, hi, rfl, ?_⟩
  rw [velocityOfTemp, velocityAt_eq_getElem r hi, velocityAt_eq_getElem r (Nat.lt_of_succ_lt hi), add_sub_cancel_left]
  exact nearestInt_isNearest _ 500 (by decide)

theorem trimVelocity_isNearest (v trim : Int) : IsNearest (v * (4096 + trim)) 4096 (trimVelocity v trim) :=
  nearestInt_isNearest _ 4096 (by decide)

theorem thickness_isNearest (vEff : Int) (span : Nat) {m : Nat} (hm : 2 ≤ m) :
    IsNearest (vEff * span) (8000 * (m - 1) : Nat) (thickness vEff span m) :=
  nearestInt_isNearest _ _ (by omega)

/-! ### The record (R72, R80 to R82) -/

theorem inBand_iff (r : Recipe) (t : Int) :
    inBand r t = true ↔ (r.tnom : Int) - r.bandLo ≤ t ∧ t ≤ (r.tnom : Int) + r.bandHi := by
  rw [inBand, Bool.and_eq_true, decide_eq_true_iff, decide_eq_true_iff]

theorem confirmedRecord_of_noEcho (k : Head) (sh : Shot) (e : EffTemp) (cut : Bool) :
    confirmedRecord k sh e { echoes := [], cut := cut } = bareRecord k sh e .noEcho cut := rfl

theorem confirmedRecord_of_oneEcho (k : Head) (sh : Shot) (e : EffTemp) (e1 : Nat) (cut : Bool) :
    confirmedRecord k sh e { echoes := [e1], cut := cut } = bareRecord k sh e .noPair cut := rfl

theorem confirmedRecord_of_echoes (k : Head) (sh : Shot) (e : EffTemp) (e1 e2 : Nat) (es : List Nat) (cut : Bool) :
    confirmedRecord k sh e { echoes := e1 :: e2 :: es, cut := cut }
      = measuredRecord k sh e { echoes := e1 :: e2 :: es, cut := cut } := rfl

/-- The thickness that the band judges in a shot with at least two echoes (R78, R79). -/
def thicknessOf (r : Recipe) (tEff : Nat) (echoes : List Nat) : Int :=
  thickness (trimVelocity (velocityOfTemp r tEff) r.trim) (trainSpan echoes (trainLength r.ctol echoes)) (trainLength r.ctol echoes)

theorem measuredRecord_of_inBand {k : Head} {sh : Shot} {e : EffTemp} {x : EchoResult}
    (h : inBand sh.bound.recipe (thicknessOf sh.bound.recipe e.tEff x.echoes) = true) :
    measuredRecord k sh e x = { bareRecord k sh e .valid x.cut with
      t := (thicknessOf sh.bound.recipe e.tEff x.echoes).toNat
      shortTrain := trainLength sh.bound.recipe.ctol x.echoes < x.echoes.length } := by
  rw [thicknessOf] at h
  simp only [measuredRecord, thicknessOf, h, if_true]

theorem measuredRecord_of_not_inBand {k : Head} {sh : Shot} {e : EffTemp} {x : EchoResult}
    (h : ¬inBand sh.bound.recipe (thicknessOf sh.bound.recipe e.tEff x.echoes) = true) :
    measuredRecord k sh e x = { bareRecord k sh e .outOfBand x.cut with
      shortTrain := trainLength sh.bound.recipe.ctol x.echoes < x.echoes.length } := by
  rw [thicknessOf] at h
  simp only [measuredRecord, h]
  rfl

/-- The band decides the outcome, and only a thickness in the band is recorded (R80). -/
theorem measuredRecord_judged (k : Head) (sh : Shot) (e : EffTemp) (x : EchoResult) :
    let r := sh.bound.recipe
    let t := thicknessOf r e.tEff x.echoes
    let o := measuredRecord k sh e x
    (o.outcome = .valid ↔ (r.tnom : Int) - r.bandLo ≤ t ∧ t ≤ (r.tnom : Int) + r.bandHi)
      ∧ (o.outcome = .valid ∨ o.outcome = .outOfBand)
      ∧ (o.outcome = .valid → r.bandLo ≤ r.tnom → (o.t : Int) = t)
      ∧ (o.outcome = .outOfBand → o.t = 0) := by
  intro r t o
  rw [← inBand_iff]
  by_cases h : inBand r t = true
  · have ho : o = _ := measuredRecord_of_inBand h
    rw [ho]
    refine ⟨iff_of_true rfl h, .inl rfl, fun _ hlo => ?_, nofun⟩
    obtain ⟨hge, -⟩ := (inBand_iff r t).1 h
    have hnonneg : 0 ≤ t := by omega
    exact Int.toNat_of_nonneg hnonneg
  · have ho : o = _ := measuredRecord_of_not_inBand h
    rw [ho]
    exact ⟨iff_of_false nofun h, .inr rfl, nofun, fun _ => rfl⟩

/-- Settles O32: the train by the index of the first interval that ends it, the quotients by `nearestInt_isNearest`, and the record by
whether its thickness lies in the band. -/
theorem thicknessOfConfirmedShot : Obligations.ThicknessOfConfirmedShot := by
  refine ⟨fun k sh source tSurf e1 e2 es cut => ?_, fun r tEff _ _ => velocityOfTemp_interpolates r tEff,
    fun k sh temp e cut => ⟨?_, ?_⟩⟩
  · intro r echoes interval off tol base temp m vEff span t rec0
    have hrec : rec0 = _ := confirmedRecord_of_echoes k sh temp e1 e2 es cut
    rw [hrec]
    obtain ⟨hvalid, hdecided, ht, hnone⟩ := measuredRecord_judged k sh temp { echoes := echoes, cut := cut }
    have hm : 2 ≤ m := two_le_trainLength r.ctol e1 e2 es
    exact ⟨effTemp_tEff source tSurf r, effTemp_clamped_iff source tSurf r, effTemp_fallback_iff source tSurf r,
      hm, trainLength_le_length r.ctol e1 e2 es, fun _ => abs_intervalAt_sub_le_of_lt_trainLength,
      lt_abs_intervalAt_sub_of_trainLength_lt, thickness_isNearest vEff span hm, trimVelocity_isNearest _ _,
      hvalid, hdecided, ht, hnone, decide_eq_true_iff, rfl, rfl, rfl, rfl⟩
  · rintro o rfl
    rw [confirmedRecord_of_noEcho]
    exact ⟨rfl, rfl, rfl, rfl, rfl, rfl, rfl, rfl⟩
  · rintro o rfl
    rw [confirmedRecord_of_oneEcho]
    exact ⟨rfl, rfl, rfl, rfl, rfl, rfl, rfl, rfl⟩

end Sys2Proof.Machine
end

section
/-! PROOFS. The fire decision that fires (R18, R19, R22): the conditions of R19 as the model tests them, and the stamp that the shot in
flight carries (R99, R100). -/

namespace Sys2Proof.Machine

/-! ### The conditions of R19 -/

theorem State.fireDecision_of_quiet {s : State} {k : Head} {at0 count : Nat}
    (hslot : s.slot = some { head := k, startAt := at0, phase := .quiet count }) : s.fireDecision = s.takeDecision k count := by
  simp only [State.fireDecision, hslot]

theorem State.maskedOrder_of_inMask {s : State} {k : Head} {n : Snapshot} (horder : s.tubeOrder = some n)
    (hmask : inMask n.recipe.headMask k = true) : s.maskedOrder k = some n := by
  rw [State.maskedOrder, horder, Option.filter_some, if_pos hmask]

theorem State.mayFire_iff (s : State) (k : Head) :
    s.mayFire k = true ↔ s.gauge = .measuring ∧ s.firing = .permitted ∧ s.heads[k].state = .on := by
  simp only [State.mayFire, Bool.and_eq_true, beq_iff_eq, and_assoc]

/-- Condition 5 of R19: a quiet gate of 0 sees no count, so every noise limit is met (R44). -/
theorem State.gateCount_le_iff (s : State) (count limit : Nat) :
    s.gateCount count ≤ limit ↔ s.cfg.quietGate = 0 ∨ count ≤ limit := by
  by_cases hgate : s.cfg.quietGate = 0 <;> simp [State.gateCount, hgate]

/-- A decision that meets the five conditions of R19 is FIRE. -/
theorem State.takeDecision_eq_fire {s : State} {k : Head} {count : Nat} {n : Snapshot} (horder : s.maskedOrder k = some n)
    (hmay : s.mayFire k = true) (hcount : s.gateCount count ≤ n.recipe.noiseLimit) : s.takeDecision k count = s.fire k n := by
  simp only [State.takeDecision, horder, if_pos hmay, if_pos hcount]

/-! ### FIRE and its stamp (R22, R99, R100) -/

theorem twistAngle_eq_ite (w : Twist) (raw : Nat) : twistAngle w raw = if w = .cw then raw else (65536 - raw) % 65536 := by
  cases w <;> rfl

/-- The angle of R100 with its three steps in one line. -/
theorem stampAngle_eq (r : Recipe) (headAngle z : Nat) :
    stampAngle r headAngle z =
      ((if r.twist = .cw then z % r.pitch * 65536 / r.pitch else (65536 - z % r.pitch * 65536 / r.pitch) % 65536) + headAngle)
        % 65536 := by
  rw [stampAngle, twistAngle_eq_ite, rawAngle]

/-- FIRE changes the phase of the slot and the pulse count of its head, and nothing else (R22). -/
theorem State.fire_of_slot {s : State} {k : Head} {at0 : Nat} {p : Phase} (n : Snapshot)
    (hslot : s.slot = some { head := k, startAt := at0, phase := p }) :
    s.fire k n = { s with
      slot := some { head := k, startAt := at0, phase := .awaitConf (s.newShot k n) }
      heads := vset s.heads k { s.heads[k] with fires := s.heads[k].fires + 1 } } := by
  simp only [State.fire, State.pulse, State.setPhase, hslot, Option.map_some]

/-- Settles O24: the five conditions of R19 lead `takeDecision` to FIRE, whose shot carries the angle of `stampAngle_eq`. -/
theorem fireDecisionFiresHead : Obligations.FireDecisionFiresHead := by
  intro s k at0 count n hslot hgauge horder hmask hfiring hhead hgate
  have hdecision : s.fireDecision = s.fire k n := by
    rw [State.fireDecision_of_quiet hslot]
    exact State.takeDecision_eq_fire (State.maskedOrder_of_inMask horder hmask)
      ((s.mayFire_iff k).2 ⟨hgauge, hfiring, hhead⟩) ((s.gateCount_le_iff count _).2 hgate)
  have harm : exec .fireDecision s = .next s.fireDecision := rfl
  rw [harm, hdecision, State.fire_of_slot n hslot]
  simp only [State.newShot, State.stampFor, stampAngle_eq]

end Sys2Proof.Machine
end

section
/-! PROOFS. Completed sections (chapter 7): the statistics of a section (R113 to R116), its thin sector, its eccentricity (R117, R118),
and the words of its block (Table 11-9). -/

namespace Sys2Proof.Machine

open Safety

/-! ### Tables as lists over their places -/

theorem toList_eq_ofFn {α : Type} {n : Nat} (v : Vector α n) : v.toList = List.ofFn (fun i : Fin n => v[i]) := by
  rw [← Vector.toList_ofFn]
  exact congrArg Vector.toList (Vector.ext fun i hi => by simp)

/-- The sectors with a count, by rising number (R116). -/
def occupiedSectors (a : Accum) : List (Fin 32) := (List.finRange 32).filter (fun i => a.counts[i] ≠ 0)

theorem mem_occupiedSectors (a : Accum) (i : Fin 32) : i ∈ occupiedSectors a ↔ a.counts[i] ≠ 0 := by
  simp [occupiedSectors]

theorem occupiedOf_eq_length (a : Accum) : occupiedOf a = (occupiedSectors a).length := by
  rw [occupiedOf, toList_eq_ofFn, List.ofFn_eq_map, List.filter_map, List.length_map]
  rfl

/-! ### Sector means (R116) -/

theorem sectorMeans_of_empty {a : Accum} {i : Fin 32} (h : a.counts[i] = 0) : (sectorMeans a)[i] = 0 := by
  simpa [sectorMeans] using fun hne => absurd h hne

theorem sectorMeans_isNearest {a : Accum} {i : Fin 32} (h : a.counts[i] ≠ 0) :
    IsNearest a.sums[i] a.counts[i] (sectorMeans a)[i] := by
  have hmean : (sectorMeans a)[i] = nearestNat a.sums[i] a.counts[i] := by
    simpa [sectorMeans] using fun h0 => absurd h0 h
  rw [hmean]
  exact nearestNat_isNearest _ _ (Nat.pos_of_ne_zero h)

/-! ### The thin sector (R116) -/

theorem occupiedMeans_ofFn {n : Nat} (c m : Fin n → Nat) (k : Nat) :
    occupiedMeans (List.ofFn c) (List.ofFn m) k
      = ((List.finRange n).filter (fun i => c i ≠ 0)).map (fun i => (k + i.val, m i)) := by
  induction n generalizing k with
  | zero => rfl
  | succ n ih =>
    rw [List.ofFn_succ, List.ofFn_succ, occupiedMeans, ih, List.finRange_succ, List.filter_cons, List.filter_map]
    by_cases h0 : c 0 = 0 <;> simp [h0, Function.comp_def, Nat.add_comm, Nat.add_left_comm]

theorem occupiedMeans_eq_map (a : Accum) :
    occupiedMeans a.counts.toList (sectorMeans a).toList 0
      = (occupiedSectors a).map (fun i => (i.val, (sectorMeans a)[i])) := by
  rw [toList_eq_ofFn, toList_eq_ofFn, occupiedMeans_ofFn]
  simp only [Nat.zero_add, occupiedSectors]

theorem occupiedMeans_pairwise (a : Accum) :
    (occupiedMeans a.counts.toList (sectorMeans a).toList 0).Pairwise (fun p q => p.1 < q.1) := by
  rw [occupiedMeans_eq_map]
  exact List.pairwise_map.2 ((List.pairwise_lt_finRange 32).filter _)

theorem thinnest_eq_none_iff (l : List (Nat × Nat)) : thinnest l = none ↔ l = [] := by
  cases l with
  | nil => simp [thinnest]
  | cons x xs =>
    rw [thinnest]
    split
    · simp
    · split <;> simp

/-- In a list of rising numbers `thinnest` finds a least value, and the values before it are greater. -/
theorem thinnest_spec {l : List (Nat × Nat)} {x : Nat × Nat} (hrise : l.Pairwise (fun p q => p.1 < q.1))
    (h : thinnest l = some x) : x ∈ l ∧ ∀ y ∈ l, x.2 ≤ y.2 ∧ (y.1 < x.1 → x.2 < y.2) := by
  induction l generalizing x with
  | nil => cases h
  | cons z zs ih =>
    obtain ⟨hz, hzs⟩ := List.pairwise_cons.1 hrise
    rw [thinnest] at h
    split at h
    next hnone =>
      obtain rfl := (thinnest_eq_none_iff zs).1 hnone
      obtain rfl := Option.some.inj h
      simp
    next y hsome =>
      obtain ⟨hy, hleast⟩ := ih hzs hsome
      split at h
      next hlt =>
        obtain rfl := Option.some.inj h
        exact ⟨List.mem_cons_of_mem _ hy, List.forall_mem_cons.2 ⟨⟨hlt.le, fun _ => hlt⟩, hleast⟩⟩
      next hge =>
        obtain rfl := Option.some.inj h
        refine ⟨List.mem_cons_self, List.forall_mem_cons.2 ⟨⟨le_rfl, fun hlt => absurd hlt (lt_irrefl _)⟩, fun w hw => ?_⟩⟩
        exact ⟨(not_lt.1 hge).trans (hleast w hw).1, fun hlt => absurd hlt (hz w hw).not_gt⟩

/-- The number of the thin sector of an accumulator, as the model finds it. -/
def thinSector (a : Accum) : Option Nat := (thinnest (occupiedMeans a.counts.toList (sectorMeans a).toList 0)).map Prod.fst

theorem thinSector_eq_none_iff (a : Accum) : thinSector a = none ↔ occupiedOf a = 0 := by
  rw [thinSector, Option.map_eq_none_iff, thinnest_eq_none_iff, occupiedMeans_eq_map, List.map_eq_nil_iff, occupiedOf_eq_length,
    List.length_eq_zero_iff]

/-- The thin sector is the first of the least occupied means. -/
theorem thinSector_eq_some {a : Accum} {i : Nat} (h : thinSector a = some i) :
    ∃ h : i < 32, a.counts[i] ≠ 0
      ∧ (∀ k : Fin 32, a.counts[k] ≠ 0 → (sectorMeans a)[i] ≤ (sectorMeans a)[k])
      ∧ ∀ k : Fin 32, k.val < i → a.counts[k] ≠ 0 → (sectorMeans a)[i] < (sectorMeans a)[k] := by
  obtain ⟨x, hx, hxi⟩ := Option.map_eq_some_iff.1 h
  obtain ⟨hmem, hleast⟩ := thinnest_spec (occupiedMeans_pairwise a) hx
  rw [occupiedMeans_eq_map] at hmem hleast
  obtain ⟨j, hj, rfl⟩ := List.mem_map.1 hmem
  obtain rfl : j.val = i := hxi
  simp only [List.forall_mem_map, mem_occupiedSectors] at hj hleast
  exact ⟨j.isLt, hj, fun k hk => (hleast k hk).1, fun k hlt hk => (hleast k hk).2 hlt⟩

/-! ### Eccentricity (R117) -/

theorem weighted_ofFn {n : Nat} (m : Fin n → Nat) (w : Fin n → Int) :
    weighted (List.ofFn m) (List.ofFn w) = ((List.finRange n).map (fun i => (m i : Int) * w i)).sum := by
  induction n with
  | zero => rfl
  | succ n ih => simp [weighted, ih, List.finRange_succ, Function.comp_def]

/-- The weighted sum of R117, step 2, with either weight `g` of Table 7-4. -/
theorem weighted_eq_sum (ms : Vector Nat 32) (g : Int × Int → Int) :
    weighted ms.toList (weights.map g)
      = ((List.finRange 32).map (fun i => ((ms[i] : Nat) : Int) * g (weights.getD i.val (0, 0)))).sum := by
  have hw : weights.map g = List.ofFn (fun i : Fin 32 => g (weights.getD i.val (0, 0))) := rfl
  rw [hw, toList_eq_ofFn, weighted_ofFn]

theorem eccentricity_le (ms : List Nat) (occ : Nat) : eccentricity ms occ ≤ 1000 := Nat.min_le_left _ _

/-- The floor of the square root of a sum of two squares of integers. -/
theorem isqrt_sumSquares_spec (c s : Int) :
    let q := isqrt (c * c + s * s).toNat
    ((q * q : Nat) : Int) ≤ c * c + s * s ∧ c * c + s * s < (((q + 1) * (q + 1) : Nat) : Int) := by
  intro q
  obtain ⟨hle, hlt⟩ := isqrt_spec (c * c + s * s).toNat
  have hpos : 0 ≤ c * c + s * s := Int.add_nonneg (mul_self_nonneg c) (mul_self_nonneg s)
  exact ⟨(Int.le_toNat hpos).1 hle, (Int.toNat_lt hpos).1 hlt⟩

/-- The steps of R117 over at least one occupied sector, each rounded as the rule has it. -/
theorem eccentricity_spec (ms : Vector Nat 32) {occ : Nat} (hocc : 0 < occ) :
    ∃ (mean amp q : Nat) (cr sr : Int),
      IsNearest ms.toList.sum occ mean
      ∧ IsNearest (((List.finRange 32).map (fun i => ((ms[i] : Nat) : Int) * (weights.getD i.val (0, 0)).1)).sum) 16384 cr
      ∧ IsNearest (((List.finRange 32).map (fun i => ((ms[i] : Nat) : Int) * (weights.getD i.val (0, 0)).2)).sum) 16384 sr
      ∧ ((q * q : Nat) : Int) ≤ cr * cr + sr * sr ∧ cr * cr + sr * sr < (((q + 1) * (q + 1) : Nat) : Int)
      ∧ IsNearest ((2 * q : Nat) : Int) occ amp
      ∧ (mean ≠ 0 → ∃ e : Nat, IsNearest ((1000 * amp : Nat) : Int) mean e ∧ eccentricity ms.toList occ = min 1000 e) := by
  rw [← weighted_eq_sum ms Prod.fst, ← weighted_eq_sum ms Prod.snd]
  obtain ⟨hle, hlt⟩ := isqrt_sumSquares_spec _ _
  exact ⟨_, _, _, _, _, nearestNat_isNearest _ _ hocc, nearestInt_isNearest _ _ (by decide), nearestInt_isNearest _ _ (by decide),
    hle, hlt, nearestNat_isNearest _ _ hocc,
    fun hmean => ⟨_, nearestNat_isNearest _ _ (Nat.pos_of_ne_zero hmean), rfl⟩⟩

/-! ### What a completed section carries (R113 to R118) -/

section
variable (lSec occMin endZ : Nat) (a : Accum) (f : Word)

/-- What completing a section carries over from its accumulator, with or without VALID shots. -/
theorem completeAccum_carried :
    let x := completeAccum lSec occMin a endZ f
    (x.index = a.index ∧ x.startZ = a.index * lSec ∧ x.endZ = endZ ∧ x.n = a.n ∧ x.sumT = a.sumT)
      ∧ (x.noEcho = a.noEcho ∧ x.noPair = a.noPair ∧ x.outOfBand = a.outOfBand ∧ x.noisy = a.noisy ∧ x.misfire = a.misfire
        ∧ x.shortTrain = a.shortTrain ∧ x.heads = a.heads) := by
  unfold completeAccum
  split <;> exact ⟨⟨rfl, rfl, rfl, rfl, rfl⟩, rfl, rfl, rfl, rfl, rfl, rfl, rfl⟩

variable {a}

/-- A section without a VALID shot is NO_DATA, with every statistic 0 (R114). -/
theorem completeAccum_of_empty (h : a.n = 0) :
    let x := completeAccum lSec occMin a endZ f
    x.min = 0 ∧ x.max = 0 ∧ x.mean = 0 ∧ x.sd = 0 ∧ x.tMean = 0 ∧ x.ecc = 0 ∧ x.occupied = 0 ∧ x.thin = none
      ∧ x.flags = a.flags ||| f ||| sfNoData ∧ x.means = Vector.replicate 32 0 := by
  simp only [completeAccum, if_pos h, and_self]

/-- The statistics of a section with VALID shots, each by the operation that forms it (R115 to R118). -/
theorem completeAccum_of_pos (h : 0 < a.n) :
    let x := completeAccum lSec occMin a endZ f
    x.min = (a.range.getD (0, 0)).1 ∧ x.max = (a.range.getD (0, 0)).2 ∧ x.mean = nearestNat a.sumT a.n
      ∧ x.sd = isqrt (a.n * a.sumT2 - a.sumT * a.sumT) / a.n ∧ x.tMean = nearestNat a.sumTEff a.n
      ∧ x.means = sectorMeans a ∧ x.occupied = occupiedOf a ∧ x.thin = thinSector a
      ∧ x.ecc = (if occupiedOf a < occMin then 0 else eccentricity (sectorMeans a).toList (occupiedOf a))
      ∧ x.flags = giveIf (occupiedOf a < occMin) sfLowCoverage (a.flags ||| f) := by
  simp only [completeAccum, if_neg h.ne', thinSector, and_self]

variable (a)

/-- Law 9. -/
theorem completeAccum_ecc_le : (completeAccum lSec occMin a endZ f).ecc ≤ 1000 := by
  rcases Nat.eq_zero_or_pos a.n with h | h
  · obtain ⟨-, -, -, -, -, hecc, -⟩ := completeAccum_of_empty lSec occMin endZ f h
    omega
  · obtain ⟨-, -, -, -, -, -, -, -, hecc, -⟩ := completeAccum_of_pos lSec occMin endZ f h
    rw [hecc]
    split
    · exact Nat.zero_le _
    · exact eccentricity_le _ _

end

/-! ### The words of a section block (Table 11-9) -/

/-- The words of a section block before those of the heads. -/
def blockHeader (x : SectionResult) : List Word :=
  [0xFFFF#16, toWord x.index, toWord x.startZ, toWord (x.startZ / 65536), x.flags, satWord x.n, toWord x.noEcho, toWord x.noPair,
    toWord x.outOfBand, toWord x.noisy, toWord x.misfire, toWord x.shortTrain, toWord x.min, toWord x.max, toWord x.mean,
    toWord x.sd, toWord x.ecc, (x.thin.map toWord).getD 0xFFFF#16, toWord x.occupied, toWord x.tMean]

theorem blockWordsOf_eq (x : SectionResult) :
    blockWordsOf x = blockHeader x ++ (x.heads.toList.map toWord ++ (x.means.toList.map toWord
      ++ (words32 x.endZ ++ List.replicate 6 0#16))) := by
  simp only [← List.append_assoc]
  rfl

theorem blockWordsOf_length (x : SectionResult) : (blockWordsOf x).length = 64 := by
  simp [blockWordsOf, words32]

/-- The low word of a field of 32 bits (R168). -/
theorem toWord_eq_mod (n : Nat) : toWord n = BitVec.ofNat 16 (n % 65536) := by
  apply BitVec.eq_of_toNat_eq
  simp [toWord]

theorem getD_append_add {α : Type} {l : List α} {n : Nat} (h : l.length = n) (m : List α) (i : Nat) (d : α) :
    (l ++ m).getD (n + i) d = m.getD i d := by
  subst h
  rw [List.getD_append_right _ _ _ _ (Nat.le_add_right _ _), Nat.add_sub_cancel_left]

theorem getD_toList_append {n : Nat} (v : Vector Nat n) (rest : List Word) (i : Fin n) (d : Word) :
    (v.toList.map toWord ++ rest).getD i.val d = toWord v[i] := by
  rw [List.getD_append _ _ _ _ (by simp)]
  simp

/-- A word of the block behind its header. -/
theorem blockWordsOf_getD_heads (x : SectionResult) (i : Nat) :
    (blockWordsOf x).getD (20 + i) 0#16
      = (x.heads.toList.map toWord ++ (x.means.toList.map toWord ++ (words32 x.endZ ++ List.replicate 6 0#16))).getD i 0#16 := by
  rw [blockWordsOf_eq]
  exact getD_append_add (l := blockHeader x) rfl _ i _

/-- A word of the block behind those of the heads. -/
theorem blockWordsOf_getD_means (x : SectionResult) (i : Nat) :
    (blockWordsOf x).getD (24 + i) 0#16
      = (x.means.toList.map toWord ++ (words32 x.endZ ++ List.replicate 6 0#16)).getD i 0#16 := by
  have hlen : (x.heads.toList.map toWord).length = 4 := by simp
  rw [show 24 + i = 20 + (4 + i) by omega, blockWordsOf_getD_heads, getD_append_add hlen]

/-- A word of the block behind those of the sectors. -/
theorem blockWordsOf_getD_end (x : SectionResult) (i : Nat) :
    (blockWordsOf x).getD (56 + i) 0#16 = (words32 x.endZ ++ List.replicate 6 0#16).getD i 0#16 := by
  have hlen : (x.means.toList.map toWord).length = 32 := by simp
  rw [show 56 + i = 24 + (32 + i) by omega, blockWordsOf_getD_means, getD_append_add hlen]

theorem blockWordsOf_getD_rest (x : SectionResult) {off : Nat} (h : 58 ≤ off) : (blockWordsOf x).getD off 0#16 = 0#16 := by
  obtain ⟨i, rfl⟩ := Nat.exists_eq_add_of_le h
  rw [Nat.add_assoc 56 2 i, blockWordsOf_getD_end]
  exact (getD_append_add (l := words32 x.endZ) rfl _ i _).trans (List.getElem?_getD_replicate_default_eq _ 6 i)

/-- Settles O48: a section without VALID shots by `completeAccum_of_empty`, one with them by the rule of each statistic in
`completeAccum_of_pos`; the block by its header and the three runs of words behind it. -/
theorem sectionStatisticsAndEccentricity : Obligations.SectionStatisticsAndEccentricity := by
  intro lSec occMin endZ a f hocc x
  obtain ⟨⟨hindex, hstart, hend, hn, hsum⟩, hcounts⟩ := completeAccum_carried lSec occMin endZ a f
  refine ⟨⟨hindex, hstart, hend, hn, hsum, completeAccum_ecc_le lSec occMin endZ a f⟩, hcounts, ?extremes, ?block, ?empty, ?valid⟩
  case extremes =>
    intro lo hi hpos hrange
    obtain ⟨hmin, hmax, -⟩ := completeAccum_of_pos lSec occMin endZ f hpos
    rw [hrange] at hmin hmax
    exact ⟨hmin, hmax⟩
  case block =>
    intro at0 word
    have hlow : at0 2 = word (x.startZ % 65536) := toWord_eq_mod x.startZ
    have hendLow : at0 56 = word (x.endZ % 65536) := (blockWordsOf_getD_end x 0).trans (toWord_eq_mod x.endZ)
    exact ⟨blockWordsOf_length x, rfl, rfl, hlow, rfl, rfl, rfl, rfl, rfl, rfl, rfl, rfl, rfl, rfl, rfl, rfl, rfl, rfl, rfl, rfl, rfl,
      fun k => (blockWordsOf_getD_heads x k).trans (getD_toList_append _ _ k _),
      fun i => (blockWordsOf_getD_means x i).trans (getD_toList_append _ _ i _),
      hendLow, blockWordsOf_getD_end x 1, fun _ => blockWordsOf_getD_rest x⟩
  case empty =>
    intro hzero
    obtain ⟨hmin, hmax, hmean, hsd, htMean, hecc, hoccupied, hthin, hflags, hmeans⟩ :=
      completeAccum_of_empty lSec occMin endZ f hzero
    refine ⟨hmin, hmax, hmean, hsd, htMean, hecc, hoccupied, hthin, hflags, fun i => ?_⟩
    simp only [x, hmeans]
    exact Vector.getElem_replicate i.isLt
  case valid =>
    intro hpos v
    obtain ⟨-, -, hmean, hsd, htMean, hmeans, hoccupied, hthin, hecc, hflags⟩ := completeAccum_of_pos lSec occMin endZ f hpos
    obtain ⟨hle, hlt⟩ := isqrt_spec v
    simp only [x, hmean, htMean, hmeans, hoccupied, hthin, hecc, hflags]
    refine ⟨nearestNat_isNearest _ _ hpos, nearestNat_isNearest _ _ hpos, ⟨isqrt v, hle, hlt, hsd⟩, occupiedOf_eq_length a,
      fun _ => sectorMeans_of_empty, fun _ => sectorMeans_isNearest, fun _ => thinSector_eq_some, thinSector_eq_none_iff a, ?_, ?_⟩
    · intro hlow
      simp only [hlow, if_true, decide_true, giveIf, flagIf, and_self]
    · intro hcovered
      have hnot : ¬occupiedOf a < occMin := not_lt.2 hcovered
      simp only [hnot, if_false]
      exact ⟨by simp [giveIf, flagIf], eccentricity_spec _ (by omega)⟩

end Sys2Proof.Machine
end

section
/-! PROOFS. POST (9.3): the recipe area that its checks and its snapshot read lies behind the request word, its refusal at the first
failing field (R142), its acceptance at the tail of the queue (R143 to R145), and the window fit of an accepted snapshot (R34). -/

namespace Sys2Proof.Machine

open Safety

/-! ### Words written in another order -/

/-- Where no address is listed twice, the order of the list does not matter. -/
theorem lookup_eq_of_perm {ws vs : List (Nat × Word)} (h : ws.Perm vs) (hkeys : (ws.map Prod.fst).Nodup) (a : Nat) :
    ws.lookup a = vs.lookup a := by
  induction h with
  | nil => rfl
  | cons x _ ih =>
    rw [List.map_cons, List.nodup_cons] at hkeys
    rw [List.lookup_cons, List.lookup_cons, ih hkeys.2]
  | swap x y l =>
    have hne : y.1 ≠ x.1 := by
      intro heq
      simp [heq] at hkeys
    rw [List.lookup_cons, List.lookup_cons, List.lookup_cons, List.lookup_cons]
    by_cases hx : a = x.1
    · have hy : (a == y.1) = false := by simpa [hx] using hne.symm
      rw [hy]
    · have hx' : (a == x.1) = false := by simpa using hx
      rw [hx']
  | trans h₁ _ ih₁ ih₂ => exact (ih₁ hkeys).trans (ih₂ ((h₁.map Prod.fst).nodup_iff.1 hkeys))

theorem wrote_of_perm {s t : State} {ws vs : List (Nat × Word)} (h : Wrote s t ws) (hperm : vs.Perm ws)
    (hkeys : (vs.map Prod.fst).Nodup) : Wrote s t vs :=
  h.congr fun a _ => lookup_eq_of_perm hperm hkeys a

/-- A write that later writes cover does not show. -/
theorem wrote_of_put {s t : State} {ws : List (Nat × Word)} {a : Nat} {v w : Word} (ha : a < 65536) (h : Wrote (s.put a v) t ws)
    (hagain : (a, w) ∈ ws) : Wrote s t ws := by
  intro b hb
  rw [h b hb, memRead_put s a b v ha]
  split
  next heq =>
    have hsome : (ws.lookup b).isSome := List.lookup_isSome_iff.2 ⟨(a, w), hagain, by simp [heq]⟩
    obtain ⟨x, hx⟩ := Option.isSome_iff_exists.1 hsome
    rw [hx, Option.getD_some, Option.getD_some]
  next => rfl

/-! ### The recipe area -/

/-- A recipe is read from the words from offset 16 on (Table 11-5). -/
theorem recipeOf_congr {m m' : Memory} {a : Nat} (h : ∀ x, a + 16 ≤ x → memRead m' x = memRead m x) :
    recipeOf m' a = recipeOf m a := by
  simp (disch := omega) only [recipeOf, velocityOf, field32At, signedAt, fieldAt, h]
  rfl

theorem recipeChecks_congr {m m' : Memory} {a : Nat} (setup : Option Setup)
    (h : ∀ x, a + 16 ≤ x → memRead m' x = memRead m x) : recipeChecks m' setup a = recipeChecks m setup a := by
  simp (disch := omega) only [recipeChecks, recipeOf_congr h, fieldAt, h]

/-- The request word lies before the recipe area. -/
theorem memRead_put_request (s : State) (j : SlotNo) (v : Word) (x : Nat) (hx : slotAddr j 0 + 16 ≤ x) :
    memRead (s.put (slotAddr j 1) v).mem x = memRead s.mem x := by
  have hne : x ≠ slotAddr j 1 := by
    unfold slotAddr at hx ⊢
    omega
  rw [memRead_put s _ x v (slotAddr_lt j 1 (by decide)), if_neg hne]

theorem recipeError_put_request (s : State) (j : SlotNo) (v : Word) (setup : Option Setup) :
    recipeError (s.put (slotAddr j 1) v).mem setup j = recipeError s.mem setup j :=
  congrArg firstBad (recipeChecks_congr setup (memRead_put_request s j v))

theorem snapshotOf_put_request (s : State) (j : SlotNo) (v : Word) (c : Setup) :
    snapshotOf (s.put (slotAddr j 1) v).mem c j = snapshotOf s.mem c j := by
  rw [snapshotOf, snapshotOf, recipeOf_congr (memRead_put_request s j v)]

/-! ### The window fit of a snapshot (R34) -/

/-- The check of the window, at offset 26, holds the window fit (Table 9-3). -/
theorem fitOk_of_passes {m : Memory} {setup : Option Setup} {a : Nat} (h : Passes (recipeChecks m setup a)) :
    fitOk setup (recipeOf m a).blanking (recipeOf m a).window = true := by
  have hwindow : (26, within 1 1630 (recipeOf m a).window && fitOk setup (recipeOf m a).blanking (recipeOf m a).window)
      ∈ recipeChecks m setup a := by simp [recipeChecks]
  exact (Bool.and_eq_true_iff.1 (h _ hwindow)).2

/-- The fit that a recipe with every check passed has in its snapshot (R34). -/
theorem snapshotOf_fit {s : State} {j : SlotNo} (h : Passes (recipeChecks s.mem s.setup (slotAddr j 0))) :
    let n := snapshotOf s.mem s.cfg j
    ∃ c, s.setup = some c ∧ (n.wEff : Int) = min (n.recipe.window : Int) (fitRoom c n.recipe.blanking) ∧ 25 ≤ n.wEff
      ∧ n.recipe.blanking + n.recipe.window ≤ 1630 ∧ (n.clamped = true ↔ n.wEff < n.recipe.window) := by
  obtain ⟨c, hc, hmin, hleast, hmost⟩ := fitOk_spec _ _ _ (fitOk_of_passes h)
  have hcfg : s.cfg = c := by rw [State.cfg, hc, Option.getD_some]
  rw [hcfg]
  exact ⟨c, hc, hmin, hleast, hmost, decide_eq_true_iff⟩

/-! ### Taking a POST (R140, R141) -/

/-- With the port open a POST is its own request, taken with the word written (R157). -/
theorem exec_post {s : State} (j : SlotNo) (hopen : PortOpen s) :
    exec (.post j) s = .next ((s.put (slotAddr j 1) reqPost).takePost j) := by
  obtain ⟨hreset, hinit⟩ := hopen
  have harm : exec (.post j) s = .next (s.slotWrite j reqPost) := rfl
  have hfree : s.isolated = false := by simp [State.isolated, hreset, hinit]
  rw [harm, State.slotWrite, hfree, if_neg Bool.false_ne_true, State.slotRequest, if_pos rfl]

/-- The slot states in which a POST is checked (R141). -/
def Postable (x : OrderSlot) : Prop := x.state = .free ∨ x.state = .spent ∨ x.state = .refused

theorem State.takePost_of_postable {s : State} {j : SlotNo} (h : Postable s.slots[j]) :
    s.takePost j = (recipeError s.mem s.setup j).elim (s.acceptPost j) (s.refusePost j) := by
  rcases h with h | h | h
  all_goals
    simp only [State.takePost, h]
    cases recipeError s.mem s.setup j <;> rfl

/-- In a slot that takes orders a POST is accepted or refused by the checks of the recipe as the host left it. -/
theorem exec_post_of_postable {s : State} {j : SlotNo} (hopen : PortOpen s) (h : Postable s.slots[j]) :
    exec (.post j) s = .next ((recipeError s.mem s.setup j).elim ((s.put (slotAddr j 1) reqPost).acceptPost j)
      ((s.put (slotAddr j 1) reqPost).refusePost j)) := by
  rw [exec_post j hopen, State.takePost_of_postable (s := s.put (slotAddr j 1) reqPost) h, recipeError_put_request,
    State.put_setup]

/-! ### The words of a slot and of the queue -/

theorem State.putSlotState_wrote (s : State) (j : SlotNo) :
    Wrote s (s.putSlotState j) [(slotAddr j 0, slotCode s.slots[j].state)] :=
  wrote_put s _ _ (slotAddr_lt j 0 (by decide))

theorem State.putTaken_wrote (s : State) (j : SlotNo) : Wrote s (s.putTaken j) [(slotAddr j 4, toWord s.slots[j].taken)] :=
  wrote_put s _ _ (slotAddr_lt j 4 (by decide))

/-- Words of one slot at different offsets have different addresses. -/
theorem slotAddrs_nodup (j : SlotNo) (offs : List Nat) (h : offs.Nodup) : (offs.map (slotAddr j)).Nodup :=
  h.map fun a b hab => by simpa [slotAddr] using hab

theorem queueWords_addresses (q : List SlotNo) : (queueWords q).map Prod.fst = [0x07, 0x08, 0x09, 0x0A] := rfl

/-- The queue words lie before the order slots (Table 10-1). -/
theorem slotAddr_notMem_queueWords (j : SlotNo) (off : Nat) (q : List SlotNo) : slotAddr j off ∉ (queueWords q).map Prod.fst := by
  have hbase : 0x200 ≤ slotAddr j off := by
    simp only [slotAddr, Config.slotBase]
    omega
  intro hmem
  simp only [queueWords_addresses, List.mem_cons, List.not_mem_nil, or_false] at hmem
  omega

/-! ### Refusal (R142) -/

theorem State.refusePost_slots (s : State) (j : SlotNo) (off : Nat) :
    (s.refusePost j off).slots = vset s.slots j { s.slots[j] with state := .refused } := by simp [State.refusePost]

/-- A refused POST changes the memory, the slot's state and the attention causes, and nothing else (R142). -/
theorem State.refusePost_eq_withMem (s : State) (j : SlotNo) (off : Nat) :
    s.refusePost j off = { s with
      mem := (s.refusePost j off).mem, slots := vset s.slots j { s.slots[j] with state := .refused },
      attnCause := s.attnCause ||| causeRequest } := by
  have hslots := s.refusePost_slots j off
  have hcause : (s.refusePost j off).attnCause = s.attnCause ||| causeRequest := (State.answerSlot_effect _ j ansBadField).1
  have hframe := s.refusePost_frame j off
  generalize s.refusePost j off = t at *
  cases t
  simp only [State.mk.injEq] at *
  simp only [hframe, hslots, hcause, and_self]

theorem State.refusePost_wrote (s : State) (j : SlotNo) (off : Nat) :
    Wrote s (s.refusePost j off) [(slotAddr j 0, 4#16), (slotAddr j 1, writeBack s.slots[j]), (slotAddr j 2, 3#16),
      (slotAddr j 3, BitVec.ofNat 16 off)] := by
  have hstate := (s.setSlot j { s.slots[j] with state := .refused }).putSlotState_wrote j
  have hfield := hstate.trans (wrote_put _ (slotAddr j 3) (toWord off) (slotAddr_lt j 3 (by decide)))
  have hall := (hfield.trans (State.answerSlot_effect _ j ansBadField).2).of_mem (s' := s) rfl (t' := s.refusePost j off) rfl
  have hlisted : Wrote s (s.refusePost j off) [(slotAddr j 1, writeBack s.slots[j]), (slotAddr j 2, 3#16),
      (slotAddr j 3, BitVec.ofNat 16 off), (slotAddr j 0, 4#16)] := by
    simpa [slotCode, writeBack, ansBadField, toWord] using hall
  exact wrote_of_perm hlisted (List.perm_append_comm (l₁ := [_]) (l₂ := [_, _, _])) (slotAddrs_nodup j [0, 1, 2, 3] (by decide))

/-! ### Acceptance (R143 to R145) -/

/-- The slot of an accepted POST: its order READY, none of its tubes taken, nothing pending. -/
def postedSlot (n : Snapshot) : OrderSlot :=
  { state := .ready, snapshot := some n, taken := 0, finalTube := false, amendment := none, cancelPending := false }

theorem State.acceptPost_slots (s : State) (j : SlotNo) :
    (s.acceptPost j).slots = vset s.slots j (postedSlot (snapshotOf s.mem s.cfg j)) := by simp [State.acceptPost, postedSlot]

/-- An accepted POST changes the memory, the slot, the queue and the attention causes, and nothing else (R143, R145). -/
theorem State.acceptPost_eq_withMem (s : State) (j : SlotNo) :
    s.acceptPost j = { s with
      mem := (s.acceptPost j).mem, slots := vset s.slots j (postedSlot (snapshotOf s.mem s.cfg j))
      queue := s.queue ++ [j], attnCause := s.attnCause ||| causeRequest } := by
  have hslots := s.acceptPost_slots j
  have hqueue : (s.acceptPost j).queue = s.queue ++ [j] := by simp [State.acceptPost]
  have hcause : (s.acceptPost j).attnCause = s.attnCause ||| causeRequest := by
    refine (State.answerSlot_effect _ j ansOk).1.trans ?_
    simp
  have hframe := s.acceptPost_frame j
  generalize s.acceptPost j = t at *
  cases t
  simp only [State.mk.injEq] at *
  simp only [hframe, hslots, hcause, hqueue, and_self]

theorem State.acceptPost_wrote (s : State) (j : SlotNo) :
    Wrote s (s.acceptPost j) ([(slotAddr j 0, 1#16), (slotAddr j 1, 0#16), (slotAddr j 2, 1#16), (slotAddr j 3, 0xFFFF#16),
      (slotAddr j 4, 0#16)] ++ queueWords (s.queue ++ [j])) := by
  have htaken := State.putTaken_wrote
    { s.setSlot j (postedSlot (snapshotOf s.mem s.cfg j)) with queue := s.queue ++ [j] } j
  have hstate := htaken.trans (State.putSlotState_wrote _ j)
  have hqueue := hstate.trans (State.putQueue_wrote _)
  have hfield := hqueue.trans (wrote_put _ (slotAddr j 3) Config.noneWord (slotAddr_lt j 3 (by decide)))
  have hall := (hfield.trans (State.answerSlot_effect _ j ansOk).2).of_mem (s' := s) rfl (t' := s.acceptPost j) rfl
  have hlisted : Wrote s (s.acceptPost j) ([(slotAddr j 1, 0#16), (slotAddr j 2, 1#16), (slotAddr j 3, 0xFFFF#16)]
      ++ (queueWords (s.queue ++ [j]) ++ [(slotAddr j 0, 1#16), (slotAddr j 4, 0#16)])) := by
    simpa [slotCode, writeBack, ansOk, toWord, postedSlot, Config.noneWord] using hall
  refine wrote_of_perm hlisted ?_ ?_
  · exact List.perm_iff_count.2 fun x => by simp only [List.count_append, List.count_cons, List.count_nil]; omega
  · rw [List.map_append, List.nodup_append']
    refine ⟨slotAddrs_nodup j [0, 1, 2, 3, 4] (by decide), by rw [queueWords_addresses]; decide, ?_⟩
    intro a ha
    obtain ⟨off, -, rfl⟩ : ∃ off ∈ [0, 1, 2, 3, 4], slotAddr j off = a := List.mem_map.1 ha
    exact slotAddr_notMem_queueWords j off _

/-! ### The two answers to a POST -/

theorem exec_post_of_failsFirst {s : State} {j : SlotNo} {off : Nat} (hopen : PortOpen s) (h : Postable s.slots[j])
    (hfails : FailsFirstAt (recipeChecks s.mem s.setup (slotAddr j 0)) off) :
    exec (.post j) s = .next ((s.put (slotAddr j 1) reqPost).refusePost j off) := by
  have herror : recipeError s.mem s.setup j = some off := (firstBad_some_iff _ off).2 hfails
  rw [exec_post_of_postable hopen h, herror, Option.elim_some]

theorem exec_post_of_passes {s : State} {j : SlotNo} (hopen : PortOpen s) (h : Postable s.slots[j])
    (hpasses : Passes (recipeChecks s.mem s.setup (slotAddr j 0))) :
    exec (.post j) s = .next ((s.put (slotAddr j 1) reqPost).acceptPost j) := by
  have herror : recipeError s.mem s.setup j = none := (firstBad_none_iff _).2 hpasses
  rw [exec_post_of_postable hopen h, herror, Option.elim_none]

/-- A list of checks passes or fails first at one of its fields. -/
theorem passes_or_failsFirstAt (cs : List (Nat × Bool)) : Passes cs ∨ ∃ off, FailsFirstAt cs off := by
  cases h : firstBad cs with
  | none => exact .inl ((firstBad_none_iff cs).1 h)
  | some off => exact .inr ⟨off, (firstBad_some_iff cs off).1 h⟩

/-- A POST that leaves its slot READY found every check passed, and the snapshot is the recipe area's (R143). -/
theorem passes_of_post_ready {s t : State} {j : SlotNo} (hopen : PortOpen s) (h : Postable s.slots[j])
    (hexec : exec (.post j) s = .next t) (hready : t.slots[j].state = .ready) :
    Passes (recipeChecks s.mem s.setup (slotAddr j 0)) ∧ t.slots[j].snapshot = some (snapshotOf s.mem s.cfg j) := by
  rcases passes_or_failsFirstAt (recipeChecks s.mem s.setup (slotAddr j 0)) with hpasses | ⟨off, hfails⟩
  · rw [exec_post_of_passes hopen h hpasses] at hexec
    obtain rfl := Host.Outcome.next.inj hexec
    refine ⟨hpasses, ?_⟩
    rw [State.acceptPost_slots, vset_getFin, if_pos rfl, snapshotOf_put_request]
    rfl
  · rw [exec_post_of_failsFirst hopen h hfails] at hexec
    obtain rfl := Host.Outcome.next.inj hexec
    rw [State.refusePost_slots, vset_getFin, if_pos rfl] at hready
    cases hready

/-- Settles O15: the checks decide between `refusePost` and `acceptPost`, each with its frame and its words behind the host's own
write of the request word; an accepted one has passed the check at offset 26, which is the window fit. -/
theorem postIsValidatedFittedAndTaken : Obligations.PostIsValidatedFittedAndTaken := by
  refine ⟨fun s j off hopen hstate hfails => ?refused, fun s j hopen hstate hpasses => ?taken,
    fun s t j n hopen hstate hexec hready hsnap => ?fitted⟩
  case refused =>
    refine ⟨_, exec_post_of_failsFirst hopen hstate hfails, State.refusePost_eq_withMem _ j off, ?_⟩
    exact wrote_of_put (slotAddr_lt j 1 (by decide)) (State.refusePost_wrote _ j off)
      (List.mem_cons_of_mem _ List.mem_cons_self)
  case taken =>
    refine ⟨_, exec_post_of_passes hopen hstate hpasses, ?_, ?_⟩
    · rw [← snapshotOf_put_request s j reqPost]
      exact State.acceptPost_eq_withMem _ j
    · exact wrote_of_put (slotAddr_lt j 1 (by decide)) (State.acceptPost_wrote _ j)
        (List.mem_cons_of_mem _ List.mem_cons_self)
  case fitted =>
    obtain ⟨hpasses, hsnapshot⟩ := passes_of_post_ready hopen hstate hexec hready
    obtain rfl : snapshotOf s.mem s.cfg j = n := Option.some.inj (hsnapshot.symm.trans hsnap)
    exact snapshotOf_fit hpasses

end Sys2Proof.Machine
end

section
/-! PROOFS. The part as its laws see it (laws 1, 2, 6, 10, 11, 12 and Table 1-1): the view of a state, the moves that a command makes on
it, and the laws over these moves. -/

namespace Sys2Proof.Machine

open Safety

/-! ### The view of a state -/

/-- The open tube as the laws see it: its record, its order, and whether z_tail is set. -/
structure TubeView where
  record : Option RecNo
  order : Option SlotNo
  ended : Bool

/-- What the order manager holds: the slots, the queue and the current order (R139, R145). -/
structure Orders where
  slots : Vector OrderSlot 4
  queue : List SlotNo
  current : Option SlotNo

/-- The part as the laws see it. `shot` is the shot in flight with its head, its bound settings and whether a clamp waits for its end;
`receiving` and `tracking` say that the receiver is not OFF and the tracker not IDLE; `scan` is the record under scan and the next block. -/
structure View where
  gauge : GaugeState
  resetActive : Bool
  haltPending : Bool
  timer : Bool
  shot : Option (Head × Snapshot × Bool)
  receiving : Bool
  tracking : Bool
  z : Nat
  tube : Option TubeView
  free : List BlockNo
  owner : Vector (Option RecNo) 952
  releaseQueue : List RecNo
  scan : Option (RecNo × Nat)
  records : Vector RecState 16
  orders : Orders
  gains : Vector Nat 4

def Tube.view (x : Tube) : TubeView := { record := x.record, order := x.order, ended := x.zTail.isSome }

/-- The shot in flight as the laws see it. -/
def shotView (p : Head × Shot) : Head × Snapshot × Bool := (p.1, p.2.bound, p.2.clampDue)

def Scan.view (c : Scan) : RecNo × Nat := (c.record, c.next)

/-- The view of a state. -/
def State.view (s : State) : View :=
  { gauge := s.gauge, resetActive := s.resetActive, haltPending := s.haltPending, timer := s.slot.isSome
    shot := s.inFlight.map shotView, receiving := decide (s.link.rx.state ≠ .off), tracking := decide (s.tracker.state ≠ .idle)
    z := s.tracker.z, tube := s.tube.map Tube.view, free := s.pool.free, owner := s.pool.owner
    releaseQueue := s.pool.releaseQueue, scan := s.pool.scan.map Scan.view, records := s.records
    orders := { slots := s.slots, queue := s.queue, current := s.current }, gains := s.chans.map Channel.gain }

/-- The slot of the open tube's order. -/
def View.orderInUse (v : View) : Option SlotNo := v.tube.bind TubeView.order

/-- The snapshot of the open tube's order. -/
def View.tubeOrder (v : View) : Option Snapshot := v.orderInUse.bind (fun j => v.orders.slots[j].snapshot)

theorem State.view_orderInUse (s : State) : s.view.orderInUse = s.orderInUse := by
  unfold View.orderInUse State.orderInUse State.view
  cases s.tube <;> rfl

theorem State.view_tubeOrder (s : State) : s.view.tubeOrder = s.tubeOrder := by
  rw [View.tubeOrder, State.view_orderInUse]
  rfl

theorem State.view_gain (s : State) (k : Head) : s.view.gains[k] = s.chans[k].gain := by
  simp [State.view]

/-! ### The moves of the order manager -/

/-- A slot with its order gone, no order being current (R148). -/
def Orders.spent (o : Orders) (j : SlotNo) : Orders :=
  { slots := vset o.slots j (emptied o.slots[j] .spent), queue := o.queue, current := none }

/-- Slot `j` with other contents. -/
def Orders.setSlot (o : Orders) (j : SlotNo) (x : OrderSlot) : Orders := { o with slots := vset o.slots j x }

/-- What a request of the host does with the orders, `use` being the order in use (R140 to R153). -/
inductive Request (use : Option SlotNo) (o : Orders) : Orders → Prop
  | posts (j : SlotNo) (n : Snapshot) (h : Postable o.slots[j]) (hg : GainSettingsOk n.recipe) :
      Request use o { o.setSlot j (postedSlot n) with queue := o.queue ++ [j] }
  | refuses (j : SlotNo) (h : Postable o.slots[j]) : Request use o (o.setSlot j { o.slots[j] with state := .refused })
  | frees (j : SlotNo) (h : o.slots[j].state = .ready) :
      Request use o { o.setSlot j (emptied o.slots[j] .free) with queue := o.queue.filter (fun i => i ≠ j) }
  | amends (j : SlotNo) (y : Amendment) (h : o.slots[j].state = .ready) (hy : AmendGainOk y) :
      Request use o (o.setSlot j (amendedSlot o.slots[j] y))
  | awaits (j : SlotNo) (y : Amendment) (h : o.slots[j].state = .active) (hy : AmendGainOk y) :
      Request use o (o.setSlot j { o.slots[j] with amendment := some y })
  | marks (j : SlotNo) (h : o.slots[j].state = .active) :
      Request use o (o.setSlot j { o.slots[j] with cancelPending := true, amendment := none })
  | withdraws (j : SlotNo) : Request use o (o.setSlot j { o.slots[j] with amendment := none })
  | spends (j : SlotNo) (h : o.slots[j].state = .active) (hu : use ≠ some j) : Request use o (o.spent j)

/-- What the selection of an order at a head event does, step by step (R146). -/
inductive Select (o : Orders) : Orders → Prop
  | yields (j : SlotNo) (h : o.current = some j) : Select o (o.spent j)
  | promotes (j : SlotNo) (rest : List SlotNo) (hc : o.current = none) (hq : o.queue = j :: rest) :
      Select o { o.setSlot j { o.slots[j] with state := .active } with queue := rest, current := some j }
  | applies (j : SlotNo) (y : Amendment) (hc : o.current = some j) (hy : o.slots[j].amendment = some y) :
      Select o (o.setSlot j (amendedSlot o.slots[j] y))
  | takes (j : SlotNo) (hc : o.current = some j) : Select o (o.setSlot j (takeTube o.slots[j]))

/-! ### The moves of the part -/

/-- The gain code of a channel at the end of its shot: the gain step, then the clamp that waited for it (R40, R41). -/
def endGain (r : Recipe) (due : Bool) (m : GainMove) (g : Nat) : Nat :=
  if due then clampGain r.gmin r.gmax (movedGain r.gmin r.gmax g m) else movedGain r.gmin r.gmax g m

/-- The pending amendment `y` of slot `j` applied at a cycle start; a shot that was fired at this instant keeps its gain (R41, R152). -/
def View.amended (v : View) (j : SlotNo) (y : Amendment) (fired : Bool) : View :=
  let o := v.orders.setSlot j (amendedSlot v.orders.slots[j] y)
  if v.orderInUse = some j ∧ v.orders.slots[j].snapshot.isSome then
    { v with
      orders := o
      shot := if fired then v.shot.map (fun p => (p.1, p.2.1, true)) else v.shot
      gains := Vector.ofFn (fun k : Head => if fired ∧ v.shot.map Prod.fst = some k then v.gains[k]
        else clampGain y.gmin y.gmax v.gains[k]) }
  else { v with orders := o }

/-- The record states once the open tube's record, if it has one, is COMPLETE (R135). -/
def View.completed (v : View) : Vector RecState 16 :=
  ((v.tube.bind TubeView.record).map (fun r => vset v.records r .complete)).getD v.records

/-- The scanner takes the front of the release queue, if it is idle (R165). -/
def View.served (v : View) : View :=
  match v.scan, v.releaseQueue with
  | none, r :: rest => { v with releaseQueue := rest, scan := some (r, 0) }
  | _, _ => v

/-- The record of the open tube takes the block at the front of the free list (R162). -/
inductive Alloc (v : View) : View → Prop
  | takes (x : TubeView) (r : RecNo) (b : BlockNo) (rest : List BlockNo) (hx : v.tube = some x) (hr : x.record = some r)
      (hf : v.free = b :: rest) : Alloc v { v with free := rest, owner := vset v.owner b (some r) }

/-- One move of the part, other than a reset and a head event. -/
inductive Move (v : View) : View → Prop
  | opensSlot (hr : runs v.gauge = true) (hs : v.shot = none) : Move v { v with timer := true }
  | fires (k : Head) (n : Snapshot) (hs : v.shot = none) (hn : v.tubeOrder = some n) : Move v { v with shot := some (k, n, false) }
  | endsShot (k : Head) (b : Snapshot) (due : Bool) (m : GainMove) (hs : v.shot = some (k, b, due)) :
      Move v { v with shot := none, gains := vset v.gains k (endGain (v.tubeOrder.getD b).recipe due m v.gains[k]) }
  | allocates (w : View) (h : Alloc v w) : Move v w
  | requests (o : Orders) (h : Request v.orderInUse v.orders o) : Move v { v with orders := o }
  | amends (j : SlotNo) (y : Amendment) (fired : Bool) (hc : v.orders.current = some j) (hy : v.orders.slots[j].amendment = some y) :
      Move v (v.amended j y fired)
  | releases (r : RecNo) (h : v.records[r] = .complete) :
      Move v ({ v with records := vset v.records r .releasing, releaseQueue := v.releaseQueue ++ [r] } : View).served
  | serves : Move v v.served
  | scans (r : RecNo) (b : BlockNo) (hs : v.scan = some (r, b.val)) (ho : v.owner[b] ≠ some r) :
      Move v { v with scan := some (r, b.val + 1) }
  | returns (r : RecNo) (b : BlockNo) (hs : v.scan = some (r, b.val)) (ho : v.owner[b] = some r) :
      Move v { v with scan := some (r, b.val + 1), free := v.free ++ [b], owner := vset v.owner b none }
  | endsScan (r : RecNo) (next : Nat) (hs : v.scan = some (r, next)) (hn : 952 ≤ next) :
      Move v ({ v with scan := none, records := vset v.records r .free } : View).served
  | advances (d : Nat) : Move v { v with z := min (v.z + d) Config.zMax }
  | losesTrack (h : v.gauge = .measuring ∨ v.tracking = true) : Move v { v with tracking := true }
  | endsMeasuring (halt : Bool) (hg : v.gauge = .measuring) :
      Move v { v with
        gauge := .closing, tracking := false, haltPending := v.haltPending || halt
        tube := v.tube.map (fun x => { x with ended := true }) }
  | marksHalt (hg : v.gauge = .closing) : Move v { v with haltPending := true }
  | closes (g : GaugeState) (o : Orders) (hto : g = .armed ∨ g = .waitClear) (hg : v.gauge = .closing)
      (ho : o = v.orders ∨ ∃ j, v.orderInUse = some j ∧ o = v.orders.spent j) :
      Move v { v with gauge := g, haltPending := false, tube := none, records := v.completed, orders := o }
  | clears (hg : v.gauge = .waitClear) : Move v { v with gauge := .armed }
  | halts (hg : v.gauge = .armed ∨ v.gauge = .waitClear) :
      Move v { v with gauge := .halted, haltPending := false, timer := false, shot := none, receiving := false, tracking := false }
  | starts (g : GaugeState) (hto : g = .armed ∨ g = .waitClear) (hg : v.gauge = .halted) :
      Move v { v with gauge := g, timer := true, shot := none, receiving := true, tracking := false }

/-- What begins the part or a tube anew: a reset, the end of INIT, and a head event (R3 to R6, R123, R124). -/
inductive Turn (v : View) : View → Prop
  | resets (active : Bool) : Turn v { State.reset.view with gauge := .init, resetActive := active }
  | leavesInit (hg : v.gauge = .init) : Turn v { State.reset.view with gauge := .halted, resetActive := false }
  | misses (hg : v.gauge = .armed) :
      Turn v { v with gauge := .measuring, tracking := true, z := 0, tube := some { record := none, order := none, ended := false } }
  | opensWithout (r : RecNo) (o : Orders) (hg : v.gauge = .armed) (hr : v.records[r] = .free)
      (ho : Relation.ReflTransGen Select v.orders o) :
      Turn v { v with
        gauge := .measuring, tracking := true, z := 0, tube := some { record := some r, order := none, ended := false }
        records := vset v.records r .opened, orders := o }
  | opensWith (r : RecNo) (o : Orders) (j : SlotNo) (n : Snapshot) (hg : v.gauge = .armed) (hr : v.records[r] = .free)
      (ho : Relation.ReflTransGen Select v.orders o) (hc : o.current = some j) (hn : o.slots[j].snapshot = some n) :
      Turn v { v with
        gauge := .measuring, tracking := true, z := 0, tube := some { record := some r, order := some j, ended := false }
        records := vset v.records r .opened, orders := o, gains := Vector.replicate 4 n.recipe.g0 }

end Sys2Proof.Machine
end

section
/-! PROOFS. The laws of the part over its view: each move keeps Table 1-1, law 1, law 2, law 10, law 11 and law 12. -/

namespace Sys2Proof.Machine

open Safety

/-! ### Moves with cases -/

theorem View.served_cases (v : View) :
    v.served = v ∧ (v.scan = none → v.releaseQueue = [])
      ∨ ∃ r rest, v.scan = none ∧ v.releaseQueue = r :: rest
        ∧ v.served = { v with releaseQueue := rest, scan := some (r, 0) } := by
  unfold View.served
  cases v.scan <;> cases v.releaseQueue <;> simp

theorem View.amended_cases (v : View) (j : SlotNo) (y : Amendment) (fired : Bool) :
    (v.orderInUse = some j ∧ v.orders.slots[j].snapshot.isSome = true ∧ v.amended j y fired = { v with
        orders := v.orders.setSlot j (amendedSlot v.orders.slots[j] y)
        shot := if fired then v.shot.map (fun p => (p.1, p.2.1, true)) else v.shot
        gains := Vector.ofFn (fun k : Head => if fired ∧ v.shot.map Prod.fst = some k then v.gains[k]
          else clampGain y.gmin y.gmax v.gains[k]) })
      ∨ (¬(v.orderInUse = some j ∧ v.orders.slots[j].snapshot.isSome = true)
        ∧ v.amended j y fired = { v with orders := v.orders.setSlot j (amendedSlot v.orders.slots[j] y) }) := by
  unfold View.amended
  by_cases h : v.orderInUse = some j ∧ v.orders.slots[j].snapshot.isSome = true
  · exact .inl ⟨h.1, h.2, if_pos h⟩
  · exact .inr ⟨h, if_neg h⟩

/-! ### What the gauge state says (Table 1-1) -/

/-- `GaugeOk` of a view. -/
structure View.GaugeLaw (v : View) : Prop where
  tube : v.tube.isSome ↔ v.gauge = .measuring ∨ v.gauge = .closing
  tail : ∀ x, v.tube = some x → (x.ended = true ↔ v.gauge = .closing)
  timer : v.timer = true ↔ runs v.gauge = true
  receiver : v.receiving = true ↔ runs v.gauge = true
  tracker : v.tracking = true ↔ v.gauge = .measuring
  halt : v.haltPending = true → v.gauge = .closing
  reset : v.resetActive = true → v.gauge = .init

theorem gaugeOk_iff (s : State) : GaugeOk s ↔ s.view.GaugeLaw := by
  constructor
  · rintro ⟨htube, htail, htimer, hreceiver, htracker, hhalt, hreset⟩
    refine ⟨?_, fun x hx => ?_, htimer, by simpa [State.view] using hreceiver, by simpa [State.view] using htracker, hhalt, hreset⟩
    · simpa [State.view] using htube
    · obtain ⟨y, hy, rfl⟩ := Option.map_eq_some_iff.1 hx
      exact htail y hy
  · rintro ⟨htube, htail, htimer, hreceiver, htracker, hhalt, hreset⟩
    refine ⟨by simpa [State.view] using htube, fun x hx => ?_, htimer, by simpa [State.view] using hreceiver,
      by simpa [State.view] using htracker, hhalt, hreset⟩
    exact htail x.view (Option.map_eq_some_iff.2 ⟨x, hx, rfl⟩)

/-- A move that leaves the gauge and the blocks of Table 1-1 alone. -/
theorem View.GaugeLaw.of_same {v w : View} (h : v.GaugeLaw) (hg : w.gauge = v.gauge) (hr : w.resetActive = v.resetActive)
    (hh : w.haltPending = v.haltPending) (ht : w.timer = v.timer) (hrx : w.receiving = v.receiving)
    (hk : w.tracking = v.tracking) (hx : w.tube = v.tube) : w.GaugeLaw := by
  obtain ⟨htube, htail, htimer, hreceiver, htracker, hhalt, hreset⟩ := h
  exact ⟨by rw [hx, hg]; exact htube, by rw [hx, hg]; exact htail, by rw [ht, hg]; exact htimer, by rw [hrx, hg]; exact hreceiver,
    by rw [hk, hg]; exact htracker, by rw [hh, hg]; exact hhalt, by rw [hr, hg]; exact hreset⟩

theorem View.GaugeLaw.notReset {v : View} (h : v.GaugeLaw) (hg : v.gauge ≠ .init) : v.resetActive = false :=
  Bool.eq_false_iff.2 fun ha => hg (h.reset ha)

theorem View.GaugeLaw.served {v : View} (h : v.GaugeLaw) : v.served.GaugeLaw := by
  obtain ⟨e, -⟩ | ⟨r, rest, -, -, e⟩ := v.served_cases
  · rwa [e]
  · rw [e]; exact h.of_same rfl rfl rfl rfl rfl rfl rfl

/-- Every move keeps Table 1-1. -/
theorem Move.gaugeLaw {v w : View} (m : Move v w) (h : v.GaugeLaw) : w.GaugeLaw := by
  have ⟨htube, htail, htimer, hreceiver, htracker, hhalt, hreset⟩ := h
  cases m with
  | opensSlot hr hs => exact ⟨htube, htail, by simpa using hr, hreceiver, htracker, hhalt, hreset⟩
  | allocates w ha =>
    obtain ⟨x, r, b, rest, hx, hr, hf⟩ := ha
    exact h.of_same rfl rfl rfl rfl rfl rfl rfl
  | fires | endsShot | requests | scans | returns | advances => exact h.of_same rfl rfl rfl rfl rfl rfl rfl
  | amends j y fired =>
    obtain ⟨-, -, e⟩ | ⟨-, e⟩ := v.amended_cases j y fired <;> rw [e] <;> exact h.of_same rfl rfl rfl rfl rfl rfl rfl
  | releases r => exact View.GaugeLaw.served (h.of_same rfl rfl rfl rfl rfl rfl rfl)
  | serves => exact h.served
  | endsScan => exact View.GaugeLaw.served (h.of_same rfl rfl rfl rfl rfl rfl rfl)
  | losesTrack hm =>
    have hg : v.gauge = .measuring := hm.elim id htracker.1
    exact ⟨htube, htail, htimer, hreceiver, by simpa using hg, hhalt, hreset⟩
  | endsMeasuring halt hg =>
    refine ⟨by simp [htube, hg], ?_, by simp [htimer, hg, runs], by simp [hreceiver, hg, runs], by simp, by simp, ?_⟩
    · rintro x hx
      obtain ⟨y, -, rfl⟩ := Option.map_eq_some_iff.1 hx
      simp
    · intro ha
      exact absurd (hreset ha) (by simp [hg])
  | marksHalt hg => exact ⟨htube, htail, htimer, hreceiver, htracker, fun _ => hg, hreset⟩
  | closes g o hto hg ho =>
    have hres := h.notReset (by simp [hg])
    rcases hto with rfl | rfl <;>
      exact ⟨by simp, by simp, by simp [htimer, hg, runs], by simp [hreceiver, hg, runs], by simp [htracker, hg], by simp,
        by simp [hres]⟩
  | clears hg =>
    exact ⟨by simp [htube, hg], fun x hx => by simp [htail x hx, hg], by simp [htimer, hg, runs], by simp [hreceiver, hg, runs],
      by simp [htracker, hg], fun hp => absurd (hhalt hp) (by simp [hg]), fun ha => absurd (hreset ha) (by simp [hg])⟩
  | halts hg =>
    refine ⟨?_, fun x hx => ?_, by simp [runs], by simp [runs], by simp, by simp, fun ha => absurd (hreset ha) ?_⟩
    · rcases hg with hg | hg <;> simp [htube, hg]
    · have := htail x hx
      rcases hg with hg | hg <;> simp [this, hg]
    · rcases hg with hg | hg <;> simp [hg]
  | starts g hto hg =>
    have hres := h.notReset (by simp [hg])
    have hpend : v.haltPending = false := Bool.eq_false_iff.2 fun hp => absurd (hhalt hp) (by simp [hg])
    have hnone : v.tube = none := by simpa [hg] using htube
    rcases hto with rfl | rfl <;> exact ⟨by simp [hnone], by simp [hnone], by simp [runs], by simp [runs], by simp, by simp [hpend],
      by simp [hres]⟩

/-- A reset leaves INIT or HALTED with every block stopped, and a head event leaves a tube open in MEASURING. -/
theorem Turn.gaugeLaw {v w : View} (m : Turn v w) (h : v.GaugeLaw) : w.GaugeLaw := by
  have ⟨htube, htail, htimer, hreceiver, htracker, hhalt, hreset⟩ := h
  have opened : ∀ {x : TubeView} {r : Vector RecState 16} {o : Orders} {g : Vector Nat 4}, v.gauge = .armed → x.ended = false →
      View.GaugeLaw { v with
        gauge := .measuring, tracking := true, z := 0, tube := some x, records := r, orders := o, gains := g } := by
    intro x r o g hg hx
    have hres := h.notReset (by simp [hg])
    have hpend : v.haltPending = false := Bool.eq_false_iff.2 fun hp => absurd (hhalt hp) (by simp [hg])
    exact ⟨by simp, by simp [hx], by simp [htimer, hg, runs], by simp [hreceiver, hg, runs], by simp, by simp [hpend], by simp [hres]⟩
  cases m with
  | resets active =>
    have base : State.reset.view.GaugeLaw :=
      ⟨by decide, by simp [State.view, State.reset], by decide, by decide, by decide, by decide, by decide⟩
    exact ⟨base.tube, base.tail, base.timer, base.receiver, base.tracker, base.halt, fun _ => rfl⟩
  | leavesInit => exact ⟨by decide, by simp [State.view, State.reset], by decide, by decide, by decide, by decide, by decide⟩
  | misses hg => exact opened hg rfl
  | opensWithout r o hg => exact opened hg rfl
  | opensWith r o j n hg => exact opened hg rfl

/-! ### The block pool (law 1) -/

/-- `PoolOk` of a view. -/
def View.PoolLaw (v : View) : Prop := v.free.Nodup ∧ ∀ b : BlockNo, b ∈ v.free ↔ v.owner[b] = none

theorem poolOk_iff (s : State) : PoolOk s ↔ s.view.PoolLaw := Iff.rfl

theorem View.PoolLaw.of_same {v w : View} (h : v.PoolLaw) (hf : w.free = v.free) (ho : w.owner = v.owner) : w.PoolLaw := by
  unfold View.PoolLaw
  rw [hf, ho]
  exact h

theorem View.PoolLaw.served {v : View} (h : v.PoolLaw) : v.served.PoolLaw := by
  obtain ⟨e, -⟩ | ⟨r, rest, -, -, e⟩ := v.served_cases
  · rwa [e]
  · rw [e]; exact h.of_same rfl rfl

/-- Every move keeps the partition of the blocks: an allocation takes the front of the free list, a return adds an owned block. -/
theorem Move.poolLaw {v w : View} (m : Move v w) (h : v.PoolLaw) : w.PoolLaw := by
  cases m with
  | allocates w ha =>
    obtain ⟨x, r, b, rest, hx, hr, hf⟩ := ha
    obtain ⟨hnodup, hfree⟩ := h
    rw [hf, List.nodup_cons] at hnodup
    refine ⟨hnodup.2, fun c => ?_⟩
    have hc := hfree c
    rw [hf, List.mem_cons] at hc
    by_cases e : b = c
    · subst e; simp [hnodup.1]
    · simpa [-Fin.getElem_fin, e, Ne.symm e] using hc
  | returns r b hs ho =>
    obtain ⟨hnodup, hfree⟩ := h
    have hnew : b ∉ v.free := by rw [hfree, ho]; simp
    refine ⟨List.nodup_append.2 ⟨hnodup, List.nodup_singleton b, ?_⟩, fun c => ?_⟩
    · rintro x hx y hy rfl
      rw [List.mem_singleton] at hy
      exact hnew (hy ▸ hx)
    · by_cases e : b = c
      · subst e; simp
      · simpa [-Fin.getElem_fin, e, Ne.symm e] using hfree c
  | amends j y fired =>
    obtain ⟨-, -, e⟩ | ⟨-, e⟩ := v.amended_cases j y fired <;> rw [e] <;> exact h.of_same rfl rfl
  | releases | endsScan => exact View.PoolLaw.served (h.of_same rfl rfl)
  | serves => exact h.served
  | opensSlot | fires | endsShot | requests | scans | advances | losesTrack | endsMeasuring | marksHalt | closes | clears | halts
  | starts => exact h.of_same rfl rfl

theorem State.reset_view_free : State.reset.view.free = List.finRange 952 := by simp only [State.view, State.reset, Pool.reset]

theorem State.reset_view_owner : State.reset.view.owner = Vector.replicate 952 none := by
  simp only [State.view, State.reset, Pool.reset]

theorem View.reset_poolLaw : State.reset.view.PoolLaw := by
  unfold View.PoolLaw
  rw [State.reset_view_free, State.reset_view_owner]
  exact ⟨List.nodup_finRange 952, fun b => by simp⟩

theorem View.PoolLaw.ofReset (g : GaugeState) (active : Bool) :
    ({ State.reset.view with gauge := g, resetActive := active } : View).PoolLaw := by
  have h := View.reset_poolLaw
  generalize State.reset.view = v at h ⊢
  exact h

theorem Turn.poolLaw {v w : View} (m : Turn v w) (h : v.PoolLaw) : w.PoolLaw := by
  cases m with
  | resets active => exact View.PoolLaw.ofReset .init active
  | leavesInit => exact View.PoolLaw.ofReset .halted false
  | misses | opensWithout | opensWith => exact h.of_same rfl rfl

/-! ### The orders (law 12) -/

/-- What law 12 says of the slots, the queue and the current order. -/
structure Orders.Law (o : Orders) : Prop where
  nodup : o.queue.Nodup
  ready : ∀ j : SlotNo, j ∈ o.queue ↔ o.slots[j].state = .ready
  active : ∀ j : SlotNo, o.current = some j ↔ o.slots[j].state = .active
  snapshot : ∀ j : SlotNo, o.slots[j].snapshot.isSome ↔ o.slots[j].state = .ready ∨ o.slots[j].state = .active
  marks : ∀ j : SlotNo, o.slots[j].amendment.isSome ∨ o.slots[j].finalTube = true ∨ o.slots[j].cancelPending = true →
    o.slots[j].state = .active

/-- `OrdersOk` of a view. -/
def View.OrdersLaw (v : View) : Prop := v.orders.Law ∧ ∀ j, v.orderInUse = some j → v.orders.current = some j

theorem ordersOk_iff (s : State) : OrdersOk s ↔ s.view.OrdersLaw := by
  constructor
  · rintro ⟨h1, h2, h3, h4, h5, h6⟩
    exact ⟨⟨h1, h2, h3, h4, h5⟩, fun j hj => h6 j (s.view_orderInUse ▸ hj)⟩
  · rintro ⟨⟨h1, h2, h3, h4, h5⟩, h6⟩
    exact ⟨h1, h2, h3, h4, h5, fun j hj => h6 j (s.view_orderInUse.symm ▸ hj)⟩

/-- What law 12 says of one slot by itself. -/
def SlotLaw (x : OrderSlot) : Prop :=
  (x.snapshot.isSome ↔ x.state = .ready ∨ x.state = .active)
    ∧ (x.amendment.isSome ∨ x.finalTube = true ∨ x.cancelPending = true → x.state = .active)

theorem Orders.Law.slot {o : Orders} (h : o.Law) (j : SlotNo) : SlotLaw o.slots[j] := ⟨h.snapshot j, h.marks j⟩

/-- A change of one slot keeps law 12 where the queue and the current order follow its new state. -/
theorem Orders.Law.of_slot {o u : Orders} {j : SlotNo} {x : OrderSlot} (h : o.Law) (hs : u.slots = vset o.slots j x) (hx : SlotLaw x)
    (hn : u.queue.Nodup) (hj : j ∈ u.queue ↔ x.state = .ready) (hq : ∀ i, j ≠ i → (i ∈ u.queue ↔ i ∈ o.queue))
    (hc : u.current = some j ↔ x.state = .active) (ho : ∀ i, j ≠ i → (u.current = some i ↔ o.current = some i)) : u.Law := by
  have at_slot : ∀ i, j = i ∧ u.slots[i] = x ∨ j ≠ i ∧ u.slots[i] = o.slots[i] := by
    intro i
    by_cases e : j = i <;> simp [-Fin.getElem_fin, hs, e]
  refine ⟨hn, fun i => ?_, fun i => ?_, fun i => ?_, fun i => ?_⟩ <;> obtain ⟨rfl, e⟩ | ⟨hne, e⟩ := at_slot i <;> rw [e]
  · exact hj
  · rw [hq i hne, h.ready]
  · exact hc
  · rw [ho i hne, h.active]
  · exact hx.1
  · exact h.snapshot i
  · exact hx.2
  · exact h.marks i

/-- A change of one slot that leaves its state as it was. -/
theorem Orders.Law.setSlot {o : Orders} {j : SlotNo} {x : OrderSlot} (h : o.Law) (hs : x.state = o.slots[j].state) (hx : SlotLaw x) :
    (o.setSlot j x).Law :=
  h.of_slot rfl hx h.nodup (by rw [hs]; exact h.ready j) (fun _ _ => Iff.rfl) (by rw [hs]; exact h.active j) (fun _ _ => Iff.rfl)

theorem emptied_slotLaw (x : OrderSlot) (st : SlotState) (h1 : st ≠ .ready) (h2 : st ≠ .active) : SlotLaw (emptied x st) := by
  simp [SlotLaw, emptied, h1, h2]

/-- An amendment that goes over into the snapshot is no longer pending. -/
theorem amendedSlot_slotLaw {x : OrderSlot} (h : SlotLaw x) (y : Amendment) : SlotLaw (amendedSlot x y) := by
  refine ⟨by simpa [amendedSlot] using h.1, fun hm => h.2 (.inr ?_)⟩
  simpa [amendedSlot] using hm

/-- The current order spent: no slot is ACTIVE then. -/
theorem Orders.Law.spent {o : Orders} {j : SlotNo} (h : o.Law) (hc : o.current = some j) : (o.spent j).Law := by
  refine h.of_slot rfl (emptied_slotLaw _ _ (by decide) (by decide)) h.nodup ?_ (fun _ _ => Iff.rfl) (by simp [Orders.spent, emptied])
    (fun i hi => by simp [Orders.spent, hc, hi])
  have hj : j ∉ o.queue := by rw [h.ready, (h.active j).1 hc]; simp
  simp [Orders.spent, emptied, hj]

theorem Request.law {use : Option SlotNo} {o u : Orders} (m : Request use o u) (h : o.Law) : u.Law := by
  have idle : ∀ j, Postable o.slots[j] → j ∉ o.queue ∧ o.current ≠ some j := by
    intro j hp
    rw [h.ready, Ne, h.active]
    rcases hp with e | e | e <;> rw [e] <;> decide
  cases m with
  | posts j n hp =>
    obtain ⟨hq, hc⟩ := idle j hp
    refine h.of_slot rfl (by simp [SlotLaw, postedSlot]) ?_ (by simp [postedSlot]) (fun i hi => by simp [Ne.symm hi])
      (by simpa [postedSlot, Orders.setSlot] using hc) (fun _ _ => Iff.rfl)
    refine List.nodup_append.2 ⟨h.nodup, List.nodup_singleton j, ?_⟩
    rintro x hx y hy rfl
    rw [List.mem_singleton] at hy
    exact hq (hy ▸ hx)
  | refuses j hp =>
    obtain ⟨hq, hc⟩ := idle j hp
    have hslot := h.slot j
    refine h.of_slot rfl ?_ h.nodup (iff_of_false hq (by simp)) (fun _ _ => Iff.rfl) (iff_of_false hc (by simp)) (fun _ _ => Iff.rfl)
    rcases hp with e | e | e <;> simpa [SlotLaw, e, -Fin.getElem_fin] using hslot
  | frees j hs =>
    have hc : o.current ≠ some j := by rw [Ne, h.active, hs]; simp
    refine h.of_slot rfl (emptied_slotLaw _ _ (by decide) (by decide)) (h.nodup.filter _) (by simp [emptied])
      (fun i hi => by simp [Ne.symm hi]) (iff_of_false hc (by simp [emptied])) (fun _ _ => Iff.rfl)
  | amends j y hs => exact h.setSlot rfl (amendedSlot_slotLaw (h.slot j) y)
  | awaits j y hs => exact h.setSlot rfl ⟨h.snapshot j, fun _ => hs⟩
  | marks j hs => exact h.setSlot rfl ⟨h.snapshot j, fun _ => hs⟩
  | withdraws j => exact h.setSlot rfl ⟨h.snapshot j, fun hm => h.marks j (.inr (by simpa using hm))⟩
  | spends j hs => exact h.spent ((h.active j).2 hs)

theorem Select.law {o u : Orders} (m : Select o u) (h : o.Law) : u.Law := by
  cases m with
  | yields j hc => exact h.spent hc
  | promotes j rest hc hq =>
    have hnodup := h.nodup
    rw [hq, List.nodup_cons] at hnodup
    have hready : o.slots[j].state = .ready := (h.ready j).1 (by simp [hq])
    refine h.of_slot rfl ⟨by simpa [hready, -Fin.getElem_fin] using h.snapshot j, fun _ => rfl⟩ hnodup.2 (by simpa using hnodup.1)
      (fun i hi => by simp [hq, Ne.symm hi]) (by simp) (fun i hi => by simp [hc, hi])
  | applies j y hc => exact h.setSlot rfl (amendedSlot_slotLaw (h.slot j) y)
  | takes j hc => exact h.setSlot rfl ⟨h.snapshot j, fun _ => (h.active j).1 hc⟩

theorem selects_law {o u : Orders} (m : Relation.ReflTransGen Select o u) (h : o.Law) : u.Law := by
  induction m with
  | refl => exact h
  | tail _ m ih => exact m.law ih

theorem View.OrdersLaw.of_same {v w : View} (h : v.OrdersLaw) (ho : w.orders = v.orders) (hu : w.orderInUse = v.orderInUse) :
    w.OrdersLaw := by
  unfold View.OrdersLaw
  rw [ho, hu]
  exact h

theorem View.OrdersLaw.served {v : View} (h : v.OrdersLaw) : v.served.OrdersLaw := by
  obtain ⟨e, -⟩ | ⟨r, rest, -, -, e⟩ := v.served_cases
  · rwa [e]
  · rw [e]; exact h.of_same rfl rfl

/-- The requests of the host leave the order in use current. -/
theorem Request.current {use : Option SlotNo} {o u : Orders} (m : Request use o u) (h : o.Law) {j : SlotNo} (hu : use = some j)
    (hc : o.current = some j) : u.current = some j := by
  cases m with
  | spends i hs hne =>
    have := (h.active i).2 hs
    exact absurd (hu.trans (hc.symm.trans this)) hne
  | posts | refuses | frees | amends | awaits | marks | withdraws => exact hc

/-- Every move keeps law 12. -/
theorem Move.ordersLaw {v w : View} (m : Move v w) (h : v.OrdersLaw) : w.OrdersLaw := by
  cases m with
  | requests o hr => exact ⟨hr.law h.1, fun j hj => hr.current h.1 hj (h.2 j hj)⟩
  | amends j y fired =>
    have hlaw : (v.orders.setSlot j (amendedSlot v.orders.slots[j] y)).Law := h.1.setSlot rfl (amendedSlot_slotLaw (h.1.slot j) y)
    obtain ⟨-, -, e⟩ | ⟨-, e⟩ := v.amended_cases j y fired <;> rw [e] <;> exact ⟨hlaw, h.2⟩
  | releases | endsScan => exact View.OrdersLaw.served (h.of_same rfl rfl)
  | serves => exact h.served
  | endsMeasuring halt hg =>
    refine h.of_same rfl ?_
    unfold View.orderInUse
    cases v.tube <;> rfl
  | closes g o hto hg ho =>
    refine ⟨?_, fun j hj => absurd hj (by simp [View.orderInUse])⟩
    rcases ho with rfl | ⟨j, hj, rfl⟩
    · exact h.1
    · exact h.1.spent (h.2 j hj)
  | allocates w ha =>
    obtain ⟨x, r, b, rest, hx, hr, hf⟩ := ha
    exact h.of_same rfl rfl
  | opensSlot | fires | endsShot | scans | returns | advances | losesTrack | marksHalt | clears | halts | starts =>
    exact h.of_same rfl rfl

theorem View.reset_ordersLaw : State.reset.view.OrdersLaw := by
  have hslot : ∀ j : SlotNo, State.reset.view.orders.slots[j] = OrderSlot.free := fun j => by simp [State.view, State.reset]
  refine ⟨⟨List.nodup_nil, fun j => ?_, fun j => ?_, fun j => ?_, fun j => ?_⟩, fun j hj => absurd hj (by simp [View.orderInUse,
    State.view, State.reset])⟩ <;> simp [hslot, OrderSlot.free] <;> simp [State.view, State.reset]

theorem Turn.ordersLaw {v w : View} (m : Turn v w) (h : v.OrdersLaw) : w.OrdersLaw := by
  cases m with
  | resets | leavesInit => exact View.reset_ordersLaw.of_same rfl rfl
  | misses hg => exact ⟨h.1, fun j hj => absurd hj (by simp [View.orderInUse])⟩
  | opensWithout r o hg hr ho => exact ⟨selects_law ho h.1, fun j hj => absurd hj (by simp [View.orderInUse])⟩
  | opensWith r o j n hg hr ho hc hn =>
    refine ⟨selects_law ho h.1, fun i hi => ?_⟩
    obtain rfl : j = i := by simpa [View.orderInUse] using hi
    exact hc

end Sys2Proof.Machine
end

section
/-! PROOFS. The laws of the tube table (law 2) and of the gain codes (law 10) over the view of the part, kept by each move. -/

namespace Sys2Proof.Machine

open Safety

/-! ### The tube table (law 2) -/

/-- `RecordsOk` of a view, but for what an idle scanner says of the release queue. -/
structure View.RecordsCore (v : View) : Prop where
  opened : ∀ r : RecNo, v.records[r] = .opened ↔ v.tube.bind TubeView.record = some r
  owners : ∀ (b : BlockNo) (r : RecNo), v.owner[b] = some r → v.records[r] ≠ .free
  nodup : v.releaseQueue.Nodup
  releasing : ∀ r : RecNo, v.records[r] = .releasing ↔ r ∈ v.releaseQueue ∨ v.scan.map Prod.fst = some r
  apart : ∀ r : RecNo, r ∈ v.releaseQueue → v.scan.map Prod.fst ≠ some r
  passed : ∀ (r : RecNo) (next : Nat) (b : BlockNo), v.scan = some (r, next) → b.val < next → v.owner[b] ≠ some r

/-- `RecordsOk` of a view. -/
def View.RecordsLaw (v : View) : Prop := v.RecordsCore ∧ (v.scan = none → v.releaseQueue = [])

theorem State.view_record (s : State) : s.view.tube.bind TubeView.record = s.tube.bind Tube.record := by
  unfold State.view
  cases s.tube <;> rfl

theorem State.view_scanned (s : State) : s.view.scan.map Prod.fst = s.pool.scan.map Scan.record := by
  unfold State.view
  cases s.pool.scan <;> rfl

theorem recordsOk_iff (s : State) : RecordsOk s ↔ s.view.RecordsLaw := by
  constructor
  · rintro ⟨hopened, howners, hnodup, hreleasing, hapart, hserved, hpassed⟩
    refine ⟨⟨fun r => ?_, howners, hnodup, fun r => ?_, fun r hr => ?_, fun r next b hs hb => ?_⟩, fun hs => hserved ?_⟩
    · rw [State.view_record]; exact hopened r
    · rw [State.view_scanned]; exact hreleasing r
    · rw [State.view_scanned]; exact hapart r hr
    · obtain ⟨c, hc, e⟩ := Option.map_eq_some_iff.1 hs
      obtain ⟨rfl, rfl⟩ := Prod.mk.injEq .. ▸ e
      exact hpassed c b hc hb
    · exact Option.map_eq_none_iff.1 hs
  · rintro ⟨⟨hopened, howners, hnodup, hreleasing, hapart, hpassed⟩, hserved⟩
    refine ⟨fun r => ?_, howners, hnodup, fun r => ?_, fun r hr => ?_, fun hs => hserved (Option.map_eq_none_iff.2 hs), fun c b hc hb => ?_⟩
    · rw [← State.view_record]; exact hopened r
    · rw [← State.view_scanned]; exact hreleasing r
    · rw [← State.view_scanned]; exact hapart r hr
    · exact hpassed c.record c.next b (Option.map_eq_some_iff.2 ⟨c, hc, rfl⟩) hb

theorem View.RecordsCore.of_same {v w : View} (h : v.RecordsCore) (hr : w.records = v.records) (ho : w.owner = v.owner)
    (hq : w.releaseQueue = v.releaseQueue) (hs : w.scan = v.scan)
    (ht : w.tube.bind TubeView.record = v.tube.bind TubeView.record) : w.RecordsCore := by
  obtain ⟨hopened, howners, hnodup, hreleasing, hapart, hpassed⟩ := h
  refine ⟨?_, ?_, ?_, ?_, ?_, ?_⟩ <;> simpa only [hr, ho, hq, hs, ht]

theorem View.RecordsLaw.of_same {v w : View} (h : v.RecordsLaw) (hr : w.records = v.records) (ho : w.owner = v.owner)
    (hq : w.releaseQueue = v.releaseQueue) (hs : w.scan = v.scan)
    (ht : w.tube.bind TubeView.record = v.tube.bind TubeView.record) : w.RecordsLaw :=
  ⟨h.1.of_same hr ho hq hs ht, by rw [hq, hs]; exact h.2⟩

/-- Once the scanner is served, the queue waits only behind a scan. -/
theorem View.RecordsCore.served {v : View} (h : v.RecordsCore) : v.served.RecordsLaw := by
  obtain ⟨e, hidle⟩ | ⟨r, rest, hs, hq, e⟩ := v.served_cases <;> rw [e]
  · exact ⟨h, hidle⟩
  · obtain ⟨hopened, howners, hnodup, hreleasing, hapart, hpassed⟩ := h
    rw [hq, List.nodup_cons] at hnodup
    refine ⟨⟨hopened, howners, hnodup.2, fun q => ?_, fun q hqr => ?_, fun q next b hsc hb => ?_⟩, by simp⟩
    · show v.records[q] = .releasing ↔ q ∈ rest ∨ some r = some q
      rw [hreleasing, hs, hq]
      simp [or_comm, eq_comm]
    · rintro e
      obtain rfl : r = q := by simpa using e
      exact hnodup.1 hqr
    · obtain ⟨-, rfl⟩ : r = q ∧ 0 = next := by simpa using hsc
      omega

/-- A record set to another state, and the others as they were. -/
theorem records_set (v : Vector RecState 16) (r : RecNo) (x : RecState) (i : RecNo) :
    r = i ∧ (vset v r x)[i] = x ∨ r ≠ i ∧ (vset v r x)[i] = v[i] := by
  by_cases e : r = i <;> simp [-Fin.getElem_fin, e]

/-- The record whose scan has come to its end becomes FREE. -/
theorem View.RecordsCore.ends {v : View} {r : RecNo} {next : Nat} (h : v.RecordsCore) (hs : v.scan = some (r, next)) (hn : 952 ≤ next) :
    View.RecordsCore { v with scan := none, records := vset v.records r .free } := by
  obtain ⟨hopened, howners, hnodup, hreleasing, hapart, hpassed⟩ := h
  have hrel : v.records[r] = .releasing := (hreleasing r).2 (.inr (by simp [hs]))
  have hout : r ∉ v.releaseQueue := fun hm => hapart r hm (by simp [hs])
  refine ⟨fun i => ?_, fun b i hb => ?_, hnodup, fun i => ?_, by simp, by simp⟩ <;>
    obtain ⟨rfl, e⟩ | ⟨hne, e⟩ := records_set v.records r .free i <;> simp only [e]
  · rw [← hopened, hrel]; simp
  · exact hopened i
  · exact absurd hb (hpassed r next b hs (by omega))
  · exact howners b i hb
  · exact iff_of_false nofun (by simpa using hout)
  · rw [hreleasing, hs]; simp [hne]

/-- A COMPLETE record joins the release queue. -/
theorem View.RecordsCore.releases {v : View} {r : RecNo} (h : v.RecordsCore) (hr : v.records[r] = .complete) :
    View.RecordsCore { v with records := vset v.records r .releasing, releaseQueue := v.releaseQueue ++ [r] } := by
  obtain ⟨hopened, howners, hnodup, hreleasing, hapart, hpassed⟩ := h
  have hout : ¬(r ∈ v.releaseQueue ∨ v.scan.map Prod.fst = some r) := by rw [← hreleasing, hr]; simp
  rw [not_or] at hout
  refine ⟨fun i => ?_, fun b i hb => ?_, ?_, fun i => ?_, fun i hi => ?_, hpassed⟩
  · obtain ⟨rfl, e⟩ | ⟨hne, e⟩ := records_set v.records r .releasing i <;> simp only [e]
    · rw [← hopened, hr]; simp
    · exact hopened i
  · obtain ⟨rfl, e⟩ | ⟨hne, e⟩ := records_set v.records r .releasing i <;> simp only [e]
    · simp
    · exact howners b i hb
  · refine List.nodup_append.2 ⟨hnodup, List.nodup_singleton r, ?_⟩
    rintro x hx y hy rfl
    rw [List.mem_singleton] at hy
    exact hout.1 (hy ▸ hx)
  · obtain ⟨rfl, e⟩ | ⟨hne, e⟩ := records_set v.records r .releasing i <;> simp only [e]
    · simp
    · rw [hreleasing]; simp [Ne.symm hne]
  · rcases List.mem_append.1 hi with hi | hi
    · exact hapart i hi
    · rw [List.mem_singleton.1 hi]; exact hout.2

/-- Every move keeps law 2. -/
theorem Move.recordsLaw {v w : View} (m : Move v w) (h : v.RecordsLaw) : w.RecordsLaw := by
  have ⟨hcore, hserved⟩ := h
  have ⟨hopened, howners, hnodup, hreleasing, hapart, hpassed⟩ := hcore
  cases m with
  | allocates w ha =>
    obtain ⟨x, r, b, rest, hx, hr, hf⟩ := ha
    have hrec : v.records[r] = .opened := (hopened r).2 (by simp [hx, hr])
    have owned : ∀ (c : BlockNo) (i : RecNo), (vset v.owner b (some r))[c] = some i → v.owner[c] = some i ∨ r = i := by
      intro c i hc
      by_cases e : b = c
      · subst e; exact .inr (by simpa using hc)
      · exact .inl (by simpa [-Fin.getElem_fin, e] using hc)
    refine ⟨⟨hopened, fun c i hc => ?_, hnodup, hreleasing, hapart, fun i next c hs hlt hc => ?_⟩, hserved⟩
    · obtain hc | rfl := owned c i hc
      · exact howners c i hc
      · simp [hrec, -Fin.getElem_fin]
    · obtain hc | rfl := owned c i hc
      · exact hpassed i next c hs hlt hc
      · have := (hreleasing r).2 (.inr (by rw [hs]; rfl))
        rw [hrec] at this
        cases this
  | amends j y fired =>
    obtain ⟨-, -, e⟩ | ⟨-, e⟩ := v.amended_cases j y fired <;> rw [e] <;> exact h.of_same rfl rfl rfl rfl rfl
  | releases r hr => exact (hcore.releases hr).served
  | serves => exact hcore.served
  | scans r b hs ho =>
    refine ⟨⟨hopened, howners, hnodup, fun i => ?_, fun i hi => ?_, fun i next c hsc hlt => ?_⟩, by simp⟩
    · simpa [hs] using hreleasing i
    · simpa [hs] using hapart i hi
    · obtain ⟨rfl, rfl⟩ : r = i ∧ b.val + 1 = next := by simpa using hsc
      by_cases e : c = b
      · rw [e]; exact ho
      · exact hpassed r b.val c hs (lt_of_le_of_ne (Nat.lt_succ_iff.1 hlt) (fun hv => e (Fin.ext hv)))
  | returns r b hs ho =>
    have owned : ∀ (c : BlockNo) (i : RecNo), (vset v.owner b none)[c] = some i → b ≠ c ∧ v.owner[c] = some i := by
      intro c i hc
      by_cases e : b = c
      · subst e; simp at hc
      · exact ⟨e, by simpa [-Fin.getElem_fin, e] using hc⟩
    refine ⟨⟨hopened, fun c i hc => howners c i (owned c i hc).2, hnodup, fun i => ?_, fun i hi => ?_,
      fun i next c hsc hlt hc => ?_⟩, by simp⟩
    · simpa [hs] using hreleasing i
    · simpa [hs] using hapart i hi
    · obtain ⟨rfl, rfl⟩ : r = i ∧ b.val + 1 = next := by simpa using hsc
      obtain ⟨hne, hc⟩ := owned c r hc
      exact hpassed r b.val c hs (lt_of_le_of_ne (Nat.lt_succ_iff.1 hlt) (fun hv => hne (Fin.ext hv).symm)) hc
  | endsScan r next hs hn => exact (hcore.ends hs hn).served
  | endsMeasuring halt hg =>
    refine h.of_same rfl rfl rfl rfl ?_
    cases v.tube <;> rfl
  | closes g o hto hg ho =>
    cases hr : v.tube.bind TubeView.record with
    | none =>
      have e : v.completed = v.records := by simp [View.completed, hr]
      refine ⟨?_, hserved⟩
      simp only [e]
      exact hcore.of_same rfl rfl rfl rfl (by simp [hr])
    | some r =>
      have e : v.completed = vset v.records r .complete := by simp [View.completed, hr]
      have hrec : v.records[r] = .opened := (hopened r).2 hr
      have hout : ¬(r ∈ v.releaseQueue ∨ v.scan.map Prod.fst = some r) := by rw [← hreleasing, hrec]; simp
      refine ⟨⟨fun i => ?_, fun b i hb => ?_, hnodup, fun i => ?_, hapart, hpassed⟩, hserved⟩ <;> simp only [e] <;>
        obtain ⟨rfl, e⟩ | ⟨hne, e⟩ := records_set v.records r .complete i <;> rw [e]
      · simp
      · rw [hopened, hr]; simp [hne]
      · simp
      · exact howners b i hb
      · exact iff_of_false nofun hout
      · exact hreleasing i
  | opensSlot | fires | endsShot | requests | advances | losesTrack | marksHalt | clears | halts | starts =>
    exact h.of_same rfl rfl rfl rfl rfl

/-- A FREE record is opened for a tube, none being open. -/
theorem View.RecordsLaw.opens {v w : View} {r : RecNo} (h : v.RecordsLaw) (ht : v.tube = none) (hr : v.records[r] = .free)
    (hw : w.records = vset v.records r .opened) (ho : w.owner = v.owner) (hq : w.releaseQueue = v.releaseQueue) (hs : w.scan = v.scan)
    (hx : w.tube.bind TubeView.record = some r) : w.RecordsLaw := by
  obtain ⟨⟨hopened, howners, hnodup, hreleasing, hapart, hpassed⟩, hserved⟩ := h
  refine ⟨⟨fun i => ?_, fun b i hb => ?_, by rwa [hq], fun i => ?_, by rwa [hq, hs], by rwa [ho, hs]⟩, by rwa [hq, hs]⟩
  · rw [hw, hx]
    obtain ⟨rfl, e⟩ | ⟨hne, e⟩ := records_set v.records r .opened i <;> rw [e]
    · simp
    · rw [hopened, ht]; simp [hne]
  · rw [hw]
    obtain ⟨rfl, e⟩ | ⟨hne, e⟩ := records_set v.records r .opened i <;> rw [e]
    · simp
    · exact howners b i (by rwa [ho] at hb)
  · rw [hw, hq, hs, ← hreleasing]
    obtain ⟨rfl, e⟩ | ⟨hne, e⟩ := records_set v.records r .opened i <;> rw [e]
    rw [hr]; simp

theorem View.reset_recordsLaw (g : GaugeState) (active : Bool) :
    ({ State.reset.view with gauge := g, resetActive := active } : View).RecordsLaw := by
  have hr : State.reset.view.records = Vector.replicate 16 .free := by simp only [State.view, State.reset]
  have ht : State.reset.view.tube = none := by simp [State.view, State.reset]
  have hq : State.reset.view.releaseQueue = [] := by simp [State.view, State.reset, Pool.reset]
  have hs : State.reset.view.scan = none := by simp [State.view, State.reset, Pool.reset]
  have ho := State.reset_view_owner
  generalize State.reset.view = v at *
  refine ⟨⟨?_, ?_, ?_, ?_, ?_, ?_⟩, ?_⟩ <;> simp [hr, ht, hq, hs, ho]

theorem Turn.recordsLaw {v w : View} (m : Turn v w) (hg : v.GaugeLaw) (h : v.RecordsLaw) : w.RecordsLaw := by
  have none_open : v.gauge = .armed → v.tube = none := fun e => by simpa [e] using hg.tube
  cases m with
  | resets active => exact View.reset_recordsLaw .init active
  | leavesInit => exact View.reset_recordsLaw .halted false
  | misses ha => exact h.of_same rfl rfl rfl rfl (by simp [none_open ha])
  | opensWithout r o ha hr => exact h.opens (none_open ha) hr rfl rfl rfl rfl rfl
  | opensWith r o j n ha hr => exact h.opens (none_open ha) hr rfl rfl rfl rfl rfl

end Sys2Proof.Machine
end

section
/-! PROOFS. The law of the gain codes (law 10) over the view of the part, kept by each move. -/

namespace Sys2Proof.Machine

open Safety

/-! ### The gain settings of the orders -/

/-- The gain settings of every order and of every pending amendment are in their ranges. -/
structure Orders.GainLaw (o : Orders) : Prop where
  snapshots : ∀ (j : SlotNo) (n : Snapshot), o.slots[j].snapshot = some n → GainSettingsOk n.recipe
  amendments : ∀ (j : SlotNo) (y : Amendment), o.slots[j].amendment = some y → AmendGainOk y

/-- A change of one slot keeps the gain settings where those of its new contents are in their ranges. -/
theorem Orders.GainLaw.of_slot {o u : Orders} {j : SlotNo} {x : OrderSlot} (h : o.GainLaw) (hs : u.slots = vset o.slots j x)
    (hn : ∀ n, x.snapshot = some n → GainSettingsOk n.recipe) (ha : ∀ y, x.amendment = some y → AmendGainOk y) : u.GainLaw := by
  refine ⟨fun i n hi => ?_, fun i y hi => ?_⟩ <;> rw [hs] at hi <;> by_cases e : j = i
  · subst e; exact hn n (by simpa using hi)
  · exact h.snapshots i n (by simpa [-Fin.getElem_fin, e] using hi)
  · subst e; exact ha y (by simpa using hi)
  · exact h.amendments i y (by simpa [-Fin.getElem_fin, e] using hi)

theorem amendedSlot_gain {x : OrderSlot} {y : Amendment} (hy : AmendGainOk y) (n : Snapshot)
    (hn : (amendedSlot x y).snapshot = some n) : GainSettingsOk n.recipe := by
  obtain ⟨m, -, rfl⟩ := Option.map_eq_some_iff.1 hn
  exact hy

/-- An amendment that goes over into the snapshot of its slot. -/
theorem Orders.GainLaw.amended {o : Orders} (h : o.GainLaw) (j : SlotNo) {y : Amendment} (hy : AmendGainOk y) :
    (o.setSlot j (amendedSlot o.slots[j] y)).GainLaw :=
  h.of_slot rfl (amendedSlot_gain hy) nofun

/-- The settings of a slot stay, and nothing new is pending. -/
theorem Orders.GainLaw.kept {o u : Orders} {j : SlotNo} {x : OrderSlot} (h : o.GainLaw) (hs : u.slots = vset o.slots j x)
    (hn : x.snapshot = o.slots[j].snapshot) (ha : x.amendment = o.slots[j].amendment ∨ x.amendment = none) : u.GainLaw := by
  refine h.of_slot hs (fun n hx => h.snapshots j n (hn ▸ hx)) (fun y hy => ?_)
  rcases ha with ha | ha <;> rw [ha] at hy
  · exact h.amendments j y hy
  · cases hy

theorem Orders.GainLaw.emptied {o u : Orders} {j : SlotNo} {st : SlotState} (h : o.GainLaw)
    (hs : u.slots = vset o.slots j (emptied o.slots[j] st)) : u.GainLaw := h.of_slot hs nofun nofun

theorem Request.gainLaw {use : Option SlotNo} {o u : Orders} (m : Request use o u) (h : o.GainLaw) : u.GainLaw := by
  cases m with
  | posts j n hp hg =>
    refine h.of_slot rfl (fun m hm => ?_) nofun
    obtain rfl : n = m := by simpa [postedSlot] using hm
    exact hg
  | refuses j hp => exact h.kept rfl rfl (.inl rfl)
  | frees j hs => exact h.emptied rfl
  | amends j y hs hy => exact h.amended j hy
  | awaits j y hs hy =>
    refine h.of_slot rfl (fun n hn => h.snapshots j n hn) (fun z hz => ?_)
    obtain rfl : y = z := by simpa using hz
    exact hy
  | marks j hs => exact h.kept rfl rfl (.inr rfl)
  | withdraws j => exact h.kept rfl rfl (.inr rfl)
  | spends j hs => exact h.emptied rfl

theorem Select.gainLaw {o u : Orders} (m : Select o u) (h : o.GainLaw) : u.GainLaw := by
  cases m with
  | yields j hc => exact h.emptied rfl
  | promotes j rest hc hq => exact h.kept rfl rfl (.inl rfl)
  | applies j y hc hy => exact h.amended j (h.amendments j y hy)
  | takes j hc => exact h.kept rfl rfl (.inl rfl)

theorem selects_gainLaw {o u : Orders} (m : Relation.ReflTransGen Select o u) (h : o.GainLaw) : u.GainLaw := by
  induction m with
  | refl => exact h
  | tail _ m ih => exact m.gainLaw ih

/-- No request of the host changes the settings of the order in use. -/
theorem Request.snapshot {j : SlotNo} {o u : Orders} (m : Request (some j) o u) (hj : o.slots[j].state = .active) :
    u.slots[j].snapshot = o.slots[j].snapshot := by
  have other : ∀ {i : SlotNo} {x : OrderSlot}, o.slots[i].state ≠ .active → (vset o.slots i x)[j].snapshot = o.slots[j].snapshot := by
    intro i x hi
    have hne : i ≠ j := by rintro rfl; exact hi hj
    simp [-Fin.getElem_fin, hne]
  have same : ∀ {i : SlotNo} {x : OrderSlot}, x.snapshot = o.slots[i].snapshot →
      (vset o.slots i x)[j].snapshot = o.slots[j].snapshot := by
    intro i x hx
    by_cases e : i = j
    · subst e; simpa using hx
    · simp [-Fin.getElem_fin, e]
  cases m with
  | posts i n hp => exact other (by rcases hp with e | e | e <;> rw [e] <;> nofun)
  | refuses i hp => exact same rfl
  | frees i hs => exact other (by rw [hs]; nofun)
  | amends i y hs => exact other (by rw [hs]; nofun)
  | awaits i y hs => exact same rfl
  | marks i hs => exact same rfl
  | withdraws i => exact same rfl
  | spends i hs hu =>
    have hne : i ≠ j := by rintro rfl; exact hu rfl
    simp [Orders.spent, -Fin.getElem_fin, hne]

/-! ### The gain codes (law 10) -/

/-- `GainOk` of a view. -/
structure View.GainLaw (v : View) : Prop where
  orders : v.orders.GainLaw
  bound : ∀ (k : Head) (b : Snapshot) (due : Bool), v.shot = some (k, b, due) → GainSettingsOk b.recipe
  codes : ∀ k : Head, v.gains[k] ≤ 15
  inRange : ∀ (n : Snapshot) (k : Head), v.tubeOrder = some n →
    (n.recipe.gmin ≤ v.gains[k] ∧ v.gains[k] ≤ n.recipe.gmax) ∨ ∃ b, v.shot = some (k, b, true)

theorem State.view_shot_iff (s : State) (k : Head) (b : Snapshot) (due : Bool) :
    s.view.shot = some (k, b, due) ↔ ∃ sh, s.inFlight = some (k, sh) ∧ sh.bound = b ∧ sh.clampDue = due := by
  unfold State.view
  constructor
  · intro h
    obtain ⟨⟨i, sh⟩, hs, e⟩ := Option.map_eq_some_iff.1 h
    obtain ⟨rfl, rfl, rfl⟩ : i = k ∧ sh.bound = b ∧ sh.clampDue = due := by simpa [shotView] using e
    exact ⟨sh, hs, rfl, rfl⟩
  · rintro ⟨sh, hs, rfl, rfl⟩
    exact Option.map_eq_some_iff.2 ⟨(k, sh), hs, rfl⟩

theorem gainOk_iff (s : State) : GainOk s ↔ s.view.GainLaw := by
  constructor
  · rintro ⟨hsnapshots, hamendments, hbound, hcodes, hrange⟩
    refine ⟨⟨hsnapshots, hamendments⟩, fun k b due hs => ?_, fun k => by rw [State.view_gain]; exact hcodes k, fun n k hn => ?_⟩
    · obtain ⟨sh, hf, rfl, -⟩ := (s.view_shot_iff k b due).1 hs
      exact hbound k sh hf
    · rw [State.view_tubeOrder] at hn
      rw [State.view_gain]
      refine (hrange n k hn).imp id ?_
      rintro ⟨sh, hs, hd⟩
      exact ⟨sh.bound, (s.view_shot_iff k _ _).2 ⟨sh, hs, rfl, hd⟩⟩
  · rintro ⟨⟨hsnapshots, hamendments⟩, hbound, hcodes, hrange⟩
    refine ⟨hsnapshots, hamendments, fun k sh hs => hbound k sh.bound sh.clampDue ((s.view_shot_iff k _ _).2 ⟨sh, hs, rfl, rfl⟩),
      fun k => by rw [← State.view_gain]; exact hcodes k, fun n k hn => ?_⟩
    rw [← State.view_gain]
    refine (hrange n k (by rwa [State.view_tubeOrder])).imp id ?_
    rintro ⟨b, hs⟩
    obtain ⟨sh, hs, -, hd⟩ := (s.view_shot_iff k _ _).1 hs
    exact ⟨sh, hs, hd⟩

/-- A move that leaves orders, shot and gain codes alone, and the order of the open tube or ends the tube. -/
theorem View.GainLaw.of_same {v w : View} (h : v.GainLaw) (ho : w.orders = v.orders) (hs : w.shot = v.shot) (hg : w.gains = v.gains)
    (ht : w.orderInUse = v.orderInUse ∨ w.orderInUse = none) : w.GainLaw := by
  obtain ⟨horders, hbound, hcodes, hrange⟩ := h
  refine ⟨by rwa [ho], by rwa [hs], by rwa [hg], fun n k hn => ?_⟩
  rw [hs, hg]
  rcases ht with ht | ht <;> rw [View.tubeOrder, ht] at hn
  · exact hrange n k (by rwa [ho] at hn)
  · cases hn

theorem View.GainLaw.served {v : View} (h : v.GainLaw) : v.served.GainLaw := by
  obtain ⟨e, -⟩ | ⟨r, rest, -, -, e⟩ := v.served_cases
  · rwa [e]
  · rw [e]; exact h.of_same rfl rfl rfl (.inl rfl)

theorem View.tubeOrder_eq_some {v : View} {n : Snapshot} :
    v.tubeOrder = some n ↔ ∃ j, v.orderInUse = some j ∧ v.orders.slots[j].snapshot = some n := Option.bind_eq_some_iff

theorem View.GainLaw.order {v : View} (h : v.GainLaw) {n : Snapshot} (hn : v.tubeOrder = some n) : GainSettingsOk n.recipe := by
  obtain ⟨j, -, hj⟩ := View.tubeOrder_eq_some.1 hn
  exact h.orders.snapshots j n hj

/-- The settings that bound a gain step: those of the tube's order, or those of the shot (R40). -/
theorem View.GainLaw.range {v : View} (h : v.GainLaw) {k : Head} {b : Snapshot} {due : Bool} (hs : v.shot = some (k, b, due)) :
    GainSettingsOk (v.tubeOrder.getD b).recipe := by
  cases e : v.tubeOrder with
  | none => exact h.bound k b due hs
  | some n => exact h.order e

theorem endGain_le {r : Recipe} (h : GainSettingsOk r) (due : Bool) (m : GainMove) {g : Nat} (hg : g ≤ 15) : endGain r due m g ≤ 15 := by
  obtain ⟨h1, h2, h3⟩ := h
  unfold endGain
  split
  · exact (clampGain_bounds _ _ _ (h1.trans h2)).2.trans h3
  · exact movedGain_le _ _ _ m hg (h1.trans (h2.trans h3)) h3

theorem endGain_bounds {r : Recipe} (h : GainSettingsOk r) {due : Bool} (m : GainMove) {g : Nat}
    (hg : (r.gmin ≤ g ∧ g ≤ r.gmax) ∨ due = true) : r.gmin ≤ endGain r due m g ∧ endGain r due m g ≤ r.gmax := by
  obtain ⟨h1, h2, h3⟩ := h
  unfold endGain
  split
  · exact clampGain_bounds _ _ _ (h1.trans h2)
  · next hdue =>
    obtain ⟨hlo, hhi⟩ := hg.resolve_right hdue
    exact movedGain_bounds _ _ _ m hlo hhi

/-- The end of a shot brings its channel into the range of the order (R40, R41). -/
theorem View.GainLaw.ends {v : View} {k : Head} {b : Snapshot} {due : Bool} (h : v.GainLaw) (m : GainMove)
    (hs : v.shot = some (k, b, due)) :
    View.GainLaw { v with shot := none, gains := vset v.gains k (endGain (v.tubeOrder.getD b).recipe due m v.gains[k]) } := by
  have hr := h.range hs
  refine ⟨h.orders, by simp, fun i => ?_, fun n i hn => .inl ?_⟩ <;> by_cases e : k = i
  · subst e; simpa using endGain_le hr due m (h.codes k)
  · simpa [-Fin.getElem_fin, e] using h.codes i
  · subst e
    change v.tubeOrder = some n at hn
    have hrange : n.recipe.gmin ≤ v.gains[k] ∧ v.gains[k] ≤ n.recipe.gmax ∨ due = true :=
      (h.inRange n k hn).imp id (fun ⟨c, hb⟩ => (by simpa using hs.symm.trans hb : b = c ∧ due = true).2)
    simpa [hn] using endGain_bounds (h.order hn) m hrange
  · have := (h.inRange n i hn).resolve_right (by rintro ⟨c, hc⟩; rw [hs] at hc; simp [e] at hc)
    simpa [-Fin.getElem_fin, e] using this

/-- An amendment at a cycle start brings every channel but that of a shot just fired into its range, and that one when the shot ends
(R41). -/
theorem View.GainLaw.amended {v : View} {j : SlotNo} {y : Amendment} (h : v.GainLaw) (hy : AmendGainOk y) (fired : Bool) :
    (v.amended j y fired).GainLaw := by
  have ⟨horders, hbound, hcodes, hrange⟩ := h
  have ⟨h1, h2, h3⟩ := hy
  obtain ⟨huse, hsome, e⟩ | ⟨hnot, e⟩ := v.amended_cases j y fired <;> rw [e]
  · have clamped : ∀ i : Head, y.gmin ≤ clampGain y.gmin y.gmax v.gains[i] ∧ clampGain y.gmin y.gmax v.gains[i] ≤ y.gmax :=
      fun i => clampGain_bounds _ _ _ (h1.trans h2)
    refine ⟨horders.amended j hy, fun k b due hs => ?_, fun k => ?_, fun n k hn => ?_⟩
    · cases fired with
      | false => exact hbound k b due hs
      | true =>
        obtain ⟨⟨i, c, d⟩, hc, e⟩ := Option.map_eq_some_iff.1 hs
        obtain ⟨rfl, rfl, rfl⟩ : i = k ∧ c = b ∧ true = due := by simpa using e
        exact hbound i c d hc
    · simp only [Fin.getElem_fin, Vector.getElem_ofFn]
      split
      · exact hcodes k
      · exact (clamped k).2.trans h3
    · obtain ⟨i, hi, hn⟩ := View.tubeOrder_eq_some.1 hn
      obtain rfl : j = i := by
        have : v.orderInUse = some i := hi
        simpa [huse] using this
      obtain ⟨m, -, rfl⟩ : ∃ m, v.orders.slots[j].snapshot = some m ∧ amendSnapshot m y = n := by
        simpa [Orders.setSlot, amendedSlot, -Fin.getElem_fin] using hn
      simp only [Fin.getElem_fin, Vector.getElem_ofFn]
      split
      · next hk =>
        obtain ⟨hf, hk⟩ := hk
        obtain ⟨⟨i, c, d⟩, hc, e⟩ := Option.map_eq_some_iff.1 hk
        obtain rfl : i = k := e
        exact .inr ⟨c, by simp [hf, hc]⟩
      · exact .inl (clamped k)
  · refine ⟨horders.amended j hy, hbound, hcodes, fun n k hn => ?_⟩
    obtain ⟨i, hi, hn⟩ := View.tubeOrder_eq_some.1 hn
    refine hrange n k (View.tubeOrder_eq_some.2 ⟨i, hi, ?_⟩)
    by_cases hji : j = i
    · subst hji
      have hnone : v.orders.slots[j].snapshot = none := by
        simpa [-Fin.getElem_fin] using fun h => hnot ⟨hi, h⟩
      simp [Orders.setSlot, amendedSlot, hnone, -Fin.getElem_fin] at hn
    · simpa [Orders.setSlot, -Fin.getElem_fin, hji] using hn

/-- Every move keeps law 10. -/
theorem Move.gainLaw {v w : View} (m : Move v w) (hg : v.GaugeLaw) (ho : v.OrdersLaw) (h : v.GainLaw) : w.GainLaw := by
  have idle : v.tube = none → v.orderInUse = none := fun e => by simp [View.orderInUse, e]
  cases m with
  | fires k n hs hn =>
    refine ⟨h.orders, fun i b due hb => ?_, h.codes, fun q i hq => .inl ?_⟩
    · obtain ⟨-, rfl, -⟩ : k = i ∧ n = b ∧ false = due := by simpa using hb
      exact h.order hn
    · exact (h.inRange q i hq).resolve_right (by simp [hs])
  | endsShot k b due move hs => exact h.ends move hs
  | requests o hr =>
    refine ⟨hr.gainLaw h.orders, h.bound, h.codes, fun n k hn => h.inRange n k ?_⟩
    obtain ⟨j, hj, hn⟩ := View.tubeOrder_eq_some.1 hn
    change v.orderInUse = some j at hj
    rw [hj] at hr
    exact View.tubeOrder_eq_some.2 ⟨j, hj, hr.snapshot ((ho.1.active j).1 (ho.2 j hj)) ▸ hn⟩
  | amends j y fired hc hy => exact h.amended (h.orders.amendments j y hy) fired
  | releases | endsScan => exact View.GainLaw.served (h.of_same rfl rfl rfl (.inl rfl))
  | serves => exact h.served
  | endsMeasuring halt hm =>
    refine h.of_same rfl rfl rfl (.inl ?_)
    unfold View.orderInUse
    cases v.tube <;> rfl
  | closes g o hto hm hu =>
    have horders : o.GainLaw := by
      rcases hu with rfl | ⟨j, -, rfl⟩
      · exact h.orders
      · exact h.orders.emptied rfl
    exact ⟨horders, h.bound, h.codes, fun n k hn => absurd hn (by simp [View.tubeOrder, View.orderInUse])⟩
  | halts hm =>
    have hnone : v.tube = none := by rcases hm with e | e <;> simpa [e] using hg.tube
    exact ⟨h.orders, by simp, h.codes, fun n k hn => absurd hn (by simp [View.tubeOrder, View.orderInUse, hnone])⟩
  | starts g hto hm =>
    have hnone : v.tube = none := by simpa [hm] using hg.tube
    exact ⟨h.orders, by simp, h.codes, fun n k hn => absurd hn (by simp [View.tubeOrder, View.orderInUse, hnone])⟩
  | allocates w ha =>
    obtain ⟨x, r, b, rest, hx, hr, hf⟩ := ha
    exact h.of_same rfl rfl rfl (.inl rfl)
  | opensSlot | scans | returns | advances | losesTrack | marksHalt | clears => exact h.of_same rfl rfl rfl (.inl rfl)

theorem View.reset_gainLaw (g : GaugeState) (active : Bool) :
    ({ State.reset.view with gauge := g, resetActive := active } : View).GainLaw := by
  have ht : State.reset.view.tube = none := by simp [State.view, State.reset]
  have hs : State.reset.view.shot = none := by simp [State.view, State.reset, State.inFlight]
  have hg : State.reset.view.gains = Vector.replicate 4 0 := by
    ext i hi; simp [State.view, State.reset, Channel.reset]
  have ho : State.reset.view.orders.slots = Vector.replicate 4 OrderSlot.free := by simp [State.view, State.reset]
  generalize State.reset.view = v at *
  refine ⟨⟨?_, ?_⟩, ?_, ?_, ?_⟩ <;> simp [hs, hg, ho, ht, OrderSlot.free, View.tubeOrder, View.orderInUse]

theorem Turn.gainLaw {v w : View} (m : Turn v w) (h : v.GainLaw) : w.GainLaw := by
  cases m with
  | resets active => exact View.reset_gainLaw .init active
  | leavesInit => exact View.reset_gainLaw .halted false
  | misses hg => exact h.of_same rfl rfl rfl (.inr rfl)
  | opensWithout r o hg hr ho =>
    exact ⟨selects_gainLaw ho h.orders, h.bound, h.codes, fun n k hn => absurd hn (by simp [View.tubeOrder, View.orderInUse])⟩
  | opensWith r o j n hg hr ho hc hn =>
    have horders := selects_gainLaw ho h.orders
    obtain ⟨h1, h2, h3⟩ := horders.snapshots j n hn
    refine ⟨horders, h.bound, fun k => by simpa using h2.trans h3, fun m k hm => .inl ?_⟩
    obtain rfl : n = m := by
      have : o.slots[j].snapshot = some m := hm
      exact Option.some.inj (hn.symm.trans this)
    simpa using ⟨h1, h2⟩

end Sys2Proof.Machine
end

section
/-! PROOFS. What each operation of the part does in terms of the moves of its view, from the writing of a word to the end of a shot. -/

namespace Sys2Proof.Machine

open Safety

/-! ### States with the same view, states that moves lead to -/

/-- `t` looks to the laws as `s` does, and its memory is canonical if that of `s` is. -/
def SameView (s t : State) : Prop := t.view = s.view ∧ (Memory.wf s.mem → Memory.wf t.mem)

/-- `t` comes from `s` by blocks that the open tube's record takes. -/
def Fills (s t : State) : Prop := Relation.ReflTransGen Alloc s.view t.view ∧ (Memory.wf s.mem → Memory.wf t.mem)

/-- `t` comes from `s` by moves of the part. -/
def Reaches (s t : State) : Prop := Relation.ReflTransGen Move s.view t.view ∧ (Memory.wf s.mem → Memory.wf t.mem)

theorem SameView.refl (s : State) : SameView s s := ⟨rfl, id⟩

theorem SameView.trans {s t u : State} (h : SameView s t) (g : SameView t u) : SameView s u := ⟨g.1.trans h.1, g.2 ∘ h.2⟩

theorem SameView.fills {s t : State} (h : SameView s t) : Fills s t := ⟨h.1 ▸ .refl, h.2⟩

theorem Fills.trans {s t u : State} (h : Fills s t) (g : Fills t u) : Fills s u := ⟨h.1.trans g.1, g.2 ∘ h.2⟩

theorem Fills.reaches {s t : State} (h : Fills s t) : Reaches s t := ⟨.mono (fun _ w m => .allocates w m) _ _ h.1, h.2⟩

theorem SameView.reaches {s t : State} (h : SameView s t) : Reaches s t := h.fills.reaches

theorem Reaches.refl (s : State) : Reaches s s := (SameView.refl s).reaches

theorem Reaches.trans {s t u : State} (h : Reaches s t) (g : Reaches t u) : Reaches s u := ⟨h.1.trans g.1, g.2 ∘ h.2⟩

/-- One move of the part. -/
theorem Reaches.of_move {s t : State} {w : View} (m : Move s.view w) (hw : t.view = w) (hm : Memory.wf s.mem → Memory.wf t.mem) :
    Reaches s t := ⟨.single (hw ▸ m), hm⟩

/-! ### Updates that the laws do not see -/

theorem SameView.put {s t : State} (h : SameView s t) {a : Nat} {v : Word} : SameView s (t.put a v) :=
  h.trans ⟨rfl, Memory.wf_memWrite _ _ _⟩

theorem SameView.putList {s t : State} (h : SameView s t) {a : Nat} {vs : List Word} : SameView s (t.putList a vs) :=
  h.trans ⟨rfl, Memory.wf_memWriteList _ _ _⟩

theorem Memory.wf_ite (b : Bool) {m n : Memory} (h : Memory.wf m → Memory.wf n) : Memory.wf m → Memory.wf (if b then n else m) := by
  cases b
  · exact id
  · exact h

theorem SameView.putIf {s t : State} (h : SameView s t) {b : Bool} {a : Nat} {v : Word} : SameView s (t.putIf b a v) :=
  h.trans ⟨rfl, Memory.wf_ite b (Memory.wf_memWrite _ _ _)⟩

theorem SameView.raise {s t : State} (h : SameView s t) {c : BitVec 8} : SameView s (t.raise c) := h.trans ⟨rfl, id⟩

theorem SameView.setHeadState {s t : State} (h : SameView s t) {k : Head} {x : HeadState} : SameView s (t.setHeadState k x) :=
  SameView.putIf (h.trans ⟨rfl, id⟩)

theorem SameView.setMisfires {s t : State} (h : SameView s t) {k : Head} {n : Nat} : SameView s (t.setMisfires k n) :=
  SameView.putIf (h.trans ⟨rfl, id⟩)

theorem SameView.setStray {s t : State} (h : SameView s t) {k : Head} {n : Nat} : SameView s (t.setStray k n) :=
  SameView.putIf (h.trans ⟨rfl, id⟩)

theorem SameView.setFiring {s t : State} (h : SameView s t) {f : FiringState} : SameView s (t.setFiring f) :=
  SameView.putIf (h.trans ⟨rfl, id⟩)

theorem SameView.setPLast {s t : State} (h : SameView s t) {p : Option Nat} : SameView s (t.setPLast p) :=
  SameView.putIf (h.trans ⟨rfl, id⟩)

/-- A change of the open tube that leaves its record, its order and z_tail as they were. -/
theorem SameView.modTube {s t : State} (h : SameView s t) {f : Tube → Tube} (hf : ∀ x, (f x).view = x.view := by intro; rfl) :
    SameView s (t.modTube f) := by
  refine h.trans ⟨?_, id⟩
  have : (t.tube.map f).map Tube.view = t.tube.map Tube.view := by
    cases t.tube with
    | none => rfl
    | some x => simp [hf]
  unfold State.view
  simp only [State.modTube_tube, this]
  rfl

theorem SameView.modOpen {s t : State} (h : SameView s t) {f : Tube → Tube} (hf : ∀ x, (f x).view = x.view := by intro; rfl) :
    SameView s (t.modOpen f) :=
  h.modTube fun x => by split <;> simp [hf]

theorem SameView.giveFlag {s t : State} (h : SameView s t) {f : Word} : SameView s (t.giveFlag f) := h.modOpen

theorem SameView.addTotals {s t : State} (h : SameView s t) {f : Totals → Totals} : SameView s (t.addTotals f) := h.modOpen

theorem SameView.answerSlot {s t : State} (h : SameView s t) {j : SlotNo} {a : Word} : SameView s (t.answerSlot j a) :=
  SameView.raise (.put (.put h))

/-! ### Sections on their way to memory -/

theorem State.judgeLow_sameView (s : State) : SameView s s.judgeLow := by
  unfold State.judgeLow
  split
  · exact ⟨rfl, id⟩
  · exact .refl s

theorem State.loseSection_sameView (s : State) (r : RecNo) (t : Tube) (x : SectionResult) : SameView s (s.loseSection r t x) :=
  .modTube (.putIf (.modTube (.refl s)))

theorem State.publishSection_sameView (s : State) (r : RecNo) (t : Tube) (b : BlockNo) (x : SectionResult) :
    SameView s (s.publishSection r t b x) := by
  refine .modTube (.raise (.put (.modTube ?_)))
  cases t.lastBlock <;> exact .put (.putList (.refl s))

/-- A section takes a block where one is free. -/
theorem State.writeSection_fills (s : State) (x : SectionResult) : Fills s (s.writeSection x) := by
  unfold State.writeSection
  split
  · exact (SameView.refl s).fills
  · next t ht =>
    split
    · exact (SameView.refl s).fills
    · next r hr =>
      split
      · exact (s.loseSection_sameView r t x).fills
      · next b rest hf =>
        have taken : Fills s (s.takeBlock r b rest) := by
          have hlow := State.judgeLow_sameView
            ({ s with pool := { s.pool with free := rest, owner := vset s.pool.owner b (some r) } } : State).putFreeCount
          refine ⟨.single ?_, hlow.2 ∘ Memory.wf_memWrite _ _ _⟩
          rw [State.takeBlock, hlow.1]
          exact .takes t.view r b rest (by simp [State.view, ht]) hr hf
        exact taken.trans (State.publishSection_sameView _ r t b x).fills

theorem State.writeSections_fills (s : State) (xs : List SectionResult) : Fills s (s.writeSections xs) := by
  induction xs generalizing s with
  | nil => exact (SameView.refl s).fills
  | cons x xs ih => exact (s.writeSection_fills x).trans (ih _)

theorem Fills.writeSections {s t : State} (h : Fills s t) {xs : List SectionResult} : Fills s (t.writeSections xs) :=
  h.trans (t.writeSections_fills xs)

theorem State.releasePass_fills (s : State) : Fills s s.releasePass := (SameView.modTube (.refl s)).fills.writeSections

theorem State.appendHeld_sameView (s : State) (x : SectionResult) : SameView s (s.appendHeld x) := .modTube (.refl s)

theorem State.completeSection_fills (s : State) (a : Accum) (f : Word) : Fills s (s.completeSection a f) :=
  (s.appendHeld_sameView _).fills.trans (State.releasePass_fills _)

theorem Fills.completeSection {s t : State} (h : Fills s t) {a : Accum} {f : Word} : Fills s (t.completeSection a f) :=
  h.trans (t.completeSection_fills a f)

theorem State.settleClosing_fills (s : State) : Fills s s.settleClosing := by
  unfold State.settleClosing
  split
  · exact (SameView.refl s).fills
  · split
    · exact (SameView.refl s).fills
    · exact (SameView.modTube (.refl s)).fills.completeSection

theorem Fills.settleClosing {s t : State} (h : Fills s t) : Fills s t.settleClosing := h.trans t.settleClosing_fills

theorem State.forceClosing_fills (s : State) : Fills s s.forceClosing := by
  unfold State.forceClosing
  split
  · exact (SameView.refl s).fills
  · exact (SameView.modTube (.refl s)).fills.completeSection

theorem State.crossOne_fills (s : State) (a : Accum) (mark : Word) : Fills s (s.crossOne a mark) := by
  have hopen : Fills s (s.forceClosing.modTube fun t => { t with opened := some (newAccum (a.index + 1) mark) }) :=
    s.forceClosing_fills.trans (SameView.fills (.modTube (.refl _)))
  unfold State.crossOne
  dsimp only
  split
  · exact hopen.trans (SameView.fills (.modTube (.refl _)))
  · exact hopen.completeSection

theorem State.crossings_fills (s : State) (mark : Word) (before after fuel : Nat) : Fills s (s.crossings mark before after fuel) := by
  induction fuel generalizing s with
  | zero => exact (SameView.refl s).fills
  | succ fuel ih =>
    unfold State.crossings
    split
    · exact (SameView.refl s).fills
    · split
      · exact (s.crossOne_fills _ _).trans (ih _)
      · exact (SameView.refl s).fills

theorem State.takeChange_fills (s : State) (synthetic : Bool) (before after : Nat) : Fills s (s.takeChange synthetic before after) :=
  (s.crossings_fills _ _ _ _).trans (State.releasePass_fills _)

theorem State.noteValid_sameView (s : State) (r : ShotRecord) : SameView s (s.noteValid r) := by
  unfold State.noteValid
  split
  · exact .put ⟨rfl, id⟩
  · exact .refl s

theorem State.handOver_fills (s : State) (r : ShotRecord) : Fills s (s.handOver r) :=
  Fills.settleClosing (SameView.fills (.modOpen (s.noteValid_sameView r)))

/-! ### The shot in flight -/

/-- The laws see the gain codes and the shot apart from the blocks. -/
theorem Alloc.regained {v w : View} (m : Alloc v w) (p : Option (Head × Snapshot × Bool)) (g : Vector Nat 4) :
    Alloc { v with shot := p, gains := g } { w with shot := p, gains := g } := by
  cases m with
  | takes x r b rest hx hr hf => exact .takes x r b rest hx hr hf

/-- Blocks that a tube takes leave gain codes, orders and the open tube as they were. -/
theorem Alloc.same {v w : View} (m : Relation.ReflTransGen Alloc v w) : w = { v with free := w.free, owner := w.owner } := by
  induction m with
  | refl => rfl
  | tail _ m ih =>
    cases m with
    | takes => rw [ih]

theorem State.inFlight_eq_some {s : State} {k : Head} {sh : Shot} :
    s.inFlight = some (k, sh) ↔ ∃ h, s.slot = some h ∧ h.head = k ∧ phaseShot h.phase = some sh := by
  unfold State.inFlight
  constructor
  · intro h
    obtain ⟨x, hx, h⟩ := Option.bind_eq_some_iff.1 h
    obtain ⟨y, hy, e⟩ := Option.map_eq_some_iff.1 h
    obtain ⟨rfl, rfl⟩ := Prod.mk.injEq .. ▸ e
    exact ⟨x, hx, rfl, hy⟩
  · rintro ⟨h, hs, rfl, hp⟩
    simp [hs, hp]

theorem State.setPhase_inFlight (s : State) (p : Phase) :
    (s.setPhase p).inFlight = s.slot.bind fun h => (phaseShot p).map fun sh => (h.head, sh) := by
  unfold State.inFlight
  cases h : s.slot <;> simp [h]

/-- The view of a state whose slot goes to another phase. -/
theorem State.setPhase_view (s : State) (p : Phase) :
    (s.setPhase p).view = { s.view with shot := s.slot.bind fun h => (phaseShot p).map fun sh => (h.head, sh.bound, sh.clampDue) } := by
  have h : (s.setPhase p).inFlight.map shotView = s.slot.bind fun h => (phaseShot p).map fun sh => (h.head, sh.bound, sh.clampDue) := by
    rw [State.setPhase_inFlight]
    cases s.slot <;> cases phaseShot p <;> rfl
  have ht : (s.setPhase p).slot.isSome = s.slot.isSome := by simp
  unfold State.view
  rw [h, ht]
  rfl

theorem State.setPhase_view_idle (s : State) {p : Phase} (hp : phaseShot p = none) :
    (s.setPhase p).view = { s.view with shot := none } := by
  rw [State.setPhase_view, hp]
  cases s.slot <;> rfl

/-- A change of phase that goes on with the same shot, or with none as before. -/
theorem SameView.setPhase {s : State} {h : HeadSlot} {p : Phase} (hs : s.slot = some h)
    (hp : (phaseShot p).map (fun sh => (sh.bound, sh.clampDue)) = (phaseShot h.phase).map fun sh => (sh.bound, sh.clampDue)) :
    SameView s (s.setPhase p) := by
  refine ⟨?_, id⟩
  have : (s.slot.bind fun h => (phaseShot p).map fun sh => (h.head, sh.bound, sh.clampDue)) = s.view.shot := by
    have key := congrArg (Option.map fun q : Snapshot × Bool => (h.head, q.1, q.2)) hp
    simp only [Option.map_map] at key
    simp only [State.view, State.inFlight, hs, Option.bind_some, Option.map_map]
    exact key
  rw [State.setPhase_view, this]

theorem State.setGain_view (s : State) (k : Head) (g : Nat) :
    (s.setGain k g).view = { s.view with gains := vset s.view.gains k g } := by
  have : (vset s.chans k { s.chans[k] with gain := g }).map Channel.gain = vset (s.chans.map Channel.gain) k g := by
    ext i hi
    simp only [Vector.getElem_map, vset, Vector.getElem_set]
    split <;> rfl
  unfold State.view
  simp only [State.setGain_chans, this]
  rfl

theorem State.setGain_wf (s : State) (k : Head) (g : Nat) : Memory.wf s.mem → Memory.wf (s.setGain k g).mem :=
  Memory.wf_ite _ (Memory.wf_memWrite _ _ _)

theorem State.lateClamp_view (s : State) (k : Head) (sh : Shot) :
    (s.lateClamp k sh).view = { s.view with
      gains := vset s.view.gains k (endGain (s.gainRange sh.bound) sh.clampDue .hold s.view.gains[k]) } := by
  unfold State.lateClamp endGain State.clampChannel
  split
  · rw [State.setGain_view, State.view_gain]; rfl
  · simp only [movedGain, vset_same]

theorem State.lateClamp_wf (s : State) (k : Head) (sh : Shot) : Memory.wf s.mem → Memory.wf (s.lateClamp k sh).mem := by
  unfold State.lateClamp State.clampChannel
  split
  · exact State.setGain_wf _ _ _
  · exact id

theorem State.gainRange_eq (s : State) (n : Snapshot) : s.gainRange n = (s.view.tubeOrder.getD n).recipe := by
  rw [State.view_tubeOrder]; rfl

/-- The gain step and the clamp that waited, at the end of a shot (R40, R41). -/
theorem State.gainStep_lateClamp_view (s : State) (k : Head) (sh : Shot) (a1 : Option Byte) :
    ((s.gainStep k sh.bound a1).lateClamp k sh).view = { s.view with
      gains := vset s.view.gains k (endGain (s.gainRange sh.bound) sh.clampDue (gainMove sh.bound.recipe a1) s.view.gains[k]) } := by
  have hr : (s.gainStep k sh.bound a1).gainRange sh.bound = s.gainRange sh.bound := by
    rw [State.gainRange_eq, State.gainRange_eq, State.gainStep, State.setGain_view]; rfl
  have hv : (s.gainStep k sh.bound a1).view = { s.view with
      gains := vset s.view.gains k (movedGain (s.gainRange sh.bound).gmin (s.gainRange sh.bound).gmax s.view.gains[k]
        (gainMove sh.bound.recipe a1)) } := by
    rw [State.gainStep, State.setGain_view, State.view_gain]
  rw [State.lateClamp_view, hr, hv]
  simp only [endGain, vset_vset, vset_getFin, if_pos, movedGain]

/-- The end of a shot: it is no more in flight (`a`), its record goes to the tube, which may take blocks (`c`), and its channel's gain
moves. -/
theorem Reaches.endsShot {s a c u : State} {k : Head} {sh : Shot} {m : GainMove} (hs : s.inFlight = some (k, sh))
    (ha : a.view = { s.view with shot := none }) (hwa : Memory.wf s.mem → Memory.wf a.mem) (hc : Fills a c)
    (hu : u.view = { c.view with
      gains := vset c.view.gains k (endGain (c.gainRange sh.bound) sh.clampDue m c.view.gains[k]) })
    (hwu : Memory.wf c.mem → Memory.wf u.mem) : Reaches s u := by
  have hcv : c.view = { s.view with shot := none, free := c.view.free, owner := c.view.owner } := by rw [Alloc.same hc.1, ha]
  have hrange : c.gainRange sh.bound = (s.view.tubeOrder.getD sh.bound).recipe := by rw [State.gainRange_eq, hcv]; rfl
  let g := vset s.view.gains k (endGain (s.view.tubeOrder.getD sh.bound).recipe sh.clampDue m s.view.gains[k])
  have hg : vset c.view.gains k (endGain (c.gainRange sh.bound) sh.clampDue m c.view.gains[k]) = g := by rw [hrange, hcv]
  have hmove : Move s.view { s.view with shot := none, gains := g } :=
      .endsShot k sh.bound sh.clampDue m (by simp [State.view, hs, shotView])
  have hfill : Relation.ReflTransGen Alloc { a.view with shot := none, gains := g } { c.view with shot := none, gains := g } :=
    .lift (fun v : View => { v with shot := none, gains := g }) (fun _ _ h => h.regained none g) _ _ hc.1
  rw [ha] at hfill
  have hend : u.view = { c.view with shot := none, gains := g } := by rw [hu, hg, hcv]
  refine ⟨.head hmove ?_, hwu ∘ hc.2 ∘ hwa⟩
  rw [hend]
  exact .mono (fun _ w m => .allocates w m) _ _ hfill

end Sys2Proof.Machine
end

section
/-! PROOFS. The close of a tube, the commands of a shot and the cycle starts in terms of the moves of the part's view. -/

namespace Sys2Proof.Machine

open Safety

/-! ### The close of a tube -/

theorem State.setRecState_view (s : State) (r : RecNo) (x : RecState) :
    (s.setRecState r x).view = { s.view with records := vset s.view.records r x } := rfl

theorem State.setRecState_wf (s : State) (r : RecNo) (x : RecState) : Memory.wf s.mem → Memory.wf (s.setRecState r x).mem :=
  Memory.wf_memWrite _ _ _

theorem State.closeStatus_sameView (s : State) (t : Tube) : SameView s (s.closeStatus t) :=
  have counted : SameView s { s with tubesCompleted := sat16 s.tubesCompleted } := ⟨rfl, id⟩
  counted.put.putIf.raise

theorem State.completeRecord_view (s : State) (r : RecNo) (t : Tube) :
    (s.completeRecord r t).view = { s.view with records := vset s.view.records r .complete } := by
  have h : SameView s ((s.putList (recAddr r 13) (completionWords t s.zTail)).putList (recAddr r 88) (List.replicate 40 0#16)) :=
    .putList (.putList (.refl s))
  rw [State.completeRecord, State.setRecState_view, h.1]

theorem State.completeRecord_wf (s : State) (r : RecNo) (t : Tube) : Memory.wf s.mem → Memory.wf (s.completeRecord r t).mem := by
  intro h
  refine State.setRecState_wf _ r .complete ?_
  exact (SameView.putList (.putList (.refl s))).2 h

theorem State.closeRecord_view (s : State) : s.closeRecord.view = { s.view with records := s.view.completed } := by
  unfold State.closeRecord
  cases ht : s.tube with
  | none => simp [View.completed, State.view, ht]
  | some t =>
    dsimp only
    cases hr : t.record with
    | none => simp [View.completed, State.view, ht, Tube.view, hr]
    | some r =>
      dsimp only
      rw [(State.closeStatus_sameView _ t).1, State.completeRecord_view]
      simp [View.completed, State.view, ht, Tube.view, hr]

theorem State.closeRecord_wf (s : State) : Memory.wf s.mem → Memory.wf s.closeRecord.mem := by
  unfold State.closeRecord
  cases s.tube with
  | none => exact id
  | some t =>
    dsimp only
    cases t.record with
    | none => exact id
    | some r => exact (State.closeStatus_sameView _ t).2 ∘ s.completeRecord_wf r t

/-- A slot spent, but for the answer to an amendment that was pending. -/
theorem State.spendSlot_cases (s : State) (j : SlotNo) : ∃ u : State, SameView u (s.spendSlot j)
    ∧ u.view = { s.view with orders := s.view.orders.spent j } ∧ (Memory.wf s.mem → Memory.wf u.mem) := by
  let e : State := { (s.setSlot j (emptied s.slots[j] .spent)).putSlotState j with current := none }
  refine ⟨e.putCurrent, ?_, rfl, fun h => (SameView.put (.refl e)).2 ((SameView.put (.refl (s.setSlot j _))).2 h)⟩
  unfold State.spendSlot
  dsimp only
  split
  · exact .answerSlot (.refl _)
  · exact .refl _

theorem State.spendSlot_view (s : State) (j : SlotNo) : (s.spendSlot j).view = { s.view with orders := s.view.orders.spent j } := by
  obtain ⟨u, hu, hv, -⟩ := s.spendSlot_cases j
  exact hu.1.trans hv

theorem State.spendSlot_wf (s : State) (j : SlotNo) : Memory.wf s.mem → Memory.wf (s.spendSlot j).mem := by
  obtain ⟨u, hu, -, hw⟩ := s.spendSlot_cases j
  exact hu.2 ∘ hw

/-- The lot accounting leaves the orders, or spends the order in use (R148). -/
theorem State.lotAccounting_view (s : State) : ∃ o, s.lotAccounting.view = { s.view with orders := o }
    ∧ (o = s.view.orders ∨ ∃ j, s.view.orderInUse = some j ∧ o = s.view.orders.spent j) := by
  unfold State.lotAccounting
  split
  · next j hj =>
    split
    · exact ⟨_, s.spendSlot_view j, .inr ⟨j, s.view_orderInUse.trans hj, rfl⟩⟩
    · exact ⟨_, rfl, .inl rfl⟩
  · exact ⟨_, rfl, .inl rfl⟩

theorem State.lotAccounting_wf (s : State) : Memory.wf s.mem → Memory.wf s.lotAccounting.mem := by
  unfold State.lotAccounting
  split
  · split
    · exact s.spendSlot_wf _
    · exact id
  · exact id

theorem State.enterHalted_view (s : State) : s.enterHalted.view = { s.view with
    gauge := .halted, haltPending := false, timer := false, shot := none, receiving := false, tracking := false } := rfl

theorem State.put_wf (s : State) (a : Nat) (v : Word) : Memory.wf s.mem → Memory.wf (s.put a v).mem := Memory.wf_memWrite _ _ _

theorem State.setTrack_wf (s : State) (x : TrackState) : Memory.wf s.mem → Memory.wf (s.setTrack x).mem :=
  Memory.wf_ite _ (Memory.wf_memWrite _ _ _)

theorem State.setGauge_wf (s : State) (g : GaugeState) : Memory.wf s.mem → Memory.wf (s.setGauge g).mem := Memory.wf_memWrite _ _ _

theorem State.stopLink_wf (s : State) : Memory.wf s.mem → Memory.wf s.stopLink.mem :=
  Memory.wf_memWrite s.mem (toWord stSource) (sourceCode .none)

theorem State.enterHalted_wf (s : State) : Memory.wf s.mem → Memory.wf s.enterHalted.mem := fun h =>
  State.setGauge_wf _ _ (State.stopLink_wf _ (State.setTrack_wf _ _ h))

/-- The gauge leaves CLOSING once the record and the lot of the tube have been dealt with (`c`), and HALTED follows where it was asked
for. -/
theorem State.leaveClosing_reaches {s c : State} {o : Orders} (hg : s.gauge = .closing)
    (hc : c.view = { s.view with records := s.view.completed, orders := o })
    (ho : o = s.view.orders ∨ ∃ j, s.view.orderInUse = some j ∧ o = s.view.orders.spent j)
    (hwf : Memory.wf s.mem → Memory.wf c.mem) : Reaches s c.leaveClosing := by
  have closed : ∀ g, g = .armed ∨ g = .waitClear →
      Move s.view { s.view with gauge := g, haltPending := false, tube := none, records := s.view.completed, orders := o } :=
    fun g h => .closes g o h hg ho
  unfold State.leaveClosing
  dsimp only
  split
  · have hv : ({ c with tube := none } : State).enterHalted.view = { c.view with
        gauge := .halted, haltPending := false, timer := false, shot := none, receiving := false, tracking := false, tube := none } := rfl
    refine ⟨.tail (.single (closed .armed (.inl rfl))) ?_, fun h => State.enterHalted_wf { c with tube := none } (hwf h)⟩
    rw [hv, hc]
    exact .halts (.inl rfl)
  · next hp =>
    have hh : c.view.haltPending = false := by
      have : c.haltPending = false := by simpa using hp
      exact this
    have hv : ∀ g, (({ c with tube := none } : State).setGauge g).view
        = { c.view with gauge := g, tube := none, haltPending := false } := by
      intro g
      rw [← hh]; rfl
    refine Reaches.of_move (closed (if c.presence.level = true then .waitClear else .armed) ?_) ?_ ?_
    · split <;> simp
    · rw [hv, hc]
    · exact fun h => Memory.wf_memWrite _ _ _ (hwf h)

theorem State.closeLast_sameView (s : State) : SameView s s.closeLast := by
  unfold State.closeLast
  split
  · exact .refl s
  · dsimp only
    split
    · exact (SameView.modTube (.refl s)).trans (State.appendHeld_sameView _ _)
    · exact .modTube (.refl s)

theorem State.writeHeld_fills (s : State) : Fills s s.writeHeld := (SameView.modTube (.refl s)).fills.writeSections

theorem State.closeTube_reaches {s : State} (hg : s.gauge = .closing) : Reaches s s.closeTube := by
  unfold State.closeTube
  split
  · let b := s.closeLast.writeHeld
    have hb : Fills s b := s.closeLast_sameView.fills.trans (State.writeHeld_fills _)
    have hbg : b.gauge = .closing := by simpa [b] using hg
    obtain ⟨o, hv, ho⟩ := b.closeRecord.lotAccounting_view
    rw [State.closeRecord_view] at hv ho
    exact hb.reaches.trans (State.leaveClosing_reaches hbg hv ho (State.lotAccounting_wf _ ∘ b.closeRecord_wf))
  · next hr =>
    refine State.leaveClosing_reaches hg ?_ (.inl rfl) id
    have : s.view.completed = s.view.records := by
      have : s.tube.bind Tube.record = none := by simpa [State.hasRecord] using hr
      rw [View.completed, State.view_record, this]; rfl
    rw [this]

theorem State.closeIfDrained_reaches (s : State) : Reaches s s.closeIfDrained := by
  unfold State.closeIfDrained
  split
  · next h => exact State.closeTube_reaches h.1
  · exact .refl s

/-! ### The end of a shot -/

theorem State.closeShot_reaches {s : State} {k : Head} {sh : Shot} (hs : s.inFlight = some (k, sh)) (echoes : List Nat)
    (a1 : Option Byte) (cut : Bool) : Reaches s (s.closeShot k sh echoes a1 cut) :=
  (Reaches.endsShot hs (s.setPhase_view_idle rfl) id (State.handOver_fills _ _) (State.gainStep_lateClamp_view _ _ _ _)
    (State.lateClamp_wf _ _ _ ∘ State.setGain_wf _ _ _)).trans (State.closeIfDrained_reaches _)

theorem SameView.endedShot {s t : State} (h : SameView s t) :
    (t.setPhase .idle).view = { s.view with shot := none } := by
  rw [State.setPhase_view_idle _ rfl, h.1]

theorem State.enterFault_sameView (s : State) (k : Head) : SameView s (s.enterFault k) := by
  unfold State.enterFault
  dsimp only
  split
  · exact .giveFlag (.raise (.setHeadState (.refl s)))
  · exact .raise (.setHeadState (.refl s))

theorem State.misfireShot_reaches {s : State} {k : Head} {sh : Shot} (hs : s.inFlight = some (k, sh)) :
    Reaches s (s.misfireShot k sh) := by
  unfold State.misfireShot
  dsimp only
  have counted : SameView s (if s.cfg.misfireLimit ≤ sat16 s.heads[k].misfires
      then (s.setMisfires k (sat16 s.heads[k].misfires)).enterFault k else s.setMisfires k (sat16 s.heads[k].misfires)) := by
    split
    · exact (SameView.setMisfires (.refl s)).trans (State.enterFault_sameView _ _)
    · exact .setMisfires (.refl s)
  have totalled := counted.addTotals (f := countMisfire k)
  exact (Reaches.endsShot (m := .hold) hs totalled.endedShot totalled.2 (State.handOver_fills _ _) (State.lateClamp_view _ _ _)
    (State.lateClamp_wf _ _ _)).trans (State.closeIfDrained_reaches _)

theorem State.abortShot_reaches (s : State) : Reaches s s.abortShot := by
  unfold State.abortShot
  split
  · exact .refl s
  · next k sh hs =>
    have idle : SameView (s.setPhase .idle) ((s.setPhase .idle).addTotals fun t => { t with aborted := sat32 t.aborted 1 }) :=
      .addTotals (.refl _)
    exact (Reaches.endsShot (m := .hold) hs (idle.1.trans (s.setPhase_view_idle rfl)) idle.2 (State.settleClosing_fills _)
      (State.lateClamp_view _ _ _) (State.lateClamp_wf _ _ _)).trans (State.closeIfDrained_reaches _)

/-! ### Commands of a shot -/

theorem State.channelPhase_shot {s : State} {k : Head} {p : Phase} (h : s.channelPhase k = p) (hp : p ≠ .idle) :
    ∃ x, s.slot = some x ∧ x.head = k ∧ x.phase = p := by
  unfold State.channelPhase at h
  split at h
  · next x hx =>
    split at h
    · next e => exact ⟨x, hx, e, h⟩
    · exact absurd h.symm hp
  · exact absurd h.symm hp

theorem State.afterCapture_reaches {s : State} {h : HeadSlot} {sh : Shot} {c d : Capture} (hs : s.slot = some h)
    (hp : h.phase = .opened sh c) : Reaches s (s.afterCapture h.head sh d) := by
  unfold State.afterCapture
  split
  · exact State.closeShot_reaches (State.inFlight_eq_some.2 ⟨h, hs, rfl, by rw [hp]; rfl⟩) _ _ _
  · exact (SameView.setPhase hs (by rw [hp]; rfl)).reaches

theorem State.confEdge_reaches (s : State) (k : Head) : Reaches s (s.confEdge k) := by
  unfold State.confEdge
  split
  · exact .refl s
  · split
    · next sh hsh =>
      have hphase : s.channelPhase k = .awaitConf sh := by
        unfold State.awaitingShot at hsh
        split at hsh
        · next x hx => rw [hx, Option.some.inj hsh]
        · cases hsh
      obtain ⟨h, hs, -, hp⟩ := State.channelPhase_shot hphase nofun
      refine ((SameView.setMisfires (.refl s)).trans (SameView.setPhase (h := h) hs ?_)).reaches
      rw [hp]
      unfold confirmedPhase
      dsimp only
      split <;> rfl
    · exact (SameView.setStray (.refl s)).reaches

theorem State.crossing_reaches (s : State) (k : Head) (p : Polarity) (t : Nat) : Reaches s (s.crossing k p t) := by
  unfold State.crossing
  split
  · next c hc =>
    obtain ⟨h, hs, -, hp⟩ := State.channelPhase_shot hc nofun
    exact (SameView.setPhase hs (by rw [hp]; rfl)).reaches
  · next sh c hc =>
    obtain ⟨h, hs, rfl, hp⟩ := State.channelPhase_shot hc nofun
    split
    · exact State.afterCapture_reaches hs hp
    · exact .refl s
  all_goals exact .refl s

theorem State.holdOffEnd_reaches (s : State) (t : Nat) : Reaches s (s.holdOffEnd t) := by
  unfold State.holdOffEnd
  split
  · next h hs =>
    split
    · next sh c hp => exact (SameView.setPhase hs (by rw [hp]; rfl)).reaches
    · exact .refl s
  · exact .refl s

theorem State.sampleAmplitude_reaches (s : State) (a : Byte) : Reaches s (s.sampleAmplitude a) := by
  unfold State.sampleAmplitude
  split
  · next h hs =>
    split
    · next sh c hp =>
      split
      · exact .refl s
      · exact State.afterCapture_reaches hs hp
    · exact .refl s
  · exact .refl s

theorem State.endBlanking_reaches (s : State) : Reaches s s.endBlanking := by
  unfold State.endBlanking
  split
  · next h hs =>
    split
    · next sh hp => exact (SameView.setPhase hs (by rw [hp]; rfl)).reaches
    · exact .refl s
  · exact .refl s

theorem State.windowEnd_reaches (s : State) (a : Byte) : Reaches s (s.windowEnd a) := by
  unfold State.windowEnd
  split
  · next h hs =>
    split
    · next sh c hp => exact State.closeShot_reaches (State.inFlight_eq_some.2 ⟨h, hs, rfl, by rw [hp]; rfl⟩) _ _ _
    · exact .refl s
  · exact .refl s

theorem State.misfire_reaches (s : State) : Reaches s s.misfire := by
  unfold State.misfire
  split
  · next h hs =>
    split
    · next sh hp => exact State.misfireShot_reaches (State.inFlight_eq_some.2 ⟨h, hs, rfl, by rw [hp]; rfl⟩)
    · exact .refl s
  · exact .refl s

theorem State.losePermit_reaches (s : State) : Reaches s s.losePermit := by
  unfold State.losePermit
  dsimp only
  have pin : SameView s { s with pins := { s.pins with permit := false } } := ⟨rfl, id⟩
  split
  · exact pin.reaches
  · have firing : SameView s { ({ s with pins := { s.pins with permit := false } } : State).setFiring .suspended with
        resumePending := false } := pin.setFiring.trans ⟨rfl, id⟩
    exact firing.raise.giveFlag.reaches.trans (State.abortShot_reaches _)

/-! ### The fire decision -/

theorem State.inFlight_of_phase {s : State} {h : HeadSlot} (hs : s.slot = some h) (hp : phaseShot h.phase = none) : s.inFlight = none := by
  simp [State.inFlight, hs, hp]

theorem State.inFlight_none_iff {s : State} : s.inFlight = none ↔ s.view.shot = none := Option.map_eq_none_iff.symm

theorem State.maskedOrder_tubeOrder {s : State} {k : Head} {n : Snapshot} (h : s.maskedOrder k = some n) : s.tubeOrder = some n :=
  (Option.filter_eq_some_iff.1 h).1

theorem State.fire_reaches {s : State} {h : HeadSlot} {c : Nat} {n : Snapshot} (hs : s.slot = some h) (hp : h.phase = .quiet c)
    (hn : s.tubeOrder = some n) : Reaches s (s.fire h.head n) := by
  refine Reaches.of_move (.fires h.head n ?_ (s.view_tubeOrder.trans hn)) ?_ id
  · exact State.inFlight_none_iff.1 (State.inFlight_of_phase hs (by rw [hp]; rfl))
  · have : (s.fire h.head n).view = (s.setPhase (.awaitConf (s.newShot h.head n))).view := rfl
    rw [this, State.setPhase_view, hs]
    rfl

theorem State.takeDecision_reaches {s : State} {h : HeadSlot} {c : Nat} (hs : s.slot = some h) (hp : h.phase = .quiet c) (n : Nat) :
    Reaches s (s.takeDecision h.head n) := by
  have idle : SameView s (s.setPhase .idle) := .setPhase hs (by rw [hp]; rfl)
  have dry : Reaches s (s.drySlot h.head) := by
    unfold State.drySlot
    dsimp only
    split
    · exact idle.addTotals.reaches
    · exact idle.reaches
  unfold State.takeDecision
  split
  · exact dry
  · next m hm =>
    split
    · split
      · exact State.fire_reaches hs hp (State.maskedOrder_tubeOrder hm)
      · exact (idle.fills.trans (State.handOver_fills _ _)).reaches
    · exact dry

theorem State.fireDecision_reaches (s : State) : Reaches s s.fireDecision := by
  unfold State.fireDecision
  split
  · next h hs =>
    split
    · next c hp => exact State.takeDecision_reaches hs hp c
    · exact .refl s
  · exact .refl s

/-! ### Cycle starts -/

theorem State.restartFiring_sameView (s : State) : SameView s s.restartFiring := by
  unfold State.restartFiring
  split
  · exact (SameView.setFiring (.refl s)).trans ⟨rfl, id⟩
  · exact .refl s

/-- The gain codes of the four channels after each has been given its own. -/
theorem vset_four (v : Vector Nat 4) (a b c d : Nat) : vset (vset (vset (vset v 0 a) 1 b) 2 c) 3 d = #v[a, b, c, d] := by
  ext i hi
  match i, hi with
  | 0, _ | 1, _ | 2, _ | 3, _ => simp [vset]

/-- The gain code of a channel that an amendment clamps, but for that of a shot just fired (R41). -/
def clampBut (r : Recipe) (skip : Option Head) (k : Head) (g : Nat) : Nat := if skip = some k then g else clampGain r.gmin r.gmax g

theorem State.amendChannels_view (s : State) (r : Recipe) (skip : Option Head) :
    (s.amendChannels r skip).view = { s.view with
      gains := Vector.ofFn fun k : Head => clampBut r skip k s.view.gains[k] } := by
  have one : ∀ (u : State) (k : Head), ((if skip = some k then u else u.clampChannel r k).setDac k r.threshold).view
      = { u.view with gains := vset u.view.gains k (clampBut r skip k u.view.gains[k]) } := by
    intro u k
    have hdac : ∀ x : State, (x.setDac k r.threshold).view = x.view := by
      intro x
      have : (vset x.chans k { x.chans[k] with dac := r.threshold }).map Channel.gain = x.chans.map Channel.gain := by
        ext i hi
        by_cases e : k.val = i
        · subst e; simp [vset]
        · simp [vset, e]
      unfold State.view
      simp only [State.setDac_chans, this]
      rfl
    rw [hdac]
    unfold clampBut
    split
    · simp only [vset_same]
    · rw [State.clampChannel, State.setGain_view, State.view_gain]
  unfold State.amendChannels forHeads
  rw [one, one, one, one]
  simp only [vset_four]
  congr 1
  ext i hi
  match i, hi with
  | 0, _ | 1, _ | 2, _ | 3, _ => simp [vset]

theorem State.amendChannels_wf (s : State) (r : Recipe) (skip : Option Head) :
    Memory.wf s.mem → Memory.wf (s.amendChannels r skip).mem := by
  have one : ∀ (u : State) (k : Head), Memory.wf u.mem →
      Memory.wf ((if skip = some k then u else u.clampChannel r k).setDac k r.threshold).mem := by
    intro u k hu
    rw [State.setDac_mem]
    split
    · exact hu
    · exact State.setGain_wf _ _ _ hu
  exact fun h => one _ _ (one _ _ (one _ _ (one _ _ h)))

theorem State.deferClamp_view (s : State) :
    s.deferClamp.view = { s.view with shot := s.view.shot.map fun p => (p.1, p.2.1, true) } := by
  unfold State.deferClamp State.view State.inFlight
  cases hs : s.slot with
  | none => rfl
  | some h => cases hp : h.phase <;> simp [hp, phaseShot, shotView]

theorem State.markAmended_sameView (s : State) : SameView s s.markAmended := .giveFlag (.modTube (.refl s))

theorem State.amendUse_view (s : State) (r : Recipe) (fired : Bool) : (s.amendUse r fired).view = { s.view with
    shot := if fired then s.view.shot.map (fun p => (p.1, p.2.1, true)) else s.view.shot
    gains := Vector.ofFn fun k : Head => if fired ∧ s.view.shot.map Prod.fst = some k then s.view.gains[k]
      else clampGain r.gmin r.gmax s.view.gains[k] } := by
  have hshot : s.inFlight.map Prod.fst = s.view.shot.map Prod.fst := by
    unfold State.view
    cases s.inFlight <;> rfl
  unfold State.amendUse
  dsimp only
  rw [(State.markAmended_sameView _).1, State.amendChannels_view, hshot]
  cases fired
  · simp [clampBut]
  · simp only [if_true, State.deferClamp_view, clampBut, true_and]

theorem State.amendUse_wf (s : State) (r : Recipe) (fired : Bool) : Memory.wf s.mem → Memory.wf (s.amendUse r fired).mem := by
  intro h
  refine (State.markAmended_sameView _).2 (State.amendChannels_wf _ _ _ ?_)
  cases fired <;> exact h

/-- An amendment applied at a cycle start, as the laws see it (R152). -/
theorem State.applyAtCycle_view (s : State) (j : SlotNo) (y : Amendment) (fired : Bool) :
    (s.applyAtCycle j y fired).view = s.view.amended j y fired := by
  have hset : (s.setSlot j (amendedSlot s.slots[j] y)).view
      = { s.view with orders := s.view.orders.setSlot j (amendedSlot s.view.orders.slots[j] y) } := rfl
  have huse : s.view.orderInUse = s.orderInUse := s.view_orderInUse
  have hslot : s.view.orders.slots[j] = s.slots[j] := rfl
  unfold State.applyAtCycle
  dsimp only
  rw [(SameView.answerSlot (.refl _)).1]
  cases hn : s.slots[j].snapshot with
  | none =>
    have hx : (amendedSlot s.slots[j] y).snapshot = none := by rw [amendedSlot, hn]; rfl
    rw [hx]
    obtain ⟨-, hsome, -⟩ | ⟨-, e⟩ := s.view.amended_cases j y fired
    · rw [hslot, hn] at hsome; cases hsome
    · rw [e, ← hset]
  | some n =>
    have hx : (amendedSlot s.slots[j] y).snapshot = some (amendSnapshot n y) := by rw [amendedSlot, hn]; rfl
    rw [hx]
    by_cases hu : s.orderInUse = some j
    · obtain ⟨-, -, e⟩ | ⟨hnot, -⟩ := s.view.amended_cases j y fired
      · rw [e, decide_eq_true hu]
        dsimp only
        rw [State.amendUse_view, hset]
        rfl
      · exact absurd ⟨huse.trans hu, by rw [hslot, hn]; rfl⟩ hnot
    · obtain ⟨hu', -, -⟩ | ⟨-, e⟩ := s.view.amended_cases j y fired
      · exact absurd (huse.symm.trans hu') hu
      · rw [e, ← hset, decide_eq_false hu]

theorem State.applyAtCycle_wf (s : State) (j : SlotNo) (y : Amendment) (fired : Bool) :
    Memory.wf s.mem → Memory.wf (s.applyAtCycle j y fired).mem := by
  intro h
  unfold State.applyAtCycle
  refine (SameView.answerSlot (.refl _)).2 ?_
  split
  · exact State.amendUse_wf _ _ _ h
  · exact h

theorem State.dueAmendment_eq_some {s : State} {j : SlotNo} {y : Amendment} (h : s.dueAmendment = some (j, y)) :
    s.current = some j ∧ s.slots[j].amendment = some y := by
  obtain ⟨i, hi, h⟩ := Option.bind_eq_some_iff.1 h
  obtain ⟨z, hz, e⟩ := Option.map_eq_some_iff.1 h
  obtain ⟨rfl, rfl⟩ := Prod.mk.injEq .. ▸ e
  exact ⟨hi, (Option.filter_eq_some_iff.1 hz).1⟩

theorem State.cycleAmend_reaches (s : State) (fired : Bool) : Reaches s (s.cycleAmend fired) := by
  unfold State.cycleAmend
  split
  · next j y h =>
    obtain ⟨hc, hy⟩ := State.dueAmendment_eq_some h
    exact .of_move (.amends j y fired hc hy) (s.applyAtCycle_view j y fired) (s.applyAtCycle_wf j y fired)
  · exact .refl s

/-- An amendment at a cycle start leaves the gauge state and, but for a shot just fired, the slot. -/
theorem State.cycleAmend_slot (s : State) : (s.cycleAmend false).slot = s.slot := by
  unfold State.cycleAmend
  split
  · simp only [State.applyAtCycle, State.answerSlot_frame]
    split <;> simp [State.amendUse, State.markAmended]
  · rfl

theorem State.openSlot_view (s : State) (k : Head) : (s.openSlot k).view = { s.view with timer := true, shot := none } := rfl

theorem State.openSlot_reaches {s : State} (hr : runs s.gauge = true) (hf : s.inFlight = none) (k : Head) : Reaches s (s.openSlot k) := by
  have hs : s.view.shot = none := State.inFlight_none_iff.1 hf
  refine .of_move (.opensSlot hr hs) ?_ id
  rw [State.openSlot_view, ← hs]

theorem State.openCycle_reaches {s : State} (hr : runs s.gauge = true) (hf : s.inFlight = none) : Reaches s s.openCycle :=
  State.openSlot_reaches (s := { s with cycleAt := s.now }) hr hf 0

theorem State.inFlight_congr {s t : State} (h : t.slot = s.slot) : t.inFlight = s.inFlight := by
  unfold State.inFlight
  rw [h]

theorem State.freshCycle_reaches {s : State} (hr : runs s.gauge = true) (hf : s.inFlight = none) : Reaches s s.freshCycle := by
  refine (s.restartFiring_sameView.reaches.trans (State.cycleAmend_reaches _ false)).trans (State.openCycle_reaches ?_ ?_)
  · simpa using hr
  · rw [State.inFlight_congr (State.cycleAmend_slot _), State.inFlight_congr (s := s) (by simp), hf]

theorem State.decidedCycle_reaches {s : State} (hr : runs s.gauge = true) (hf : s.inFlight = none) : Reaches s s.decidedCycle := by
  unfold State.decidedCycle
  split
  · have hopen : Reaches s s.restartFiring.openCycle :=
      s.restartFiring_sameView.reaches.trans
        (State.openCycle_reaches (by simpa using hr) (by rw [State.inFlight_congr (s := s) (by simp), hf]))
    exact (hopen.trans (State.fireDecision_reaches _)).trans (State.cycleAmend_reaches _ _)
  · exact State.freshCycle_reaches hr hf

/-- The close of a tube keeps a slot without a shot, or stops the timer. -/
theorem State.closeIfDrained_inFlight {s : State} (h : s.inFlight = none) : s.closeIfDrained.inFlight = none := by
  have leave : ∀ u : State, u.inFlight = none → u.leaveClosing.inFlight = none := by
    intro u hu
    unfold State.leaveClosing
    dsimp only
    split
    · rfl
    · exact hu
  unfold State.closeIfDrained
  split
  · unfold State.closeTube
    split
    · exact leave _ ((State.inFlight_congr (by simp)).trans h)
    · exact leave _ h
  · exact h

theorem State.closeShot_inFlight (s : State) (k : Head) (sh : Shot) (echoes : List Nat) (a1 : Option Byte) (cut : Bool) :
    (s.closeShot k sh echoes a1 cut).inFlight = none := by
  refine State.closeIfDrained_inFlight ((State.inFlight_congr (s := s.setPhase .idle) (by simp)).trans ?_)
  rw [State.setPhase_inFlight]
  cases s.slot <;> rfl

theorem State.cutSlot_inFlight {s : State} (h : s.awaiting = false) (a : Byte) : (s.cutSlot a).inFlight = none := by
  unfold State.cutSlot
  split
  · next hs => simp [State.inFlight, hs]
  · next x hs =>
    split
    · exact State.closeShot_inFlight _ _ _ _ _ _
    · exact State.closeShot_inFlight _ _ _ _ _ _
    · next hp => exact State.inFlight_of_phase hs (by rw [hp]; rfl)
    · next hp => exact State.inFlight_of_phase hs (by rw [hp]; rfl)
    · next hp => simp [State.awaiting, hs, hp] at h

theorem State.cutSlot_reaches (s : State) (a : Byte) : Reaches s (s.cutSlot a) := by
  unfold State.cutSlot
  split
  · exact .refl s
  · next h hs =>
    split
    · next sh hp => exact State.closeShot_reaches (State.inFlight_eq_some.2 ⟨h, hs, rfl, by rw [hp]; rfl⟩) _ _ _
    · next sh c hp => exact State.closeShot_reaches (State.inFlight_eq_some.2 ⟨h, hs, rfl, by rw [hp]; rfl⟩) _ _ _
    all_goals exact .refl s

/-- After a cut the timer goes on where the gauge still runs. -/
theorem State.cut_then_reaches {s : State} (hw : s.awaiting = false) (a : Byte) {f : State → State}
    (hf : ∀ u : State, runs u.gauge = true → u.inFlight = none → Reaches u (f u)) : Reaches s ((s.cutSlot a).ifRunning f) := by
  refine (s.cutSlot_reaches a).trans ?_
  unfold State.ifRunning
  split
  · next hr => exact hf _ hr (State.cutSlot_inFlight hw a)
  · exact .refl _

theorem State.awaiting_congr {s t : State} (h : t.slot = s.slot) : t.awaiting = s.awaiting := by
  unfold State.awaiting
  rw [h]

theorem State.nextSlot_reaches (s : State) (a : Byte) : Reaches s (s.nextSlot a) := by
  unfold State.nextSlot
  split
  · split
    · exact .refl s
    · next hw =>
      split
      · exact .refl s
      · exact State.cut_then_reaches (by simpa using hw) a fun u hr hf => State.openSlot_reaches hr hf _
  · exact .refl s

theorem State.cycleStart_reaches (s : State) (o : CycleOrder) (a : Byte) : Reaches s (s.cycleStart o a) := by
  unfold State.cycleStart
  split
  · next h =>
    have hw : s.awaiting = false := by simp at h; exact h.2
    cases o with
    | cutFirst => exact State.cut_then_reaches hw a fun u => State.freshCycle_reaches
    | amendFirst =>
      refine (s.restartFiring_sameView.reaches.trans (State.cycleAmend_reaches _ false)).trans (State.cut_then_reaches ?_ a fun u =>
        State.openCycle_reaches)
      rw [State.awaiting_congr (State.cycleAmend_slot _), State.awaiting_congr (s := s) (by simp), hw]
    | decisionFirst => exact State.cut_then_reaches hw a fun u => State.decidedCycle_reaches
  · exact .refl s

end Sys2Proof.Machine
end

section
/-! PROOFS. Tracking, head events, the temperature link, the gauge commands and the port in terms of the moves of the part's view. -/

namespace Sys2Proof.Machine

open Safety

/-! ### Position changes -/

theorem State.endMeasuring_view (s : State) (o : Option TubeOutcome) : (s.endMeasuring o).view = { s.view with
    gauge := .closing, tracking := false, tube := s.view.tube.map fun x => { x with ended := true } } := by
  have h : (s.endMeasuring o).tube.map Tube.view = (s.tube.map Tube.view).map fun x => { x with ended := true } := by
    simp only [State.endMeasuring, State.modTube_tube, State.setGauge_tube, State.setTrack_tube, Option.map_map]
    rfl
  have e : (s.endMeasuring o).view = { s.view with
      gauge := .closing, tracking := false, tube := (s.endMeasuring o).tube.map Tube.view } := rfl
  rw [e, h]
  rfl

theorem State.endMeasuring_wf (s : State) (o : Option TubeOutcome) : Memory.wf s.mem → Memory.wf (s.endMeasuring o).mem := fun h =>
  State.setGauge_wf _ _ (State.setTrack_wf _ _ h)

theorem State.endMeasuring_reaches {s : State} (hg : s.gauge = .measuring) (o : Option TubeOutcome) :
    Reaches s (s.endMeasuring o) := by
  refine .of_move (.endsMeasuring false hg) ?_ (s.endMeasuring_wf o)
  rw [State.endMeasuring_view, Bool.or_false]

theorem State.judgeLength_reaches (s : State) : Reaches s s.judgeLength := by
  unfold State.judgeLength
  split
  · next h =>
    have hg : s.gauge = .measuring := by simp [State.overlong] at h; exact h.1
    exact (State.endMeasuring_reaches hg _).trans (State.closeIfDrained_reaches _)
  · exact .refl s

theorem State.enterLost_reaches {s : State} (h : s.gauge = .measuring ∨ s.tracker.state ≠ .idle) : Reaches s s.enterLost := by
  have lost : Reaches s (({ s with tracker := { s.tracker with stallLimit := none, fresh := false } } : State).setTrack .lost) :=
    .of_move (.losesTrack (h.imp id fun e => decide_eq_true e)) rfl (State.setTrack_wf _ _)
  exact lost.trans (SameView.giveFlag (.raise (.refl _))).reaches

theorem State.setZ_wf (s : State) (z : Nat) : Memory.wf s.mem → Memory.wf (s.setZ z).mem := Memory.wf_ite _ (Memory.wf_memWrite _ _ _)

theorem State.positionChange_reaches (s : State) (n : Nat) (synthetic : Bool) : Reaches s (s.positionChange n synthetic) := by
  have moved : Reaches s (s.setZ (advanced s.tracker.z n s.cfg.encStep)) :=
    .of_move (.advances (n * s.cfg.encStep)) rfl (s.setZ_wf _)
  have judged := moved.trans ((State.takeChange_fills _ synthetic s.tracker.z
    (advanced s.tracker.z n s.cfg.encStep)).reaches.trans (State.judgeLength_reaches _))
  unfold State.positionChange
  dsimp only
  split
  · next h => exact judged.trans (State.enterLost_reaches (.inl h.2))
  · exact judged

/-! ### Tracking -/

/-- Nothing but the tracker changes, which leaves or stays in IDLE as before at the same z. -/
theorem SameView.tracker {s : State} {t : Tracker} (hi : t.state ≠ .idle ↔ s.tracker.state ≠ .idle) (hz : t.z = s.tracker.z) :
    SameView s { s with tracker := t } := by
  refine ⟨?_, id⟩
  unfold State.view
  simp only [hi, hz]
  rfl

theorem State.measure_sameView (s : State) (us : Nat) : SameView s (s.measure us) := by
  have stored : SameView s (if s.tracker.fresh then s.setPLast (some (periodOf us)) else s) := by
    split
    · exact .setPLast (.refl s)
    · exact .refl s
  exact stored.trans (.tracker Iff.rfl rfl)

theorem State.restartStall_sameView (s : State) : SameView s s.restartStall := .tracker Iff.rfl rfl

/-- The tracker goes from one state but IDLE to another. -/
theorem State.setTrack_sameView {s : State} {x : TrackState} (h : s.tracker.state ≠ .idle) (hx : x ≠ .idle) :
    SameView s (s.setTrack x) :=
  SameView.putIf (.tracker (t := { s.tracker with state := x }) (iff_of_true hx h) rfl)

theorem State.endEpisode_sameView {s : State} (h : s.tracker.state ≠ .idle) : SameView s s.endEpisode := by
  have reset : SameView s { s with tracker := { s.tracker with episode := 0, fresh := true, stepAt := s.now } } := .tracker Iff.rfl rfl
  exact (reset.trans (State.setTrack_sameView (x := .tracking) h nofun)).trans (State.restartStall_sameView _)

theorem State.realStep_reaches (s : State) (us : Nat) : Reaches s (s.realStep us) := by
  unfold State.realStep
  split
  · exact .refl s
  · exact ((s.measure_sameView us).trans (State.restartStall_sameView _)).reaches.trans (State.positionChange_reaches _ _ _)
  · next h => exact (State.endEpisode_sameView (by rw [h]; nofun)).reaches.trans (State.positionChange_reaches _ _ _)
  · exact (s.measure_sameView us).reaches

theorem State.countSynthetic_sameView (s : State) (n : Nat) : SameView s (s.countSynthetic n) :=
  have counted : SameView s { s with tracker := { s.tracker with episode := s.tracker.episode + n } } := .tracker Iff.rfl rfl
  counted.addTotals

theorem State.endIfSpent_reaches (s : State) (n : Nat) : Reaches s (s.endIfSpent n) := by
  unfold State.endIfSpent
  split
  · next h => exact State.enterLost_reaches (.inr (by rw [h.2]; nofun))
  · exact .refl s

theorem State.enterReckoning_sameView {s : State} (h : s.tracker.state ≠ .idle) : SameView s s.enterReckoning := by
  have begun : SameView s { s with tracker := { s.tracker with episode := 0, fresh := false, stallLimit := none, synthAt := s.now } } :=
    .tracker Iff.rfl rfl
  exact .giveFlag (.raise (begun.trans (State.setTrack_sameView (x := .deadReckoning) h nofun)))

theorem State.stall_reaches (s : State) : Reaches s s.stall := by
  unfold State.stall
  split
  · next h =>
    have hi : s.tracker.state ≠ .idle := by rw [h]; nofun
    split
    · exact State.enterLost_reaches (.inr hi)
    · exact (((State.enterReckoning_sameView hi).trans (State.countSynthetic_sameView _ _)).reaches.trans
        (State.positionChange_reaches _ _ _)).trans (State.endIfSpent_reaches _ _)
  · exact .refl s

theorem State.syntheticStep_reaches (s : State) : Reaches s s.syntheticStep := by
  unfold State.syntheticStep
  split
  · have timed : SameView s { s with tracker := { s.tracker with
        synthAt := s.tracker.synthAt + Config.ctPerUs * s.tracker.pLast.getD 0 } } := .tracker Iff.rfl rfl
    exact ((timed.trans (State.countSynthetic_sameView _ _)).reaches.trans (State.positionChange_reaches _ _ _)).trans
      (State.endIfSpent_reaches _ _)
  · exact .refl s

/-! ### The selection of an order -/

/-- `t` comes from `s` by the selection of an order. -/
def Selects (s t : State) : Prop :=
  (∃ o, Relation.ReflTransGen Select s.view.orders o ∧ t.view = { s.view with orders := o }) ∧ (Memory.wf s.mem → Memory.wf t.mem)

theorem Selects.refl (s : State) : Selects s s := ⟨⟨_, .refl, rfl⟩, id⟩

theorem Selects.trans {s t u : State} (h : Selects s t) (g : Selects t u) : Selects s u := by
  obtain ⟨⟨o, ho, hv⟩, hw⟩ := h
  obtain ⟨⟨p, hp, gv⟩, gw⟩ := g
  rw [hv] at hp gv
  exact ⟨⟨p, ho.trans hp, gv⟩, gw ∘ hw⟩

theorem Selects.of_select {s t : State} {o : Orders} (m : Select s.view.orders o) (hv : t.view = { s.view with orders := o })
    (hw : Memory.wf s.mem → Memory.wf t.mem) : Selects s t := ⟨⟨o, .single m, hv⟩, hw⟩

theorem State.yieldLot_selects (s : State) : Selects s s.yieldLot := by
  unfold State.yieldLot
  split
  · next j hc =>
    split
    · exact .of_select (.yields j hc) (s.spendSlot_view j) (s.spendSlot_wf j)
    · exact .refl s
  · exact .refl s

theorem State.promote_selects (s : State) : Selects s s.promote := by
  unfold State.promote
  split
  · next j rest hc hq =>
    refine .of_select (.promotes j rest hc hq) rfl (SameView.put (.putList (.put (.refl
      ({ s.setSlot j { s.slots[j] with state := .active } with queue := rest, current := some j } : State))))).2
  · exact .refl s

theorem State.headAmend_selects (s : State) : Selects s s.headAmend := by
  unfold State.headAmend
  split
  · next j y h =>
    obtain ⟨i, hc, h⟩ := Option.bind_eq_some_iff.1 h
    obtain ⟨z, hy, e⟩ := Option.map_eq_some_iff.1 h
    obtain ⟨rfl, rfl⟩ := Prod.mk.injEq .. ▸ e
    exact .of_select (.applies i z hc hy) rfl (SameView.answerSlot (.refl (s.setSlot i (amendedSlot s.slots[i] z)))).2
  · exact .refl s

theorem State.useOrder_selects (s : State) : Selects s s.useOrder := by
  unfold State.useOrder
  split
  · next j hc => exact .of_select (.takes j hc) rfl (SameView.putIf (.refl (s.setSlot j (takeTube s.slots[j])))).2
  · exact .refl s

theorem State.selectOrder_selects (s : State) : Selects s s.selectOrder :=
  ((s.yieldLot_selects.trans (State.promote_selects _)).trans (State.headAmend_selects _)).trans (State.useOrder_selects _)

/-! ### Head events -/

theorem SameView.wf {s t : State} (h : SameView s t) (hm : Memory.wf s.mem) : Memory.wf t.mem := h.2 hm

theorem State.startTracking_view (s : State) : s.startTracking.view = { s.view with tracking := true, z := 0 } := rfl

theorem State.startTracking_wf (s : State) : Memory.wf s.mem → Memory.wf s.startTracking.mem := fun h =>
  SameView.wf (.put (.put (.put (.refl _)))) h

theorem State.setGauge_view (s : State) (g : GaugeState) : (s.setGauge g).view = { s.view with gauge := g } := rfl

theorem State.missTube_view (s : State) : s.missTube.view = { s.view with
    gauge := .measuring, tracking := true, z := 0, tube := some { record := none, order := none, ended := false } } := rfl

theorem State.missTube_wf (s : State) : Memory.wf s.mem → Memory.wf s.missTube.mem := fun h =>
  State.startTracking_wf _ (State.setGauge_wf _ _ (Memory.wf_ite _ (Memory.wf_memWrite _ _ _) h))

theorem State.setDac_view (s : State) (k : Head) (c : Nat) : (s.setDac k c).view = s.view := by
  have : (vset s.chans k { s.chans[k] with dac := c }).map Channel.gain = s.chans.map Channel.gain := by
    ext i hi
    by_cases e : k.val = i
    · subst e; simp [vset]
    · simp [vset, e]
  unfold State.view
  simp only [State.setDac_chans, this]
  rfl

theorem State.setPolarity_view (s : State) (k : Head) (p : Polarity) : (s.setPolarity k p).view = s.view := by
  have : (vset s.chans k { s.chans[k] with polarity := p }).map Channel.gain = s.chans.map Channel.gain := by
    ext i hi
    by_cases e : k.val = i
    · subst e; simp [vset]
    · simp [vset, e]
  unfold State.view
  simp only [State.setPolarity_chans, this]
  rfl

theorem State.loadChannels_view (s : State) (r : Recipe) :
    (s.loadChannels r).view = { s.view with gains := Vector.replicate 4 r.g0 } := by
  have one : ∀ (u : State) (k : Head), (((u.setGain k r.g0).setDac k r.threshold).setPolarity k r.polarity).view
      = { u.view with gains := vset u.view.gains k r.g0 } := by
    intro u k
    rw [State.setPolarity_view, State.setDac_view, State.setGain_view]
  unfold State.loadChannels forHeads
  rw [one, one, one, one]
  simp only [vset_four]
  rfl

theorem State.loadChannels_wf (s : State) (r : Recipe) : Memory.wf s.mem → Memory.wf (s.loadChannels r).mem := by
  have one : ∀ (u : State) (k : Head), Memory.wf u.mem →
      Memory.wf (((u.setGain k r.g0).setDac k r.threshold).setPolarity k r.polarity).mem := fun u k h => State.setGain_wf u k r.g0 h
  exact fun h => one _ _ (one _ _ (one _ _ (one _ _ h)))

theorem State.clearRecord_sameView (s : State) (r : RecNo) : SameView s (s.clearRecord r) := .putList (.put (.refl s))

/-- The record with the words of the order that its tube is given (Table 11-7). -/
def State.putOrder (s : State) (r : RecNo) (j : SlotNo) (n : Snapshot) : State :=
  (s.putList (recAddr r 4) ([toWord j.val, toWord s.slots[j].taken] ++ n.recipe.tag.toList)).putList (recAddr r 54) (settingsWords n)

theorem State.putOrder_sameView (s : State) (r : RecNo) (j : SlotNo) (n : Snapshot) : SameView s (s.putOrder r j n) :=
  .putList (.putList (.refl s))

theorem State.openWith_eq (s : State) (r : RecNo) (j : SlotNo) (n : Snapshot) (amended : Bool) : ∃ x : Tube,
    x.view = { record := some r, order := some j, ended := false }
      ∧ s.openWith r j n amended = { (s.putOrder r j n).loadChannels n.recipe with tube := some x } := ⟨_, rfl, rfl⟩

theorem State.withTube_view (s : State) (x : Tube) : ({ s with tube := some x } : State).view = { s.view with tube := some x.view } := rfl

theorem State.openWith_view (s : State) (r : RecNo) (j : SlotNo) (n : Snapshot) (amended : Bool) :
    (s.openWith r j n amended).view = { s.view with
      gains := Vector.replicate 4 n.recipe.g0, tube := some { record := some r, order := some j, ended := false } } := by
  obtain ⟨x, hx, e⟩ := s.openWith_eq r j n amended
  rw [e, State.withTube_view, hx, State.loadChannels_view, (s.putOrder_sameView r j n).1]

theorem State.openWith_wf (s : State) (r : RecNo) (j : SlotNo) (n : Snapshot) (amended : Bool) (h : Memory.wf s.mem) :
    Memory.wf (s.openWith r j n amended).mem := by
  obtain ⟨x, -, e⟩ := s.openWith_eq r j n amended
  have loaded := State.loadChannels_wf (s.putOrder r j n) n.recipe ((s.putOrder_sameView r j n).wf h)
  rw [e]
  generalize (s.putOrder r j n).loadChannels n.recipe = u at loaded
  exact loaded

theorem State.openWithout_wf (s : State) (r : RecNo) (h : Memory.wf s.mem) : Memory.wf (s.openWithout r).mem :=
  Memory.wf_memWrite s.mem (toWord (recAddr r 4)) Config.noneWord h

/-- What a head event makes of the tube, its record and the order that it is given. -/
theorem State.openRecord_turn {s : State} {r : RecNo} (hg : s.gauge = .armed) (hr : s.records[r] = .free) :
    Turn s.view (s.openRecord r).view ∧ (Memory.wf s.mem → Memory.wf (s.openRecord r).mem) := by
  have cleared : SameView s (({ s with nextSearch := r + 1 } : State).clearRecord r) :=
    SameView.trans ⟨rfl, id⟩ (State.clearRecord_sameView _ r)
  have opened : ∀ u : State, ((((u.setRecState r .opened).setGauge .measuring).startTracking).view = { u.view with
      gauge := .measuring, tracking := true, z := 0, records := vset u.view.records r .opened }) := fun _ => rfl
  have openedWf : ∀ u : State, Memory.wf u.mem → Memory.wf (((u.setRecState r .opened).setGauge .measuring).startTracking).mem :=
    fun u h => State.startTracking_wf _ (State.setGauge_wf _ _ (State.setRecState_wf u r .opened h))
  unfold State.openRecord
  dsimp only
  generalize ({ s with nextSearch := r + 1 } : State).clearRecord r = c at cleared
  obtain ⟨⟨o, ho, hv⟩, hw⟩ := c.selectOrder_selects
  rw [cleared.1] at ho hv
  rw [opened]
  unfold State.giveOrder
  dsimp only
  split
  · next j n hn =>
    obtain ⟨i, hc, hn⟩ := Option.bind_eq_some_iff.1 hn
    obtain ⟨m, hm, e⟩ := Option.map_eq_some_iff.1 hn
    obtain ⟨rfl, rfl⟩ := Prod.mk.injEq .. ▸ e
    have hc' : o.current = some i := (congrArg (fun v : View => v.orders.current) hv).symm.trans hc
    have hm' : o.slots[i].snapshot = some m := (congrArg (fun v : View => v.orders.slots[i].snapshot) hv).symm.trans hm
    refine ⟨?_, fun h => openedWf _ (State.openWith_wf _ r i m _ (hw (cleared.2 h)))⟩
    rw [State.openWith_view, hv]
    exact .opensWith r o i m hg hr ho hc' hm'
  · have hopen : (c.selectOrder.openWithout r).view = { c.selectOrder.view with
        tube := some { record := some r, order := none, ended := false } } := rfl
    refine ⟨?_, fun h => openedWf _ (State.openWithout_wf _ r (hw (cleared.2 h)))⟩
    rw [hopen, hv]
    exact .opensWithout r o hg hr ho

theorem State.findRecord_free {s : State} {r : RecNo} (h : s.findRecord = some r) : s.records[r] = .free := by
  simpa [-Fin.getElem_fin] using List.find?_some h

theorem State.headEvent_turn {s : State} (hg : s.gauge = .armed) :
    Turn s.view s.headEvent.view ∧ (Memory.wf s.mem → Memory.wf s.headEvent.mem) := by
  unfold State.headEvent
  dsimp only
  split
  · next r hr => exact State.openRecord_turn (s := { s with serial := nextSerial s.serial }) hg (State.findRecord_free hr)
  · exact ⟨.misses hg, State.missTube_wf { s with serial := nextSerial s.serial }⟩

/-! ### What a command does -/

/-- `t` comes from `s` by one command: by moves of the part, or anew by a reset or a head event. -/
def Changes (s t : State) : Prop :=
  (Relation.ReflTransGen Move s.view t.view ∨ Turn s.view t.view) ∧ (Memory.wf s.mem → Memory.wf t.mem)

theorem Reaches.changes {s t : State} (h : Reaches s t) : Changes s t := ⟨.inl h.1, h.2⟩

theorem SameView.changes {s t u : State} (h : SameView s t) (g : Changes t u) : Changes s u := by
  obtain ⟨g, gw⟩ := g
  rw [h.1] at g
  exact ⟨g, gw ∘ h.2⟩

theorem State.takeEdge_changes (s : State) (high : Bool) : Changes s (s.takeEdge high) := by
  unfold State.takeEdge
  split
  · next hg =>
    obtain ⟨ht, hw⟩ := State.headEvent_turn hg
    exact ⟨.inr ht, hw⟩
  · next hg => exact ((State.endMeasuring_reaches hg none).trans (State.closeIfDrained_reaches _)).changes
  · next hg => exact (Reaches.of_move (.clears hg) rfl (s.setGauge_wf .armed)).changes
  · exact (Reaches.refl s).changes

theorem State.filteredEdge_changes (s : State) (high : Bool) : Changes s (s.filteredEdge high) := by
  have pin : SameView s { s with pins := { s.pins with present := high } } := ⟨rfl, id⟩
  unfold State.filteredEdge
  dsimp only
  split
  · have level : SameView s { s with pins := { s.pins with present := high }, presence := { level := high, run := 0 } } := ⟨rfl, id⟩
    exact level.changes (State.takeEdge_changes _ high)
  · exact pin.reaches.changes

/-! ### The temperature link -/

/-- A change of the link that leaves the receiver in OFF or out of it. -/
theorem SameView.modLink {s t : State} (h : SameView s t) {f : Link → Link}
    (hf : (f t.link).rx.state ≠ .off ↔ t.link.rx.state ≠ .off := by exact Iff.rfl) : SameView s (t.modLink f) := by
  refine h.trans ⟨?_, id⟩
  unfold State.view
  simp only [State.modLink_link, hf]
  rfl

theorem SameView.count {s t : State} (h : SameView s t) {i : Nat} {f : LinkCounters → LinkCounters} : SameView s (t.count i f) :=
  .putIf (.modLink h)

theorem SameView.dropTelegram {s t : State} (h : SameView s t) : SameView s t.dropTelegram := .modLink h

theorem State.judgeTelegram_sameView (s : State) (a b c d : Byte) : SameView s (s.judgeTelegram a b c d) := by
  unfold State.judgeTelegram
  split
  · exact .count (.refl s)
  · exact .count (.refl s)
  · exact .modLink (.putIf (.modLink (.putIf (.modLink (.putIf (.modLink (.count (.refl s))))))))

theorem State.takeByte_sameView (s : State) (b : Byte) : SameView s (s.takeByte b) := by
  unfold State.takeByte
  split
  · split
    · exact .modLink (.refl s)
    · exact .count (.refl s)
  · exact (SameView.dropTelegram (.refl s)).trans (State.judgeTelegram_sameView _ _ _ _ _)
  · exact .modLink (.refl s)

theorem State.takeFrame_sameView (s : State) (f : Frame) : SameView s (s.takeFrame f) := by
  unfold State.takeFrame
  split
  · next h =>
    have hrx : s.link.rx.state ≠ .off := by intro e; rw [e] at h; cases h
    have ready : SameView s (s.setRx .ready) := .modLink (.refl s) (iff_of_true nofun hrx)
    have settle : SameView s s.enterSettle := .modLink (.refl s) (iff_of_true nofun hrx)
    split
    · exact .count settle.dropTelegram
    · split
      · exact .count ready.dropTelegram
      · exact ready.trans (State.takeByte_sameView _ _)
  · exact .refl s

theorem State.lineSettled_sameView (s : State) : SameView s s.lineSettled := by
  unfold State.lineSettled
  split
  · next h => exact .modLink (.refl s) (iff_of_true nofun (by rw [h]; nofun))
  · exact .refl s

theorem State.startEdge_sameView (s : State) : SameView s s.startEdge := by
  unfold State.startEdge
  split
  · next h => exact .modLink (.refl s) (iff_of_true nofun (by rw [h]; nofun))
  · exact .refl s

theorem State.midStart_sameView (s : State) (mark : Bool) : SameView s (s.midStart mark) := by
  unfold State.midStart
  split
  · next h =>
    have hrx : s.link.rx.state ≠ .off := by rw [h]; nofun
    split
    · exact .modLink (.refl s) (iff_of_true nofun hrx)
    · have data : SameView s (s.setRx .data) := .modLink (.refl s) (iff_of_true nofun hrx)
      exact .modLink data
  · exact .refl s

theorem State.gapExpires_sameView (s : State) : SameView s s.gapExpires := by
  unfold State.gapExpires
  split
  · split
    · exact .count (.dropTelegram (.refl s))
    · exact .refl s
  · exact .refl s

theorem State.ageOne_sameView (s : State) : SameView s s.ageOne := by
  have aged : SameView s (s.setAge (sat16 s.link.age)) := .putIf (.modLink (.refl s))
  unfold State.ageOne
  split
  · exact .refl s
  · dsimp only
    split
    · exact .putIf (.modLink aged)
    · exact aged

end Sys2Proof.Machine
end

section
/-! PROOFS. The gauge commands, the port and the clock in terms of the moves of the part's view; and so every command and every step. -/

namespace Sys2Proof.Machine

open Safety

/-! ### Resets -/

/-- Every block in its reset state, as the laws see it. -/
theorem State.resetBlocks_view (s : State) :
    s.resetBlocks.view = { State.reset.view with gauge := s.gauge, resetActive := s.resetActive } := by
  simp only [State.view, State.resetBlocks, State.inFlight]
  rfl

theorem State.withGauge_view (s : State) (g : GaugeState) (active : Bool) (c : Clearing) :
    ({ s with gauge := g, resetActive := active, clearing := c } : State).view = { s.view with gauge := g, resetActive := active } := rfl

theorem State.fullReset_changes (s : State) : Changes s s.fullReset := by
  have hv : s.fullReset.view = { State.reset.view with gauge := .init, resetActive := true } := by
    have e := State.withGauge_view s.resetBlocks .init true s.resetBlocks.clearing
    rw [State.resetBlocks_view] at e
    dsimp only at e
    exact e
  exact ⟨.inr (hv ▸ .resets true), id⟩

theorem State.beginInit_view (s : State) (soft : Bool) :
    (s.beginInit soft).view = { State.reset.view with gauge := .init, resetActive := false } := by
  rw [State.beginInit, State.setGauge_view, State.withGauge_view, State.resetBlocks_view]

theorem State.beginInit_wf (s : State) (soft : Bool) : Memory.wf s.mem → Memory.wf (s.beginInit soft).mem :=
  State.setGauge_wf { s.resetBlocks with resetActive := false, clearing := { soft := soft, next := 0 } } .init

theorem State.beginInit_changes (s : State) (soft : Bool) : Changes s (s.beginInit soft) :=
  ⟨.inr ((s.beginInit_view soft).symm ▸ .resets false), s.beginInit_wf soft⟩

theorem State.releaseReset_changes (s : State) : Changes s s.releaseReset := by
  unfold State.releaseReset
  split
  · exact s.beginInit_changes false
  · exact (Reaches.refl s).changes

theorem State.putResetWords_sameView (s : State) : SameView s s.putResetWords := .put (.putList (.put (.put (.refl s))))

theorem State.completeInit_changes (s : State) : Changes s s.completeInit := by
  unfold State.completeInit
  split
  · next h =>
    have hg : s.gauge = .init ∧ s.resetActive = false := by simpa [State.initRunning] using h
    dsimp only
    generalize hm : memClearFrom s.mem s.clearing.soft s.clearing.next = m
    have hv : (({ s with mem := m } : State).resetBlocks.putResetWords.setGauge .halted).view
        = { State.reset.view with gauge := .halted, resetActive := false } := by
      rw [State.setGauge_view, (State.putResetWords_sameView _).1, State.resetBlocks_view, hg.2]
    refine ⟨.inr (hv.symm ▸ .leavesInit hg.1), fun hw => State.setGauge_wf _ _ ((State.putResetWords_sameView _).wf ?_)⟩
    have := Memory.wf_memClearFrom s.mem s.clearing.soft s.clearing.next hw
    rw [hm] at this
    exact this
  · exact (Reaches.refl s).changes

/-! ### RUN and STOP -/

/-- The part as step 6 of R10 leaves it: the timer stopped, the link started, the tracker IDLE. -/
def View.idled (v : View) : View := { v with timer := false, shot := none, receiving := true, tracking := false }

theorem View.idled_amended (v : View) (j : SlotNo) (y : Amendment) : v.idled.amended j y false = (v.amended j y false).idled := by
  obtain ⟨hu, hn, e⟩ | ⟨hnot, e⟩ := v.amended_cases j y false
  · obtain ⟨-, -, d⟩ | ⟨hd, -⟩ := v.idled.amended_cases j y false
    · rw [d, e]; rfl
    · exact absurd ⟨hu, hn⟩ hd
  · obtain ⟨hu, hn, -⟩ | ⟨-, d⟩ := v.idled.amended_cases j y false
    · exact absurd ⟨hu, hn⟩ hnot
    · rw [d, e]; rfl

theorem State.clearStray_sameView (s : State) (k : Head) : SameView s (s.clearStray k) :=
  SameView.trans ⟨rfl, id⟩ (SameView.put (.refl ({ s with heads := vset s.heads k { s.heads[k] with stray := 0 } } : State)))

theorem State.clearRunCounters_sameView (s : State) : SameView s s.clearRunCounters := by
  have counted : SameView s { s with tubesCompleted := 0, tubesMissed := 0 } := ⟨rfl, id⟩
  exact .put (.put ((((counted.trans (State.clearStray_sameView _ 0)).trans (State.clearStray_sameView _ 1)).trans
    (State.clearStray_sameView _ 2)).trans (State.clearStray_sameView _ 3)))

theorem State.judgeLowAtRun_sameView (s : State) : SameView s s.judgeLowAtRun := by
  unfold State.judgeLowAtRun
  split <;> exact ⟨rfl, id⟩

theorem State.takeSetup_sameView (s : State) : SameView s s.takeSetup :=
  (SameView.setPLast (p := none) (.refl s)).trans ⟨rfl, id⟩

/-- The link started, the timer and the tracker stopped and the firing state seeded (R10, R54). -/
def State.stopBlocks (s : State) (present : Bool) : State :=
  let s1 := s.startLink
  { (({ s1 with slot := none, tracker := haltTracker s1.tracker } : State).setTrack .idle).seedFiring with
    presence := { level := present, run := 0 } }

theorem State.startLink_view (s : State) : s.startLink.view = { s.view with receiving := true } := rfl

theorem State.haltTracker_view (s : State) :
    (({ s with slot := none, tracker := haltTracker s.tracker } : State).setTrack .idle).view
      = { s.view with timer := false, shot := none, tracking := false } := rfl

theorem State.seedFiring_sameView (s : State) : SameView s s.seedFiring := (SameView.setFiring (.refl s)).trans ⟨rfl, id⟩

theorem State.stopBlocks_view (s : State) (present : Bool) : (s.stopBlocks present).view = s.view.idled := by
  have seeded : SameView (({ s.startLink with slot := none, tracker := haltTracker s.startLink.tracker } : State).setTrack .idle)
      (s.stopBlocks present) := (State.seedFiring_sameView _).trans ⟨rfl, id⟩
  rw [seeded.1, State.haltTracker_view, State.startLink_view]
  rfl

theorem State.startLink_wf (s : State) : Memory.wf s.mem → Memory.wf s.startLink.mem := fun h =>
  have started : SameView ({ s with link := { Link.reset with rx := { Receiver.off with state := .settle } } } : State) s.startLink :=
    .putList (.putList (.refl _))
  started.wf h

theorem State.stopBlocks_wf (s : State) (present : Bool) (h : Memory.wf s.mem) : Memory.wf (s.stopBlocks present).mem := by
  have hlink := s.startLink_wf h
  have htrack := State.setTrack_wf { s.startLink with slot := none, tracker := haltTracker s.startLink.tracker } .idle hlink
  exact (SameView.setFiring (.refl _)).wf htrack

theorem State.prepareRun_eq (s : State) : ∃ u p, SameView s u ∧ s.prepareRun = u.stopBlocks p :=
  ⟨(((s.put stSetupError Config.noneWord).takeSetup).judgeLowAtRun).clearRunCounters, s.pins.present,
      (((SameView.put (.refl s)).trans (State.takeSetup_sameView _)).trans (State.judgeLowAtRun_sameView _)).trans
    (State.clearRunCounters_sameView _), by unfold State.prepareRun State.stopBlocks; rfl⟩

theorem State.prepareRun_view (s : State) : s.prepareRun.view = s.view.idled := by
  obtain ⟨u, p, hu, e⟩ := s.prepareRun_eq
  rw [e, State.stopBlocks_view, hu.1]

theorem State.prepareRun_wf (s : State) (h : Memory.wf s.mem) : Memory.wf s.prepareRun.mem := by
  obtain ⟨u, p, hu, e⟩ := s.prepareRun_eq
  rw [e]
  exact u.stopBlocks_wf p (hu.wf h)

/-- The first cycle of a RUN: the amendment that waits for it goes over, if there is one. -/
theorem State.cycleAmend_idled (s : State) {v : View} (hs : s.view = v.idled) :
    ∃ w, Relation.ReflTransGen Move v w ∧ (s.cycleAmend false).view = w.idled ∧ w.gauge = v.gauge := by
  unfold State.cycleAmend
  split
  · next j y h =>
    obtain ⟨hc, hy⟩ := State.dueAmendment_eq_some h
    have ho : s.view.orders = v.orders := by rw [hs]; rfl
    refine ⟨v.amended j y false, .single (.amends j y false ?_ ?_), ?_, ?_⟩
    · rw [← ho]; exact hc
    · rw [← ho]; exact hy
    · rw [State.applyAtCycle_view, hs, View.idled_amended]
    · obtain ⟨-, -, e⟩ | ⟨-, e⟩ := v.amended_cases j y false <;> rw [e]
  · exact ⟨v, .refl, hs, rfl⟩

theorem State.startRun_reaches {s : State} (hg : s.gauge = .halted) : Reaches s s.startRun := by
  have hf := s.prepareRun.restartFiring_sameView
  obtain ⟨w, hm, hv, hwg⟩ := s.prepareRun.restartFiring.cycleAmend_idled (hf.1.trans s.prepareRun_view)
  have hw : Memory.wf s.mem → Memory.wf (s.prepareRun.restartFiring.cycleAmend false).mem := fun h =>
    (State.cycleAmend_reaches _ false).2 (hf.wf (s.prepareRun_wf h))
  unfold State.startRun State.freshCycle
  generalize s.prepareRun.restartFiring.cycleAmend false = c at hv hw
  dsimp only
  refine ⟨hm.tail ?_, fun h => State.put_wf _ _ _ (State.setGauge_wf _ _ (hw h))⟩
  have e : ∀ g, ((c.openCycle.setGauge g).answerCmd ansCmdOk).view = { c.view with gauge := g, timer := true, shot := none } :=
    fun g => rfl
  rw [e, hv]
  exact .starts _ (by split <;> simp) (hwg.trans hg)

theorem State.run_reaches (s : State) : Reaches s s.run := by
  have ignored : Reaches s (s.answerCmd ansCmdIgnored) := (SameView.put (.refl s)).reaches
  unfold State.run
  split
  · next hg =>
    split
    · exact (SameView.raise (.put (.put (.refl s)))).reaches
    · exact State.startRun_reaches hg
  · exact ignored
  · exact ignored
  · exact ignored
  · exact ignored
  · exact .refl s

theorem State.stopCmd_reaches (s : State) : Reaches s s.stopCmd := by
  have halted : s.gauge = .armed ∨ s.gauge = .waitClear → Reaches s (s.enterHalted.answerCmd ansCmdOk) := fun h =>
    (Reaches.of_move (.halts h) s.enterHalted_view s.enterHalted_wf).trans (SameView.put (.refl _)).reaches
  unfold State.stopCmd
  split
  · next h => exact halted (.inl h)
  · next h => exact halted (.inr h)
  · exact (SameView.put (.refl s)).reaches
  · next h =>
    have ended : Reaches s (({ s with haltPending := true } : State).endMeasuring (some .aborted)) := by
      refine .of_move (.endsMeasuring true h) ?_ (State.endMeasuring_wf { s with haltPending := true } _)
      rw [State.endMeasuring_view, Bool.or_true]
      rfl
    exact (ended.trans (SameView.put (.refl _)).reaches).trans (State.closeIfDrained_reaches _)
  · next h =>
    split
    · exact (SameView.put (.refl s)).reaches
    · have marked : Reaches s { s with haltPending := true } := .of_move (.marksHalt h) rfl id
      exact marked.trans (SameView.put (.refl _)).reaches
  · exact .refl s

/-! ### A CONTROL write -/

theorem State.resumeCmd_sameView (s : State) : SameView s s.resumeCmd := by
  unfold State.resumeCmd
  split
  · exact ⟨rfl, id⟩
  · exact .refl s

theorem State.clearHead_sameView (s : State) (k : Head) : SameView s (s.clearHead k) := by
  unfold State.clearHead
  split
  · exact .setMisfires (.setHeadState (.refl s))
  · exact .refl s

theorem State.clearHeads_sameView (s : State) (w : Word) : SameView s (s.clearHeads w) := by
  have one : ∀ (u : State) (k : Head), SameView u (if hasFlag w (ctlClear k) then u.clearHead k else u) := by
    intro u k
    split
    · exact u.clearHead_sameView k
    · exact .refl u
  exact (((one s 0).trans (one _ 1)).trans (one _ 2)).trans (one _ 3)

theorem State.runStop_reaches (s : State) (w : Word) : Reaches s (s.runStop w) := by
  unfold State.runStop
  split
  · exact (SameView.put (.refl s)).reaches
  · split
    · exact s.stopCmd_reaches
    · split
      · exact s.run_reaches
      · exact .refl s

theorem State.controlWrite_changes (s : State) (w : Word) : Changes s (s.controlWrite w) := by
  unfold State.controlWrite
  split
  · exact (Reaches.refl s).changes
  · split
    · exact s.beginInit_changes true
    · split
      · exact (Reaches.refl s).changes
      · dsimp only
        have resumed : SameView (s.runStop w) (if hasFlag w ctlResume then (s.runStop w).resumeCmd else s.runStop w) := by
          split
          · exact State.resumeCmd_sameView _
          · exact .refl _
        exact ((s.runStop_reaches w).trans (resumed.trans (State.clearHeads_sameView _ w)).reaches).changes

/-! ### Requests to order slots -/

/-- A request that changes the orders (`u`), then its words and its answer. -/
theorem Reaches.of_request {s u t : State} {o : Orders} (m : Request s.orderInUse s.view.orders o)
    (hu : u.view = { s.view with orders := o }) (hw : u.mem = s.mem) (ht : SameView u t) : Reaches s t :=
  (Reaches.of_move (.requests o (s.view_orderInUse ▸ m)) hu (hw ▸ id)).trans ht.reaches

theorem within_eq_true (lo hi x : Nat) : within lo hi x = true ↔ lo ≤ x ∧ x ≤ hi := by simp [within]

/-- A POST that is accepted has its gain settings in their ranges (Table 9-3). -/
theorem recipeOf_gain {m : Memory} {setup : Option Setup} {j : SlotNo} (h : recipeError m setup j = none) :
    GainSettingsOk (recipeOf m (slotAddr j 0)) := by
  have hpass := (firstBad_none_iff _).1 h
  have hg0 := hpass (32, within (recipeOf m (slotAddr j 0)).gmin (recipeOf m (slotAddr j 0)).gmax (recipeOf m (slotAddr j 0)).g0)
    (by simp [recipeChecks])
  have hmax := hpass (31, within (recipeOf m (slotAddr j 0)).gmin 15 (recipeOf m (slotAddr j 0)).gmax) (by simp [recipeChecks])
  obtain ⟨h1, h2⟩ := (within_eq_true _ _ _).1 hg0
  exact ⟨h1, h2, ((within_eq_true _ _ _).1 hmax).2⟩

/-- An AMEND that is valid has its gain settings in their ranges (Table 9-4). -/
theorem amendmentOf_gain {m : Memory} {tnom : Nat} {j : SlotNo} (h : amendError m tnom j = none) :
    AmendGainOk (amendmentOf m (slotAddr j 0)) := by
  have hpass := (firstBad_none_iff _).1 h
  have hg0 := hpass (132, within (amendmentOf m (slotAddr j 0)).gmin (amendmentOf m (slotAddr j 0)).gmax
    (amendmentOf m (slotAddr j 0)).g0) (by simp [amendChecks])
  have hmax := hpass (131, within (amendmentOf m (slotAddr j 0)).gmin 15 (amendmentOf m (slotAddr j 0)).gmax) (by simp [amendChecks])
  obtain ⟨h1, h2⟩ := (within_eq_true _ _ _).1 hg0
  exact ⟨h1, h2, ((within_eq_true _ _ _).1 hmax).2⟩

theorem State.answerSlot_reaches (s : State) (j : SlotNo) (a : Word) : Reaches s (s.answerSlot j a) :=
  (SameView.answerSlot (.refl s)).reaches

theorem State.acceptPost_reaches {s : State} {j : SlotNo} (hp : Postable s.slots[j]) (hr : recipeError s.mem s.setup j = none) :
    Reaches s (s.acceptPost j) :=
  .of_request (u := { s.setSlot j (postedSlot (snapshotOf s.mem s.cfg j)) with queue := s.queue ++ [j] })
    (.posts j (snapshotOf s.mem s.cfg j) hp (recipeOf_gain hr)) rfl rfl
    (.answerSlot (.put (.putList (.put (.put (.refl _))))))

theorem State.refusePost_reaches {s : State} {j : SlotNo} (hp : Postable s.slots[j]) (off : Nat) : Reaches s (s.refusePost j off) :=
  .of_request (u := s.setSlot j { s.slots[j] with state := .refused }) (.refuses j hp) rfl rfl (.answerSlot (.put (.put (.refl _))))

theorem State.takePost_reaches (s : State) (j : SlotNo) : Reaches s (s.takePost j) := by
  have posted : Postable s.slots[j] → Reaches s (s.takePost j) := by
    intro hp
    rw [State.takePost_of_postable hp]
    cases hr : recipeError s.mem s.setup j with
    | none => exact State.acceptPost_reaches hp hr
    | some off => exact State.refusePost_reaches hp off
  cases h : s.slots[j].state with
  | ready | active =>
    simp only [State.takePost, h]
    exact s.answerSlot_reaches j _
  | free => exact posted (.inl h)
  | spent => exact posted (.inr (.inl h))
  | refused => exact posted (.inr (.inr h))

theorem State.takeCancel_reaches (s : State) (j : SlotNo) : Reaches s (s.takeCancel j) := by
  unfold State.takeCancel
  split
  · next h =>
    exact .of_request (u := { s.setSlot j (emptied s.slots[j] .free) with queue := s.queue.filter (fun i => i ≠ j) }) (.frees j h) rfl rfl
      (.answerSlot (.put (.putList (.refl _))))
  · next h =>
    split
    · exact s.answerSlot_reaches j _
    · split
      · exact .of_request (u := s.setSlot j { s.slots[j] with cancelPending := true, amendment := none }) (.marks j h) rfl rfl
          (.answerSlot (.refl _))
      · next hu =>
        have withdrawn : Reaches s (s.setSlot j { s.slots[j] with amendment := none }) :=
          .of_request (u := s.setSlot j { s.slots[j] with amendment := none }) (.withdraws j) rfl rfl (.refl _)
        have hact : (s.setSlot j { s.slots[j] with amendment := none }).slots[j].state = .active := by simpa using h
        have spent : Reaches (s.setSlot j { s.slots[j] with amendment := none })
            ((s.setSlot j { s.slots[j] with amendment := none }).spendSlot j) :=
          .of_move (.requests _ (.spends j hact (by rw [State.view_orderInUse]; exact hu))) (State.spendSlot_view _ j)
            (State.spendSlot_wf _ j)
        exact (withdrawn.trans spent).trans (State.answerSlot_reaches _ j _)
  all_goals exact s.answerSlot_reaches j _

theorem State.checkAmend_reaches {s : State} {j : SlotNo} (h : s.slots[j].state = .ready ∨ s.slots[j].state = .active) :
    Reaches s (s.checkAmend j) := by
  unfold State.checkAmend
  split
  · exact (SameView.answerSlot (.put (.refl s))).reaches
  · next hy =>
    dsimp only
    split
    · next hr =>
      exact .of_request (u := s.setSlot j (amendedSlot s.slots[j] (amendmentOf s.mem (slotAddr j 0))))
        (.amends j _ hr (amendmentOf_gain hy)) rfl rfl (.answerSlot (.put (.refl _)))
    · next hr =>
      exact .of_request (u := s.setSlot j { s.slots[j] with amendment := some (amendmentOf s.mem (slotAddr j 0)) })
        (.awaits j _ (h.resolve_left hr) (amendmentOf_gain hy)) rfl rfl (.put (.refl _))

theorem State.takeAmend_reaches (s : State) (j : SlotNo) : Reaches s (s.takeAmend j) := by
  unfold State.takeAmend
  split
  · next h => exact State.checkAmend_reaches (.inl h)
  · next h =>
    split
    · exact s.answerSlot_reaches j _
    · exact State.checkAmend_reaches (.inr h)
  all_goals exact s.answerSlot_reaches j _

theorem State.takeNone_reaches (s : State) (j : SlotNo) : Reaches s (s.takeNone j) := by
  unfold State.takeNone
  split
  · exact .of_request (u := s.setSlot j { s.slots[j] with amendment := none }) (.withdraws j) rfl rfl (.answerSlot (.refl _))
  · exact .refl s

theorem State.slotRequest_reaches (s : State) (j : SlotNo) (v : Word) : Reaches s (s.slotRequest j v) := by
  unfold State.slotRequest
  split
  · exact s.takePost_reaches j
  · split
    · exact s.takeCancel_reaches j
    · split
      · exact s.takeAmend_reaches j
      · split
        · exact s.takeNone_reaches j
        · exact s.answerSlot_reaches j _

/-! ### Requests to tube records and the release scan -/

theorem State.serveQueue_view (s : State) : s.serveQueue.view = s.view.served := by
  unfold State.serveQueue View.served
  cases hs : s.pool.scan with
  | some c => simp [State.view, hs]
  | none => cases hq : s.pool.releaseQueue <;> simp [State.view, hs, hq, State.inFlight, Scan.view]

theorem State.serveQueue_mem (s : State) : s.serveQueue.mem = s.mem := by
  unfold State.serveQueue
  split <;> rfl

theorem State.serveQueue_reaches (s : State) : Reaches s s.serveQueue :=
  .of_move .serves s.serveQueue_view (by rw [State.serveQueue_mem]; exact id)

theorem State.recRequest_reaches (s : State) (r : RecNo) (v : Word) : Reaches s (s.recRequest r v) := by
  have answered : ∀ a, Reaches s (s.answerRec r a) := fun a => (SameView.raise (.put (.put (.refl s)))).reaches
  unfold State.recRequest
  split
  · exact .refl s
  · split
    · split
      · next h =>
        refine .of_move (.releases r h) (State.serveQueue_view _) ?_
        rw [State.serveQueue_mem]
        exact State.setRecState_wf s r .releasing
      · exact answered _
    · exact answered _

theorem State.returnBlock_sameView (s : State) (b : BlockNo) :
    SameView { s with pool := { s.pool with free := s.pool.free ++ [b], owner := vset s.pool.owner b none } } (s.returnBlock b) := by
  unfold State.returnBlock State.rearmLow
  split
  · exact (SameView.put (.refl _)).trans ⟨rfl, id⟩
  · exact .put (.refl _)

theorem State.scanOne_reaches (s : State) : Reaches s s.scanOne := by
  unfold State.scanOne
  split
  · exact .refl s
  · next c hc =>
    have hs : s.view.scan = some (c.record, c.next) := by simp [State.view, hc, Scan.view]
    split
    · next hn =>
      dsimp only
      let t : State := { s with pool := { s.pool with scan := some { c with next := c.next + 1 } } }
      split
      · next ho =>
        have freed : Reaches s { t with pool := { t.pool with
            free := t.pool.free ++ [⟨c.next, hn⟩], owner := vset t.pool.owner ⟨c.next, hn⟩ none } } :=
          .of_move (.returns c.record ⟨c.next, hn⟩ hs ho) rfl id
        exact freed.trans (State.returnBlock_sameView t ⟨c.next, hn⟩).reaches
      · next ho => exact .of_move (.scans c.record ⟨c.next, hn⟩ hs ho) rfl id
    · exact .refl s

theorem State.scanFinish_reaches (s : State) : Reaches s s.scanFinish := by
  unfold State.scanFinish
  split
  · exact .refl s
  · next c hc =>
    have hs : s.view.scan = some (c.record, c.next) := by simp [State.view, hc, Scan.view]
    split
    · exact .refl s
    · next hn =>
      refine .of_move (.endsScan c.record c.next hs (by omega)) (State.serveQueue_view _) ?_
      rw [State.serveQueue_mem, State.raise_mem]
      exact fun h => State.put_wf _ _ _ (State.setRecState_wf _ _ _
        (State.put_wf { s with pool := { s.pool with scan := none } } (recAddr c.record 2) ansOk h))

/-! ### The port -/

theorem State.slotWrite_reaches (s : State) (j : SlotNo) (v : Word) : Reaches s (s.slotWrite j v) := by
  unfold State.slotWrite
  split
  · exact .refl s
  · exact (SameView.put (.refl s)).reaches.trans (State.slotRequest_reaches _ j v)

theorem State.recWrite_reaches (s : State) (r : RecNo) (v : Word) : Reaches s (s.recWrite r v) := by
  unfold State.recWrite
  split
  · exact .refl s
  · exact (SameView.put (.refl s)).reaches.trans (State.recRequest_reaches _ r v)

theorem State.hostWrite_reaches (s : State) (a v : Word) : Reaches s (s.hostWrite a v) := by
  unfold State.hostWrite
  split
  · exact s.slotWrite_reaches _ v
  · exact s.recWrite_reaches _ v
  · split
    · exact .refl s
    · exact (SameView.put (.refl s)).reaches

theorem State.regWrite_changes (s : State) (r : PortReg) (w : Word) : Changes s (s.regWrite r w) := by
  have same : ∀ t : State, SameView s t → Changes s (if s.isolated then s else t) := by
    intro t h
    split
    · exact (Reaches.refl s).changes
    · exact h.reaches.changes
  unfold State.regWrite
  split
  · exact (Reaches.refl s).changes
  · exact s.controlWrite_changes w
  · exact same _ ⟨rfl, id⟩
  · exact same _ ⟨rfl, id⟩

/-! ### Every command -/

/-- Every command answers a next state, and that comes from the present one by the moves of the part, or anew. -/
theorem exec_changes (i : Instr) (s : State) : ∃ t, exec i s = .next t ∧ Changes s t := by
  cases i with
  | fullReset => exact ⟨_, rfl, s.fullReset_changes⟩
  | resetRelease => exact ⟨_, rfl, s.releaseReset_changes⟩
  | initComplete => exact ⟨_, rfl, s.completeInit_changes⟩
  | softReset w => exact ⟨_, rfl, s.controlWrite_changes _⟩
  | run w => exact ⟨_, rfl, s.controlWrite_changes _⟩
  | stop w => exact ⟨_, rfl, s.controlWrite_changes _⟩
  | resume w => exact ⟨_, rfl, s.controlWrite_changes _⟩
  | clearHk k w => exact ⟨_, rfl, s.controlWrite_changes _⟩
  | attnCauseWrite w => exact ⟨_, rfl, s.regWrite_changes _ _⟩
  | attnMaskWrite w => exact ⟨_, rfl, s.regWrite_changes _ _⟩
  | ignoredRegisterWrite r w => exact ⟨_, rfl, s.regWrite_changes _ _⟩
  | hostMemoryWrite a v => exact ⟨_, rfl, (s.hostWrite_reaches a v).changes⟩
  | post j => exact ⟨_, rfl, (s.slotWrite_reaches j _).changes⟩
  | cancel j => exact ⟨_, rfl, (s.slotWrite_reaches j _).changes⟩
  | amend j => exact ⟨_, rfl, (s.slotWrite_reaches j _).changes⟩
  | withdrawal j => exact ⟨_, rfl, (s.slotWrite_reaches j _).changes⟩
  | badRequest j v => exact ⟨_, rfl, (s.slotWrite_reaches j _).changes⟩
  | release r => exact ⟨_, rfl, (s.recWrite_reaches r _).changes⟩
  | recordBadRequest r v => exact ⟨_, rfl, (s.recWrite_reaches r _).changes⟩
  | cycleStart o peak => exact ⟨_, rfl, (s.cycleStart_reaches o peak).changes⟩
  | slotStart peak => exact ⟨_, rfl, (s.nextSlot_reaches peak).changes⟩
  | fireDecision => exact ⟨_, rfl, s.fireDecision_reaches.changes⟩
  | confEdge k => exact ⟨_, rfl, (s.confEdge_reaches k).changes⟩
  | misfire => exact ⟨_, rfl, s.misfire_reaches.changes⟩
  | endOfBlanking => exact ⟨_, rfl, s.endBlanking_reaches.changes⟩
  | crossing k c t => exact ⟨_, rfl, (s.crossing_reaches k c t).changes⟩
  | holdOffEnd t => exact ⟨_, rfl, (s.holdOffEnd_reaches t).changes⟩
  | amplitudeSample a => exact ⟨_, rfl, (s.sampleAmplitude_reaches a).changes⟩
  | windowEnd a => exact ⟨_, rfl, (s.windowEnd_reaches a).changes⟩
  | permitLoss => exact ⟨_, rfl, s.losePermit_reaches.changes⟩
  | lineSettled => exact ⟨_, rfl, s.lineSettled_sameView.reaches.changes⟩
  | pyroFrame f => exact ⟨_, rfl, (s.takeFrame_sameView f).reaches.changes⟩
  | gapTimerExpiry => exact ⟨_, rfl, s.gapExpires_sameView.reaches.changes⟩
  | ageIncrease => exact ⟨_, rfl, s.ageOne_sameView.reaches.changes⟩
  | realStep us => exact ⟨_, rfl, (s.realStep_reaches us).changes⟩
  | stall => exact ⟨_, rfl, s.stall_reaches.changes⟩
  | syntheticStep => exact ⟨_, rfl, s.syntheticStep_reaches.changes⟩
  | headEvent => exact ⟨_, rfl, s.filteredEdge_changes true⟩
  | tailEvent => exact ⟨_, rfl, s.filteredEdge_changes false⟩
  | presenceClear => exact ⟨_, rfl, s.filteredEdge_changes false⟩
  | presenceRecorded high => exact ⟨_, rfl, s.filteredEdge_changes high⟩
  | closingSectionCompletion => exact ⟨_, rfl, s.settleClosing_fills.reaches.changes⟩
  | closeCompletion => exact ⟨_, rfl, s.closeIfDrained_reaches.changes⟩
  | scanStart => exact ⟨_, rfl, s.serveQueue_reaches.changes⟩
  | scanStep => exact ⟨_, rfl, s.scanOne_reaches.changes⟩
  | scanEnd => exact ⟨_, rfl, s.scanFinish_reaches.changes⟩
  | permitActive => exact ⟨_, rfl, (SameView.reaches ⟨rfl, id⟩).changes⟩
  | startEdge => exact ⟨_, rfl, s.startEdge_sameView.reaches.changes⟩
  | midStartCheck mark => exact ⟨_, rfl, (s.midStart_sameView mark).reaches.changes⟩

theorem changes_of_exec {i : Instr} {s t : State} (h : exec i s = .next t) : Changes s t := by
  obtain ⟨u, hu, hc⟩ := exec_changes i s
  rw [hu] at h
  injection h with e
  exact e ▸ hc

/-! ### One ct, and every step -/

theorem State.followEcho_sameView (s : State) (k : Head) (t : Nat) (level : Int) : SameView s (s.followEcho k t level) := by
  unfold State.followEcho
  split
  · next sh c hc =>
    obtain ⟨h, hs, -, hp⟩ := State.channelPhase_shot hc nofun
    split
    · exact .setPhase hs (by rw [hp]; rfl)
    · exact .refl s
  all_goals exact .refl s

theorem State.takeLevel_sameView (s : State) (p : EchoPoint) : SameView s (s.takeLevel p) := by
  refine SameView.trans (t := { s with
    chans := vset s.chans p.head (compare (s.codeInUse p.head) s.chans[p.head] p.level)
    pins := { s.pins with echo := vset s.pins.echo p.head p.level } }) ⟨?_, id⟩ (State.followEcho_sameView _ _ _ _)
  have : (vset s.chans p.head (compare (s.codeInUse p.head) s.chans[p.head] p.level)).map Channel.gain = s.chans.map Channel.gain := by
    ext i hi
    by_cases e : p.head.val = i
    · subst e; simp [vset, compare]
    · simp [vset, e]
  unfold State.view
  simp only [this]
  rfl

theorem State.settleEchoes_sameView (s : State) : SameView s s.settleEchoes.1 := by
  have h : ∀ (ks : List Head) (r : State × List Instr), SameView s r.1 → SameView s (ks.foldl settleChannel r).1 := by
    intro ks
    induction ks with
    | nil => exact fun r hr => hr
    | cons k ks ih => exact fun r hr => ih _ (hr.trans (State.takeLevel_sameView _ _))
  exact h _ _ (.refl s)

theorem State.echoPoints_sameView (s : State) (ps : List EchoPoint) : SameView s (s.echoPoints ps).1 := by
  induction ps generalizing s with
  | nil => exact .refl s
  | cons p ps ih => exact (s.takeLevel_sameView p).trans (ih _)

theorem State.echoTick_sameView (s : State) (ps : List EchoPoint) : SameView s (s.echoTick ps).1 :=
  s.settleEchoes_sameView.trans (State.echoPoints_sameView _ ps)

theorem State.clearWord_sameView (s : State) : SameView s s.clearWord := by
  unfold State.clearWord
  split
  · exact ⟨rfl, Memory.wf_memClearOne _ _ _⟩
  · exact .refl s

/-- The receiver leaves OFF with no ct (R55). -/
theorem rxTick_off (c : Setup) (now : Nat) (r : Receiver) (mark : Bool) : (rxTick c now r mark).state ≠ .off ↔ r.state ≠ .off := by
  have hafter : stateAfter c (r.bits.length + 1) ≠ .off := by
    unfold stateAfter
    split
    · nofun
    · split <;> nofun
  cases h : r.state with
  | data | parity | stop =>
    simp only [rxTick, h]
    split <;> simp [hafter]
  | off | settle | ready | start => simp [rxTick, h]

theorem State.sampleInputs_sameView (s : State) (x : PinSample) : SameView s (s.sampleInputs x).1 := by
  refine ⟨?_, id⟩
  have hr : decide ((s.sampleInputs x).1.link.rx.state ≠ .off) = decide (s.link.rx.state ≠ .off) := decide_eq_decide.2 (rxTick_off _ _ _ _)
  have e : (s.sampleInputs x).1.view = { s.view with receiving := decide ((s.sampleInputs x).1.link.rx.state ≠ .off) } := rfl
  rw [e, hr]
  rfl

theorem State.tick_sameView (s : State) : SameView s s.tick := by
  have cleared : SameView s (State.advance (s.echoTick s.nextSample.echo).1 s.nextSample).clearWord :=
    ((s.echoTick_sameView _).trans ⟨rfl, id⟩).trans (State.clearWord_sameView _)
  unfold State.tick
  dsimp only
  split
  · exact (cleared.trans (State.sampleInputs_sameView _ _)).trans ⟨rfl, id⟩
  · exact cleared

/-- Every step is a command or a ct. -/
theorem changes_of_step {s t : State} (h : step s = .next t) : Changes s t := by
  unfold step at h
  split at h
  · next i rest hp => exact SameView.changes (t := { s with pending := rest }) ⟨rfl, id⟩ (changes_of_exec h)
  · unfold State.idleStep at h
    split at h
    · exact changes_of_exec h
    · injection h with e
      exact e ▸ s.tick_sameView.reaches.changes

end Sys2Proof.Machine
end

section
/-! PROOFS. Laws 1, 2, 10, 11 and 12, Table 1-1, the canonical memory and the conditions of FIRE, over every step of the part; and a
state in which laws 3 and 4 are lost: z above the end of its range. -/

namespace Sys2Proof.Machine

open Safety

/-! ### What every step keeps -/

/-- A property of the view that every move keeps, and every reset and head event, is kept by every command. -/
theorem Changes.keeps {P : View → Prop} (hm : ∀ v w, Move v w → P v → P w) (ht : ∀ v w, Turn v w → P v → P w) {s t : State}
    (h : Changes s t) (hp : P s.view) : P t.view := by
  obtain ⟨hmoves | hturn, -⟩ := h
  · generalize t.view = w at hmoves
    induction hmoves with
    | refl => exact hp
    | tail _ m ih => exact hm _ _ m ih
  · exact ht _ _ hturn hp

theorem Reaches.keeps {P : View → Prop} (hm : ∀ v w, Move v w → P v → P w) {s t : State} (h : Reaches s t) (hp : P s.view) : P t.view := by
  obtain ⟨hmoves, -⟩ := h
  generalize t.view = w at hmoves
  induction hmoves with
  | refl => exact hp
  | tail _ m ih => exact hm _ _ m ih

/-- Law 10 with the laws that it rests on. -/
def View.GainLaws (v : View) : Prop := v.GaugeLaw ∧ v.OrdersLaw ∧ v.GainLaw

theorem Move.gainLaws (v w : View) (m : Move v w) : v.GainLaws → w.GainLaws := fun ⟨hg, ho, h⟩ =>
  ⟨m.gaugeLaw hg, m.ordersLaw ho, m.gainLaw hg ho h⟩

/-- Settles O51. -/
theorem everyStepKeepsMemoryCanonical : Obligations.EveryStepKeepsMemoryCanonical := fun _ _ h hstep => (changes_of_step hstep).2 h

/-- Settles O52. -/
theorem everyStepKeepsGaugeConsistent : Obligations.EveryStepKeepsGaugeConsistent := by
  intro s t h hstep
  rw [gaugeOk_iff] at h ⊢
  exact (changes_of_step hstep).keeps (fun _ _ m => m.gaugeLaw) (fun _ _ m => m.gaugeLaw) h

/-- Whether a record owns block `b`. -/
def Pool.owned (p : Pool) (b : BlockNo) : Bool := p.owner[b].isSome

/-- The free blocks are those without an owner, in some order. -/
theorem free_perm {s : State} (h : PoolOk s) : s.pool.free.Perm ((List.finRange 952).filter fun b => !s.pool.owned b) := by
  obtain ⟨hnodup, hfree⟩ := h
  refine (List.perm_ext_iff_of_nodup hnodup ((List.nodup_finRange 952).filter _)).2 fun b => ?_
  rw [hfree, List.mem_filter]
  simp [Pool.owned]

/-- Settles O53: the free blocks and the owned ones are a partition of the 952. -/
theorem everyStepKeepsPoolPartition : Obligations.EveryStepKeepsPoolPartition := by
  constructor
  · intro s t h hstep
    rw [poolOk_iff] at h ⊢
    exact (changes_of_step hstep).keeps (fun _ _ m => m.poolLaw) (fun _ _ m => m.poolLaw) h
  · intro s h
    have howned : (s.pool.owner.toList.filter Option.isSome).length
        = ((List.finRange 952).filter s.pool.owned).length := by
      have e : s.pool.owner.toList = (List.finRange 952).map fun b => s.pool.owner[b] := by
        rw [toList_eq_ofFn, List.ofFn_eq_map]
      rw [e, List.filter_map, List.length_map]
      rfl
    have hsplit := List.length_eq_length_filter_add (l := List.finRange 952) s.pool.owned
    rw [List.length_finRange] at hsplit
    rw [(free_perm h).length_eq, howned, Nat.add_comm]
    exact hsplit.symm

/-- Settles O54. -/
theorem everyStepKeepsOrderQueue : Obligations.EveryStepKeepsOrderQueue := by
  intro s t h hstep
  rw [ordersOk_iff] at h ⊢
  exact (changes_of_step hstep).keeps (fun _ _ m => m.ordersLaw) (fun _ _ m => m.ordersLaw) h

/-- Settles O55: law 2 rests on Table 1-1, for a head event finds no tube open. -/
theorem everyStepKeepsTubeRecords : Obligations.EveryStepKeepsTubeRecords := by
  intro s t hg h hstep
  rw [gaugeOk_iff] at hg
  rw [recordsOk_iff] at h ⊢
  exact ((changes_of_step hstep).keeps (P := fun v => v.GaugeLaw ∧ v.RecordsLaw) (fun _ _ m h => ⟨m.gaugeLaw h.1, m.recordsLaw h.2⟩)
    (fun _ _ m h => ⟨m.gaugeLaw h.1, m.recordsLaw h.1 h.2⟩) ⟨hg, h⟩).2

/-- Settles O56: law 10 rests on Table 1-1 and law 12. -/
theorem everyStepKeepsGainsInRange : Obligations.EveryStepKeepsGainsInRange := by
  intro s t hg ho h hstep
  rw [gaugeOk_iff] at hg
  rw [ordersOk_iff] at ho
  rw [gainOk_iff] at h ⊢
  exact ((changes_of_step hstep).keeps (P := View.GainLaws) Move.gainLaws
    (fun _ _ m h => ⟨m.gaugeLaw h.1, m.ordersLaw h.2.1, m.gainLaw h.2.2⟩) ⟨hg, ho, h⟩).2.2

/-! ### Position (law 11) -/

/-- A move leaves z as it was or advances it, within its range (R96). -/
theorem Move.position {v w : View} (m : Move v w) (h : v.z ≤ Config.zMax) : v.z ≤ w.z ∧ w.z ≤ Config.zMax := by
  have same : w.z = v.z → v.z ≤ w.z ∧ w.z ≤ Config.zMax := fun e => by rw [e]; exact ⟨le_rfl, h⟩
  have served : ∀ u : View, u.served.z = u.z := by
    intro u
    obtain ⟨e, -⟩ | ⟨r, rest, -, -, e⟩ := u.served_cases <;> rw [e]
  cases m with
  | advances d => exact ⟨le_min (Nat.le_add_right _ _) h, Nat.min_le_right _ _⟩
  | allocates w ha =>
    cases ha with
    | takes => exact same rfl
  | amends j y fired =>
    obtain ⟨-, -, e⟩ | ⟨-, e⟩ := v.amended_cases j y fired <;> exact same (by rw [e])
  | releases | endsScan => exact same (served _)
  | serves => exact same (served v)
  | opensSlot | fires | endsShot | requests | scans | returns | losesTrack | endsMeasuring | marksHalt | closes | clears | halts
  | starts => exact same rfl

/-- Settles O39: a reset or a head event begins z anew, and no tube is open at a head event. -/
theorem positionNeverDecreasesInTube : Obligations.PositionNeverDecreasesInTube := by
  intro s t i hz hexec
  obtain ⟨hmoves | hturn, -⟩ := changes_of_exec hexec
  · have hrange : s.view.z ≤ t.view.z ∧ t.view.z ≤ Config.zMax := by
      generalize t.view = w at hmoves
      induction hmoves with
      | refl => exact ⟨le_rfl, hz⟩
      | tail _ m ih =>
        obtain ⟨h1, h2⟩ := m.position ih.2
        exact ⟨ih.1.trans h1, h2⟩
    exact ⟨hrange.2, fun _ _ => hrange.1⟩
  · have anew : t.tracker.z = 0 ∧ (t.gauge = .init ∨ s.gauge = .init ∨ s.gauge = .armed) := by
      change t.view.z = 0 ∧ (t.view.gauge = .init ∨ s.view.gauge = .init ∨ s.view.gauge = .armed)
      generalize t.view = w at hturn
      cases hturn with
      | resets active => exact ⟨rfl, .inl rfl⟩
      | leavesInit hg => exact ⟨rfl, .inr (.inl hg)⟩
      | misses hg => exact ⟨rfl, .inr (.inr hg)⟩
      | opensWithout r o hg => exact ⟨rfl, .inr (.inr hg)⟩
      | opensWith r o j n hg => exact ⟨rfl, .inr (.inr hg)⟩
    obtain ⟨h0, hg⟩ := anew
    refine ⟨by rw [h0]; exact Nat.zero_le _, fun hs ht => ?_⟩
    rcases hg with e | e | e
    · exact absurd e ht
    · rcases hs with d | d <;> rw [d] at e <;> cases e
    · rcases hs with d | d <;> rw [d] at e <;> cases e

/-! ### After a reset -/

theorem View.withGauge_same {v : View} {g : GaugeState} {a : Bool} (hg : v.gauge = g) (ha : v.resetActive = a) :
    v = { v with gauge := g, resetActive := a } := by
  subst hg ha
  rfl

theorem State.reset_view_eq : State.reset.view = { State.reset.view with gauge := .init, resetActive := false } :=
  View.withGauge_same rfl rfl

/-- Settles O50. -/
theorem resetMeetsEveryInvariant : Obligations.ResetMeetsEveryInvariant := by
  have hgauge : State.reset.view.GaugeLaw :=
    ⟨by decide, by simp [State.view, State.reset], by decide, by decide, by decide, by decide, by decide⟩
  refine ⟨State.reset_mem_wf, (gaugeOk_iff _).2 hgauge, (poolOk_iff _).2 View.reset_poolLaw, (ordersOk_iff _).2 View.reset_ordersLaw,
    (recordsOk_iff _).2 ?_, (gainOk_iff _).2 ?_, ⟨?_, ?_, ?_⟩⟩
  · rw [State.reset_view_eq]
    exact View.reset_recordsLaw .init false
  · rw [State.reset_view_eq]
    exact View.reset_gainLaw .init false
  · intro j n hn
    simp [State.reset, OrderSlot.free] at hn
  · intro x n hx
    cases hx
  · intro x hx
    cases hx

/-! ### Laws 3 and 4 above the end of z's range -/

/-- An order of sections of 20 mm without end zones. -/
def plainRecipe : Recipe :=
  { tag := Vector.replicate 4 0, lotCount := 0, headMask := 0, threshold := 0, polarity := .pos, noiseLimit := 0, blanking := 0,
    window := 0, holdoff := 0, captureMax := 0, peakDelay := 0, gmin := 0, gmax := 0, g0 := 0, agcOn := false, agcLo := 0, agcHi := 0,
    ctol := 0, fallbackT := 0, coreOffset := 0, velocity := Vector.replicate 17 0, trim := 0, tnom := 0, bandLo := 0, bandHi := 0,
    lSec := 20000, pitch := 0, twist := .cw, occMin := 8, headSkip := 0, tailSkip := 0, maxLen := 100000000 }

/-- A tube of that order with z = 67,200,000, above the end of z's range, at the start of section 3360; a real step waits. -/
def beyondRange : State :=
  { State.reset with
    gauge := .measuring
    slot := some { head := 0, startAt := 0, phase := .idle }
    link := { Link.reset with rx := { Receiver.off with state := .ready } }
    tracker := { Tracker.reset with state := .tracking, z := 67200000 }
    tube := some (newTube (some 0) (some 0) 1 .normal 0#16 (some (newAccum 3360 0#16)))
    slots := vset (Vector.replicate 4 OrderSlot.free) 0
      { OrderSlot.free with state := .active, snapshot := some { recipe := plainRecipe, wEff := 0, clamped := false } }
    current := some 0
    pending := [.realStep 0] }

theorem beyondRange_slot (j : SlotNo) :
    (j = 0 ∧ beyondRange.slots[j] = { OrderSlot.free with
        state := .active, snapshot := some { recipe := plainRecipe, wEff := 0, clamped := false } })
      ∨ (j ≠ 0 ∧ beyondRange.slots[j] = OrderSlot.free) := by
  by_cases e : (0 : SlotNo) = j
  · exact .inl ⟨e.symm, by subst e; rfl⟩
  · have h : beyondRange.slots[j] = (Vector.replicate 4 OrderSlot.free)[j] := by simp [beyondRange, -Fin.getElem_fin, e]
    exact .inr ⟨Ne.symm e, h.trans (Vector.getElem_replicate _)⟩

theorem beyondRange_tubeOrder : beyondRange.tubeOrder = some { recipe := plainRecipe, wEff := 0, clamped := false } := rfl

theorem beyondRange_gaugeOk : GaugeOk beyondRange where
  tube := by decide
  tail := by rintro x h; cases h; decide
  timer := by decide
  receiver := by decide
  tracker := by decide
  halt := by decide
  reset := by decide

theorem beyondRange_ordersOk : OrdersOk beyondRange where
  nodup := List.nodup_nil
  ready := by
    intro j
    obtain ⟨-, e⟩ | ⟨-, e⟩ := beyondRange_slot j <;> rw [e] <;> exact iff_of_false (List.not_mem_nil) nofun
  active := by
    intro j
    obtain ⟨rfl, e⟩ | ⟨hj, e⟩ := beyondRange_slot j <;> rw [e]
    · exact iff_of_true rfl rfl
    · exact iff_of_false (fun h => hj (Option.some.inj h).symm) nofun
  snapshot := by
    intro j
    obtain ⟨-, e⟩ | ⟨-, e⟩ := beyondRange_slot j <;> rw [e] <;> decide
  marks := by
    intro j
    obtain ⟨-, e⟩ | ⟨-, e⟩ := beyondRange_slot j <;> rw [e] <;> decide
  inUse := fun _ h => h

theorem beyondRange_sectionsOk : SectionsOk beyondRange where
  settings := by
    intro j n hn
    obtain ⟨-, e⟩ | ⟨-, e⟩ := beyondRange_slot j <;> rw [e] at hn <;> cases hn
    exact ⟨le_rfl, by decide⟩
  withOrder := by
    intro x n hx hn
    rw [beyondRange_tubeOrder] at hn
    cases hx
    cases hn
    exact ⟨⟨le_rfl, by decide⟩, by rintro a h; cases h; decide, nofun, List.Pairwise.nil, nofun, nofun, nofun, nofun⟩
  without := by
    intro x _ hn
    rw [beyondRange_tubeOrder] at hn
    cases hn

/-- Refutes O57: nothing bounds z there, so that a real step can take z from above its range back to the end of the range, below the
start of the OPEN section. -/
theorem not_everyStepKeepsSectionsInOrder : ¬ Obligations.EveryStepKeepsSectionsInOrder := by
  rintro ⟨h, -⟩
  have hstep : step beyondRange = .next (({ beyondRange with pending := [] } : State).realStep 0) := rfl
  have ht := h _ _ beyondRange_gaugeOk beyondRange_ordersOk beyondRange_sectionsOk hstep
  have hafter : ∃ x a n, (({ beyondRange with pending := [] } : State).realStep 0).tube = some x ∧ x.opened = some a
      ∧ (({ beyondRange with pending := [] } : State).realStep 0).tubeOrder = some n
      ∧ (({ beyondRange with pending := [] } : State).realStep 0).passZ < a.index * n.recipe.lSec :=
    ⟨newTube (some 0) (some 0) 1 .normal 0#16 (some (newAccum 3360 0#16)) |> fun x => { x with flags := tfTrackingLost },
      newAccum 3360 0#16, { recipe := plainRecipe, wEff := 0, clamped := false }, by decide +kernel, rfl, by decide +kernel,
      by decide +kernel⟩
  obtain ⟨x, a, n, hx, ha, hn, hz⟩ := hafter
  exact absurd ((ht.withOrder x n hx hn).opened a ha) (Nat.not_le.2 hz)

end Sys2Proof.Machine
end

section
/-! PROOFS. Every command is taken in every state, and what it leaves of the queue, the clock and the input stream; a step takes the
command in front, or the event of the first timer that is due. -/

namespace Sys2Proof.Machine

open Safety

/-! ### What no command touches -/

/-- The queue, the clock and the input stream stand in `t` as in `s`. -/
def SameTime (s t : State) : Prop := t.pending = s.pending ∧ t.now = s.now ∧ t.inputs = s.inputs

theorem SameTime.trans {s t u : State} (h : SameTime s t) (g : SameTime t u) : SameTime s u :=
  ⟨g.1.trans h.1, g.2.1.trans h.2.1, g.2.2.trans h.2.2⟩

theorem State.beginInit_time (s : State) (soft : Bool) : SameTime s (s.beginInit soft) := ⟨rfl, rfl, rfl⟩

theorem State.completeInit_time (s : State) : SameTime s s.completeInit := by
  unfold State.completeInit
  split <;> exact ⟨rfl, rfl, rfl⟩

theorem State.releaseReset_time (s : State) : SameTime s s.releaseReset := by
  unfold State.releaseReset
  split
  · exact s.beginInit_time false
  · exact ⟨rfl, rfl, rfl⟩

theorem State.controlWrite_time (s : State) (w : Word) : SameTime s (s.controlWrite w) := by
  unfold State.controlWrite
  split
  · exact ⟨rfl, rfl, rfl⟩
  · split
    · exact s.beginInit_time true
    · split
      · exact ⟨rfl, rfl, rfl⟩
      · dsimp only
        split <;> simp [SameTime]

theorem State.regWrite_time (s : State) (r : PortReg) (w : Word) : SameTime s (s.regWrite r w) := by
  cases r with
  | ident => exact ⟨rfl, rfl, rfl⟩
  | control => exact s.controlWrite_time w
  | attnCause | attnMask =>
    simp only [State.regWrite]
    split <;> exact ⟨rfl, rfl, rfl⟩

/-- Settles O3. -/
theorem everyCommandCompletes : Obligations.EveryCommandCompletes := by
  intro i s
  have answers : ∀ t : State, exec i s = .next t → SameTime s t →
      ∃ t, exec i s = .next t ∧ t.pending = s.pending ∧ t.now = s.now ∧ t.inputs = s.inputs := fun t ht h => ⟨t, ht, h⟩
  cases i with
  | fullReset => exact answers _ rfl ⟨rfl, rfl, rfl⟩
  | resetRelease => exact answers _ rfl s.releaseReset_time
  | initComplete => exact answers _ rfl s.completeInit_time
  | softReset | run | stop | resume | clearHk => exact answers _ rfl (s.controlWrite_time _)
  | attnCauseWrite | attnMaskWrite | ignoredRegisterWrite => exact answers _ rfl (s.regWrite_time _ _)
  | hostMemoryWrite => exact answers _ rfl (by simp [SameTime])
  | post | cancel | amend | withdrawal | badRequest | release | recordBadRequest => exact answers _ rfl (by simp [SameTime])
  | cycleStart | slotStart | fireDecision | confEdge | misfire | endOfBlanking | crossing | holdOffEnd | amplitudeSample
  | windowEnd | permitLoss | permitActive => exact answers _ rfl (by simp [SameTime])
  | lineSettled | pyroFrame | gapTimerExpiry | ageIncrease | startEdge | midStartCheck => exact answers _ rfl (by simp [SameTime])
  | realStep | stall | syntheticStep | headEvent | tailEvent | presenceClear | presenceRecorded =>
    exact answers _ rfl (by simp [SameTime])
  | closingSectionCompletion | closeCompletion | scanStart | scanStep | scanEnd => exact answers _ rfl (by simp [SameTime])

/-! ### Steps -/

/-- Settles O1. -/
theorem stepTakesFrontCommand : Obligations.StepTakesFrontCommand := fun _ _ _ => rfl

theorem step_of_idle {s : State} (h : s.pending = []) : step s = s.idleStep := by
  unfold step
  rw [h]

theorem step_of_due {s : State} {i : Instr} (h : s.pending = []) (hd : s.due = some i) : step s = exec i s := by
  rw [step_of_idle h, State.idleStep, hd]

theorem step_of_notDue {s : State} (h : s.pending = []) (hd : s.due = none) : step s = .next s.tick := by
  rw [step_of_idle h, State.idleStep, hd]

theorem orElse_assoc {α : Type} (a b c : Option α) : (a <|> b <|> c) = ((a <|> b) <|> c) := by
  cases a <;> rfl

/-- The event that is due is that of the first timer that is due. -/
theorem State.due_firstDue (s : State) : s.due = firstDue (timers s) := by
  unfold State.due timers
  simp only [firstDue_append]
  rw [orElse_assoc s.dueInit, s.dueCompletions_firstDue, s.dueLink_firstDue, s.dueTracker_firstDue, s.dueShot_firstDue,
    s.dueSlot_firstDue, s.dueScan_firstDue]
  simp only [orElse_assoc]

theorem State.tick_time (s : State) : s.tick.now = s.now + 1 ∧ s.tick.inputs = s.inputs.tail := by
  rw [s.tick_only]
  exact ⟨rfl, rfl⟩

/-- Settles O2. -/
theorem idleStepTakesDueEventOrTime : Obligations.IdleStepTakesDueEventOrTime := by
  intro s hp
  have passes : s.due = none → ∃ t, step s = .next t ∧ t.now = s.now + 1 ∧ t.inputs = s.inputs.tail := fun hd =>
    ⟨s.tick, step_of_notDue hp hd, s.tick_time⟩
  refine ⟨fun i hi => step_of_due hp hi, passes, fun e he => step_of_due hp ?_, fun h => passes ?_⟩
  · rw [s.due_firstDue, firstDue, he]
    rfl
  · rw [s.due_firstDue, firstDue, List.find?_eq_none.2 fun e he => by simp [h e he]]
    rfl

end Sys2Proof.Machine
end

section
/-! PROOFS. FIRE is issued by the fire decision alone, under its conditions (laws 6 and 10). -/

namespace Sys2Proof.Machine

open Safety

/-! ### The pulses on FIRE -/

/-- No head has driven more pulses in `t` than in `s`. -/
def NoPulse (s t : State) : Prop := ∀ k : Head, t.heads[k].fires ≤ s.heads[k].fires

theorem NoPulse.of_heads {s t : State} (h : t.heads = s.heads) : NoPulse s t := fun k => by rw [h]

theorem NoPulse.trans {s t u : State} (h : NoPulse s t) (g : NoPulse t u) : NoPulse s u := fun k => (g k).trans (h k)

/-- A head whose state or whose counts but the pulses change. -/
theorem NoPulse.of_head {s t : State} {k : Head} {x : HeadUnit} (h : t.heads = vset s.heads k x) (hx : x.fires = s.heads[k].fires) :
    NoPulse s t := by
  intro i
  rw [h]
  by_cases e : k = i
  · subst e; simp [hx]
  · simp [-Fin.getElem_fin, e]

theorem NoPulse.of_reset {s t : State} (h : t.heads = Vector.replicate 4 HeadUnit.reset) : NoPulse s t := by
  intro k
  rw [h]
  simp [HeadUnit.reset]

theorem State.setMisfires_noPulse (s : State) (k : Head) (n : Nat) : NoPulse s (s.setMisfires k n) := .of_head (s.setMisfires_heads k n) rfl

theorem State.setStray_noPulse (s : State) (k : Head) (n : Nat) : NoPulse s (s.setStray k n) := .of_head (s.setStray_heads k n) rfl

theorem State.setHeadState_noPulse (s : State) (k : Head) (x : HeadState) : NoPulse s (s.setHeadState k x) :=
  .of_head (s.setHeadState_heads k x) rfl

theorem State.enterFault_noPulse (s : State) (k : Head) : NoPulse s (s.enterFault k) := by
  refine (s.setHeadState_noPulse k .fault).trans (.of_heads ?_)
  unfold State.enterFault
  dsimp only
  split <;> simp

theorem State.misfire_noPulse (s : State) : NoPulse s s.misfire := by
  have shot : ∀ k sh, NoPulse s (s.misfireShot k sh) := by
    intro k sh
    have counted := s.setMisfires_noPulse k (sat16 s.heads[k].misfires)
    unfold State.misfireShot
    dsimp only
    split
    · exact (counted.trans (State.enterFault_noPulse _ k)).trans (.of_heads (by simp))
    · exact counted.trans (.of_heads (by simp))
  unfold State.misfire
  split
  · split
    · exact shot _ _
    · exact .of_heads rfl
  · exact .of_heads rfl

theorem State.confEdge_noPulse (s : State) (k : Head) : NoPulse s (s.confEdge k) := by
  unfold State.confEdge
  split
  · exact .of_heads rfl
  · split
    · exact (s.setMisfires_noPulse k 0).trans (.of_heads rfl)
    · exact s.setStray_noPulse k _

theorem State.clearStray_noPulse (s : State) (k : Head) : NoPulse s (s.clearStray k) :=
  .of_head (x := { s.heads[k] with stray := 0 }) rfl rfl

theorem State.clearRunCounters_noPulse (s : State) : NoPulse s s.clearRunCounters := by
  have counted : NoPulse s { s with tubesCompleted := 0, tubesMissed := 0 } := .of_heads rfl
  exact ((((counted.trans (State.clearStray_noPulse _ 0)).trans (State.clearStray_noPulse _ 1)).trans
    (State.clearStray_noPulse _ 2)).trans (State.clearStray_noPulse _ 3)).trans (.of_heads rfl)

theorem State.run_noPulse (s : State) : NoPulse s s.run := by
  have started : NoPulse s s.startRun := by
    let u := ((s.put stSetupError Config.noneWord).takeSetup).judgeLowAtRun
    have hu : NoPulse s u := .of_heads (by simp [u])
    have hrun : s.startRun.heads = u.clearRunCounters.heads := by simp [State.startRun, State.prepareRun, u]
    exact (hu.trans u.clearRunCounters_noPulse).trans (.of_heads hrun)
  unfold State.run
  split
  · split
    · exact .of_heads rfl
    · exact started
  all_goals exact .of_heads rfl

theorem State.clearHead_noPulse (s : State) (k : Head) : NoPulse s (s.clearHead k) := by
  unfold State.clearHead
  split
  · exact (s.setHeadState_noPulse k .on).trans (State.setMisfires_noPulse _ k 0)
  · exact .of_heads rfl

theorem State.clearHeads_noPulse (s : State) (w : Word) : NoPulse s (s.clearHeads w) := by
  have one : ∀ (u : State) (k : Head), NoPulse u (if hasFlag w (ctlClear k) then u.clearHead k else u) := by
    intro u k
    split
    · exact u.clearHead_noPulse k
    · exact .of_heads rfl
  exact (((one s 0).trans (one _ 1)).trans (one _ 2)).trans (one _ 3)

theorem State.controlWrite_noPulse (s : State) (w : Word) : NoPulse s (s.controlWrite w) := by
  have ranOrStopped : NoPulse s (s.runStop w) := by
    unfold State.runStop
    split
    · exact .of_heads rfl
    · split
      · exact .of_heads (by simp)
      · split
        · exact s.run_noPulse
        · exact .of_heads rfl
  unfold State.controlWrite
  split
  · exact .of_heads rfl
  · split
    · exact .of_reset rfl
    · split
      · exact .of_heads rfl
      · dsimp only
        refine (ranOrStopped.trans (.of_heads ?_)).trans (State.clearHeads_noPulse _ w)
        split <;> simp

theorem State.releaseReset_noPulse (s : State) : NoPulse s s.releaseReset := by
  unfold State.releaseReset
  split
  · exact .of_reset rfl
  · exact .of_heads rfl

theorem State.completeInit_noPulse (s : State) : NoPulse s s.completeInit := by
  unfold State.completeInit
  split
  · exact .of_reset rfl
  · exact .of_heads rfl

theorem State.regWrite_noPulse (s : State) (r : PortReg) (w : Word) : NoPulse s (s.regWrite r w) := by
  cases r with
  | ident => exact .of_heads rfl
  | control => exact s.controlWrite_noPulse w
  | attnCause | attnMask =>
    simp only [State.regWrite]
    split <;> exact .of_heads rfl

/-- No command but FIRE_DECISION and CYCLE_START drives a pulse. -/
theorem noPulse_of_exec {i : Instr} {s t : State} (h : exec i s = .next t) :
    NoPulse s t ∨ (i = .fireDecision ∧ t = s.fireDecision) ∨ ∃ o p, i = .cycleStart o p ∧ t = s.cycleStart o p := by
  have quiet : ∀ u : State, exec i s = .next u → NoPulse s u → NoPulse s t := by
    intro u hu hq
    rw [h] at hu
    injection hu with e
    exact e ▸ hq
  cases i with
  | fireDecision => exact .inr (.inl ⟨rfl, by injection h with e; exact e.symm⟩)
  | cycleStart o p => exact .inr (.inr ⟨o, p, rfl, by injection h with e; exact e.symm⟩)
  | fullReset => exact .inl (quiet s.fullReset rfl (.of_reset rfl))
  | resetRelease => exact .inl (quiet _ rfl s.releaseReset_noPulse)
  | initComplete => exact .inl (quiet _ rfl s.completeInit_noPulse)
  | softReset | run | stop | resume | clearHk => exact .inl (quiet _ rfl (s.controlWrite_noPulse _))
  | attnCauseWrite | attnMaskWrite | ignoredRegisterWrite => exact .inl (quiet _ rfl (s.regWrite_noPulse _ _))
  | misfire => exact .inl (quiet _ rfl s.misfire_noPulse)
  | confEdge k => exact .inl (quiet _ rfl (s.confEdge_noPulse k))
  | hostMemoryWrite | post | cancel | amend | withdrawal | badRequest | release | recordBadRequest =>
    exact .inl (quiet _ rfl (.of_heads (by simp)))
  | slotStart | endOfBlanking | crossing | holdOffEnd | amplitudeSample | windowEnd | permitLoss | permitActive =>
    exact .inl (quiet _ rfl (.of_heads (by simp)))
  | lineSettled | pyroFrame | gapTimerExpiry | ageIncrease | startEdge | midStartCheck =>
    exact .inl (quiet _ rfl (.of_heads (by simp)))
  | realStep | stall | syntheticStep | headEvent | tailEvent | presenceClear | presenceRecorded =>
    exact .inl (quiet _ rfl (.of_heads (by simp)))
  | closingSectionCompletion | closeCompletion | scanStart | scanStep | scanEnd => exact .inl (quiet _ rfl (.of_heads (by simp)))

/-! ### The fire decision -/

/-- What FIRE of a head rests on (R19): the slot's quiet gate, the settings of the tube's order, and conditions 1 to 4. -/
structure Fires (s : State) (h : HeadSlot) (n : Snapshot) : Prop where
  slot : s.slot = some h
  quiet : ∃ c, h.phase = .quiet c
  order : s.tubeOrder = some n
  masked : inMask n.recipe.headMask h.head = true
  gauge : s.gauge = .measuring
  firing : s.firing = .permitted
  on : s.heads[h.head].state = .on

/-- A fire decision issues FIRE of its slot's head under R19's conditions, or no FIRE. -/
theorem State.fireDecision_cases (s : State) :
    NoPulse s s.fireDecision ∨ ∃ h n, Fires s h n ∧ s.fireDecision = s.fire h.head n := by
  have dry : ∀ k, NoPulse s (s.drySlot k) := by
    intro k
    unfold State.drySlot
    dsimp only
    split <;> exact .of_heads rfl
  unfold State.fireDecision
  split
  · next h hs =>
    split
    · next c hp =>
      unfold State.takeDecision
      split
      · exact .inl (dry _)
      · next n hn =>
        split
        · next hm =>
          split
          · obtain ⟨ho, hk⟩ := Option.filter_eq_some_iff.1 hn
            obtain ⟨⟨hg, hf⟩, hon⟩ : (s.gauge = .measuring ∧ s.firing = .permitted) ∧ s.heads[h.head].state = .on := by
              simpa [State.mayFire, -Fin.getElem_fin] using hm
            exact .inr ⟨h, n, ⟨hs, ⟨c, hp⟩, ho, hk, hg, hf, hon⟩, rfl⟩
          · exact .inl (.of_heads (by simp [State.noisySlot]))
        · exact .inl (dry _)
    · exact .inl (.of_heads rfl)
  · exact .inl (.of_heads rfl)

theorem State.fire_heads (s : State) (k : Head) (n : Snapshot) :
    (s.fire k n).heads = vset s.heads k { s.heads[k] with fires := s.heads[k].fires + 1 } := rfl

/-- What holds after a FIRE of head `k` that a command issued. -/
structure Fired (s t : State) (k : Head) : Prop where
  pulse : t.heads[k].fires = s.heads[k].fires + 1
  before : s.gauge = .measuring
  after : t.gauge = .measuring
  firing : t.firing = .permitted
  on : t.heads[k].state = .on
  shot : ∃ sh n, t.inFlight = some (k, sh) ∧ t.tubeOrder = some n ∧ inMask n.recipe.headMask k = true
    ∧ inMask sh.bound.recipe.headMask k = true
    ∧ (GaugeOk s → OrdersOk s → GainOk s → sh.bound.recipe.gmin ≤ t.chans[k].gain ∧ t.chans[k].gain ≤ sh.bound.recipe.gmax)

theorem GainLaws_of {s : State} (hg : GaugeOk s) (ho : OrdersOk s) (h : GainOk s) : s.view.GainLaws :=
  ⟨(gaugeOk_iff s).1 hg, (ordersOk_iff s).1 ho, (gainOk_iff s).1 h⟩

/-- With no shot in flight every channel stands in the range of the tube's order (law 10). -/
theorem View.GainLaws.unshot {s : State} (h : s.view.GainLaws) (hf : s.inFlight = none) {n : Snapshot} (hn : s.tubeOrder = some n)
    (k : Head) : n.recipe.gmin ≤ s.chans[k].gain ∧ s.chans[k].gain ≤ n.recipe.gmax := by
  have := (h.2.2.inRange n k (s.view_tubeOrder.trans hn)).resolve_right (by rw [State.inFlight_none_iff.1 hf]; simp)
  rwa [State.view_gain] at this

theorem Fires.unshot {s : State} {h : HeadSlot} {n : Snapshot} (hf : Fires s h n) : s.inFlight = none := by
  obtain ⟨c, hc⟩ := hf.quiet
  exact State.inFlight_of_phase hf.slot (by rw [hc]; rfl)

theorem State.fire_inFlight {s : State} {h : HeadSlot} (hs : s.slot = some h) (n : Snapshot) :
    (s.fire h.head n).inFlight = some (h.head, s.newShot h.head n) := by
  have e : (s.fire h.head n).inFlight = (s.setPhase (.awaitConf (s.newShot h.head n))).inFlight := rfl
  rw [e, State.setPhase_inFlight, hs]
  rfl

theorem Fires.fired {s u : State} {h : HeadSlot} {n : Snapshot} (hf : Fires u h n) (hreach : Reaches s u)
    (hheads : u.heads = s.heads) (hg : s.gauge = .measuring) : Fired s (u.fire h.head n) h.head := by
  have hpulse : (u.fire h.head n).heads[h.head] = { u.heads[h.head] with fires := u.heads[h.head].fires + 1 } := by
    rw [State.fire_heads]; simp
  refine ⟨?_, hg, hf.gauge, hf.firing, ?_, _, n, State.fire_inFlight hf.slot n, hf.order, hf.masked, hf.masked, fun h1 h2 h3 => ?_⟩
  · rw [hpulse, hheads]
  · rw [hpulse]; exact hf.on
  · exact (hreach.keeps Move.gainLaws (GainLaws_of h1 h2 h3)).unshot hf.unshot hf.order h.head

/-! ### The decision at a cycle start -/

/-- A cut leaves MEASURING as it is, and does not enter it. -/
theorem State.cutSlot_measuring {s : State} {a : Byte} (h : (s.cutSlot a).gauge = .measuring) : s.gauge = .measuring := by
  have leave : ∀ u : State, u.leaveClosing.gauge ≠ .measuring := by
    intro u
    unfold State.leaveClosing
    dsimp only
    split
    · nofun
    · rw [State.setGauge_gauge]
      split <;> nofun
  have close : ∀ u : State, u.closeIfDrained.gauge = .measuring → u.gauge = .measuring := by
    intro u hu
    unfold State.closeIfDrained at hu
    split at hu
    · unfold State.closeTube at hu
      split at hu <;> exact absurd hu (leave _)
    · exact hu
  have shot : ∀ k sh es a1 cut, (s.closeShot k sh es a1 cut).gauge = .measuring → s.gauge = .measuring := by
    intro k sh es a1 cut hc
    have := close _ hc
    simpa using this
  unfold State.cutSlot at h
  split at h
  · exact h
  · split at h
    · exact shot _ _ _ _ _ h
    · exact shot _ _ _ _ _ h
    all_goals exact h

/-- The amendment that a shot fired at this instant goes before changes nothing of what its FIRE rested on. -/
theorem State.cycleAmend_fired {s u : State} {k : Head} {n : Snapshot} (h : Fired s (u.fire k n) k) :
    Fired s ((u.fire k n).cycleAmend true) k := by
  generalize u.fire k n = v at h
  unfold State.cycleAmend
  split
  · next j y hd =>
    obtain ⟨sh, m, hshot, horder, hmask, hbound, hgain⟩ := h.shot
    have hview := State.applyAtCycle_view v j y true
    have hv : v.view.shot = some (k, sh.bound, sh.clampDue) := by simp [State.view, hshot, shotView]
    have hg : (v.view.amended j y true).gauge = v.view.gauge := by
      obtain ⟨-, -, e⟩ | ⟨-, e⟩ := v.view.amended_cases j y true <;> rw [e]
    have hgk : (v.view.amended j y true).gains[k] = v.view.gains[k] := by
      obtain ⟨-, -, e⟩ | ⟨-, e⟩ := v.view.amended_cases j y true <;> rw [e]
      simp [hv]
    have hs : ∃ due, (v.view.amended j y true).shot = some (k, sh.bound, due) := by
      obtain ⟨-, -, e⟩ | ⟨-, e⟩ := v.view.amended_cases j y true <;> rw [e]
      · exact ⟨true, by simp [hv]⟩
      · exact ⟨_, hv⟩
    have ho : ∃ m', (v.view.amended j y true).tubeOrder = some m' ∧ m'.recipe.headMask = m.recipe.headMask := by
      obtain ⟨i, hi, hm⟩ := View.tubeOrder_eq_some.1 (v.view_tubeOrder.trans horder)
      have huse : (v.view.amended j y true).orderInUse = some i := by
        obtain ⟨-, -, e⟩ | ⟨-, e⟩ := v.view.amended_cases j y true <;> rw [e] <;> exact hi
      have hslots : (v.view.amended j y true).orders.slots = vset v.view.orders.slots j (amendedSlot v.view.orders.slots[j] y) := by
        obtain ⟨-, -, e⟩ | ⟨-, e⟩ := v.view.amended_cases j y true <;> rw [e] <;> rfl
      by_cases e : j = i
      · subst e
        refine ⟨amendSnapshot m y, View.tubeOrder_eq_some.2 ⟨j, huse, ?_⟩, rfl⟩
        rw [hslots, vset_getFin, if_pos rfl, amendedSlot, hm]
        rfl
      · refine ⟨m, View.tubeOrder_eq_some.2 ⟨i, huse, ?_⟩, rfl⟩
        rw [hslots, vset_getFin, if_neg e]
        exact hm
    rw [← hview] at hg hgk hs ho
    obtain ⟨due, hs⟩ := hs
    obtain ⟨sh', hin, hb, -⟩ := (State.view_shot_iff _ _ _ _).1 hs
    obtain ⟨m', hm', hmask'⟩ := ho
    rw [State.view_tubeOrder] at hm'
    rw [State.view_gain, State.view_gain] at hgk
    have hheads : (v.applyAtCycle j y true).heads = v.heads := by simp
    have hfiring : (v.applyAtCycle j y true).firing = v.firing := by simp
    refine ⟨by rw [hheads]; exact h.pulse, h.before, hg.trans h.after, hfiring.trans h.firing, by rw [hheads]; exact h.on, sh', m', hin,
      hm', by rw [hmask']; exact hmask, by rw [hb]; exact hbound, fun h1 h2 h3 => ?_⟩
    rw [hb, hgk]
    exact hgain h1 h2 h3
  · exact h

theorem State.cycleAmend_heads (s : State) (fired : Bool) : (s.cycleAmend fired).heads = s.heads := by simp

/-- A decision at a cycle start issues FIRE of head 0, or no FIRE. -/
theorem State.decidedCycle_cases {s u : State} {k : Head} (hu : Reaches s u) (hheads : u.heads = s.heads)
    (hr : runs u.gauge = true) (hf : u.inFlight = none) (hm : u.gauge = .measuring → s.gauge = .measuring)
    (h : s.heads[k].fires < u.decidedCycle.heads[k].fires) : Fired s u.decidedCycle k := by
  by_cases hq : u.cfg.quietGate = 0
  · have e : u.decidedCycle
        = u.restartFiring.openCycle.fireDecision.cycleAmend u.restartFiring.openCycle.fireDecision.awaiting := by
      unfold State.decidedCycle
      rw [if_pos hq]
    rw [e] at h ⊢
    have hopen : Reaches s u.restartFiring.openCycle :=
      (hu.trans u.restartFiring_sameView.reaches).trans
        (State.openCycle_reaches (by simpa using hr) (by rw [State.inFlight_congr (s := u) (by simp), hf]))
    have hsame : u.restartFiring.openCycle.heads = s.heads := by simpa using hheads
    have hg : u.restartFiring.openCycle.gauge = u.gauge := by simp
    rw [State.cycleAmend_heads] at h
    obtain hno | ⟨x, n, hfires, e⟩ := u.restartFiring.openCycle.fireDecision_cases
    · have := hno k
      rw [hsame] at this
      exact absurd h (Nat.not_lt.2 this)
    · have hfired := hfires.fired hopen hsame (hm (hg.symm.trans hfires.gauge))
      have haw : (u.restartFiring.openCycle.fire x.head n).awaiting = true := by
        have : (u.restartFiring.openCycle.fire x.head n).slot
            = some { x with phase := .awaitConf (u.restartFiring.openCycle.newShot x.head n) } := by
          have : (u.restartFiring.openCycle.fire x.head n).slot = u.restartFiring.openCycle.slot.map fun h =>
            { h with phase := .awaitConf (u.restartFiring.openCycle.newShot x.head n) } := rfl
          rw [this, hfires.slot]
          rfl
        simp [State.awaiting, this]
      rw [e] at h ⊢
      have hk : x.head = k := by
        by_contra hne
        rw [State.fire_heads, vset_getFin, if_neg hne, hsame] at h
        exact absurd h (Nat.lt_irrefl _)
      subst hk
      rw [haw]
      exact State.cycleAmend_fired hfired
  · have : u.decidedCycle.heads = s.heads := by
      unfold State.decidedCycle
      rw [if_neg hq]
      simpa using hheads
    rw [this] at h
    exact absurd h (Nat.lt_irrefl _)

/-- Settles O58: the fire decision, or the cycle start that takes it, is the one command that adds a pulse. -/
theorem fireOnlyUnderItsConditions : Obligations.FireOnlyUnderItsConditions := by
  intro s t i k hexec hlt
  have settle : (i = .fireDecision ∨ ∃ o p, i = .cycleStart o p) ∧ Fired s t k := by
    obtain hno | ⟨rfl, rfl⟩ | ⟨o, p, rfl, rfl⟩ := noPulse_of_exec hexec
    · exact absurd hlt (Nat.not_lt.2 (hno k))
    · refine ⟨.inl rfl, ?_⟩
      obtain hno | ⟨h, n, hf, e⟩ := s.fireDecision_cases
      · exact absurd hlt (Nat.not_lt.2 (hno k))
      · rw [e] at hlt ⊢
        have hk : h.head = k := by
          by_contra hne
          rw [State.fire_heads, vset_getFin, if_neg hne] at hlt
          exact absurd hlt (Nat.lt_irrefl _)
        subst hk
        exact hf.fired (.refl s) rfl hf.gauge
    · refine ⟨.inr ⟨o, p, rfl⟩, ?_⟩
      have cut : ∀ (u : State) (f : State → State), u.heads = s.heads → (∀ v : State, (f v).heads = v.heads) →
          ((u.cutSlot p).ifRunning f).heads = s.heads := by
        intro u f hu hf
        unfold State.ifRunning
        split
        · rw [hf]; simpa using hu
        · simpa using hu
      have idle : ∀ u : State, u.heads = s.heads → ¬ s.heads[k].fires < u.heads[k].fires := by
        intro u hu
        rw [hu]
        exact Nat.lt_irrefl _
      unfold State.cycleStart at hlt ⊢
      split at hlt
      · next hr =>
        rw [if_pos hr]
        have hw : s.awaiting = false := by simp at hr; exact hr.2
        cases o with
        | cutFirst => exact absurd hlt (idle _ (cut s _ rfl (by simp)))
        | amendFirst => exact absurd hlt (idle _ (cut _ _ (by simp) (by simp)))
        | decisionFirst =>
          simp only [State.beginCycle, State.ifRunning] at hlt ⊢
          split at hlt
          · next hruns =>
            rw [if_pos hruns]
            exact State.decidedCycle_cases (s.cutSlot_reaches p) (by simp) hruns (State.cutSlot_inFlight hw p)
              State.cutSlot_measuring hlt
          · exact absurd hlt (idle _ (by simp))
      · exact absurd hlt (Nat.lt_irrefl _)
  obtain ⟨hi, h⟩ := settle
  exact ⟨h.pulse, hi, h.before, h.after, h.firing, h.on, h.shot⟩

end Sys2Proof.Machine
end

section
/-! PROOFS. The resets, the commands through CONTROL, the attention registers and the isolation of the port (chapter 1, R28, R33, 10.3,
10.4). -/

namespace Sys2Proof.Machine

open Safety

/-! ### Resets (R3, R4, R7) -/

/-- INIT begins with every block in its reset state and the gauge-state word written (R3, R4). -/
theorem State.beginInit_eq (s : State) (soft : Bool) :
    s.beginInit soft = { State.reset with
        clearing := { soft := soft, next := 0 }, mem := (s.beginInit soft).mem, pins := s.pins, now := s.now, inputs := s.inputs,
        pending := s.pending }
      ∧ Wrote s (s.beginInit soft) [(stGauge, 0#16)] :=
  ⟨rfl, (wrote_put s stGauge 0#16 (by decide)).of_mem rfl rfl⟩

/-- Settles O4. -/
theorem resetPinAbandonsAndBeginsFullInit : Obligations.ResetPinAbandonsAndBeginsFullInit := by
  constructor
  · intro s
    refine ⟨s.fullReset, rfl, rfl, fun a => ?_, fun r => ?_, ?_, fun k => ?_⟩
    · simp [State.fullReset, State.readMem]
    · simp [State.fullReset, State.readReg]
    · simp [State.fullReset, State.attnLine]
    · simp [State.fullReset, State.resetBlocks, State.gainLines, State.reset, Channel.reset]
  · intro s hr
    have h : exec .resetRelease s = .next (s.beginInit false) := by
      show Host.Outcome.next s.releaseReset = _
      rw [State.releaseReset, if_pos hr]
    exact ⟨_, h, s.beginInit_eq false⟩

/-- A CONTROL write with the SOFT_RESET bit begins INIT, whatever its other bits are (R7). -/
theorem State.controlWrite_softReset (s : State) (w : Word) (hr : s.resetActive = false) (hw : hasFlag w ctlSoftReset = true) :
    s.controlWrite w = s.beginInit true := by
  rw [State.controlWrite, if_neg (by simp [hr]), if_pos hw]

theorem hasFlag_or_self (w f : Word) (h : f ≠ 0#16) : hasFlag (w ||| f) f = true := by
  have e : (w ||| f) &&& f = f := by ext i hi; simp; grind
  simpa [hasFlag, e] using h

/-- Settles O5. -/
theorem softResetBeginsSoftInit : Obligations.SoftResetBeginsSoftInit := by
  intro w s hr
  have h : exec (.softReset w) s = .next (s.beginInit true) := by
    show Host.Outcome.next (s.controlWrite (w ||| ctlSoftReset)) = _
    rw [s.controlWrite_softReset _ hr (hasFlag_or_self w ctlSoftReset (by decide))]
  exact ⟨_, h, s.beginInit_eq true⟩

/-! ### CONTROL writes (R7, R28, R33) -/

/-- A CONTROL write without the SOFT_RESET bit, the port being open (R7). -/
theorem State.controlWrite_open (s : State) (w : Word) (h : PortOpen s) (hw : hasFlag w ctlSoftReset = false) :
    s.controlWrite w = (if hasFlag w ctlResume then (s.runStop w).resumeCmd else s.runStop w).clearHeads w := by
  simp [State.controlWrite, h.1, h.2, hw]

theorem State.runStop_of_noBits (s : State) (w : Word) (h1 : hasFlag w ctlRun = false) (h2 : hasFlag w ctlStop = false) :
    s.runStop w = s := by
  simp [State.runStop, h1, h2]

theorem exec_resume_zero (s : State) (h : PortOpen s) : exec (.resume 0#16) s = .next s.resumeCmd := by
  show Host.Outcome.next (s.controlWrite ctlResume) = _
  rw [s.controlWrite_open _ h (by decide), s.runStop_of_noBits _ (by decide) (by decide), if_pos (by decide),
    State.clearHeads_of_noBits _ _ (by decide)]

theorem exec_stop_zero (s : State) (h : PortOpen s) : exec (.stop 0#16) s = .next s.stopCmd := by
  show Host.Outcome.next (s.controlWrite ctlStop) = _
  rw [s.controlWrite_open _ h (by decide), if_neg (by decide), State.clearHeads_of_noBits _ _ (by decide)]
  rfl

/-- A CONTROL write of the CLEAR bit of one head alone clears that head (R28). -/
theorem State.clearHeads_one (s : State) (k : Head) : s.clearHeads (ctlClear k) = s.clearHead k := by
  have hbit : ∀ i k : Head, hasFlag (ctlClear k) (ctlClear i) = decide (i = k) := by decide
  fin_cases k <;> simp [State.clearHeads, forHeads, hbit]

theorem exec_clearHk_zero (s : State) (k : Head) (h : PortOpen s) : exec (.clearHk k 0#16) s = .next (s.clearHead k) := by
  have hbits : ∀ k : Head, hasFlag (ctlClear k) ctlSoftReset = false ∧ hasFlag (ctlClear k) ctlRun = false
      ∧ hasFlag (ctlClear k) ctlStop = false ∧ hasFlag (ctlClear k) ctlResume = false := by decide
  obtain ⟨hsoft, hrun, hstop, hresume⟩ := hbits k
  show Host.Outcome.next (s.controlWrite (0#16 ||| ctlClear k)) = _
  rw [BitVec.zero_or, s.controlWrite_open _ h hsoft, s.runStop_of_noBits _ hrun hstop, if_neg (by simp [hresume]), s.clearHeads_one]

/-- What CLEAR_Hk does with a head in FAULT (R28). -/
theorem State.clearHead_fault (s : State) (k : Head) (hf : s.heads[k].state = .fault) :
    (s.setHeadState k .on).setMisfires k 0 = { s with
        mem := ((s.setHeadState k .on).setMisfires k 0).mem, heads := s.heads.set k { s.heads[k] with state := .on, misfires := 0 } }
      ∧ Wrote s ((s.setHeadState k .on).setMisfires k 0)
        ((stHeadState + k.val, 0#16) :: ifChanged (s.heads[k].misfires ≠ 0) (stMisfires + k.val) 0#16) := by
  have hhead : (s.setHeadState k .on).heads[k] = { s.heads[k] with state := .on } := by
    rw [State.setHeadState_heads, vset_getFin, if_pos rfl]
  have hheads : ((s.setHeadState k .on).setMisfires k 0).heads = s.heads.set k { s.heads[k] with state := .on, misfires := 0 } := by
    rw [State.setMisfires_heads, hhead, State.setHeadState_heads, vset_vset]
    rfl
  refine ⟨State.eq_withMem _ { s with heads := s.heads.set k { s.heads[k] with state := .on, misfires := 0 } } ?_, ?_⟩
  · rw [← hheads]
    rfl
  · have h1 := State.setHeadState_wrote s k .on
    have h2 := State.setMisfires_wrote (s.setHeadState k .on) k 0
    rw [hhead] at h2
    refine (h1.trans h2).congr fun a _ => ?_
    rw [lookup_append, lookup_ifChanged, lookup_ifChanged, hf, List.lookup_cons, lookup_ifChanged]
    by_cases ha : a = stHeadState + k.val
    · simp [ha, headCode, show stHeadState ≠ stMisfires by decide]
    · simp [ha, toWord, (beq_eq_false_iff_ne).2 ha]

/-- Settles O11. -/
theorem resumeAndClearHead : Obligations.ResumeAndClearHead := by
  constructor
  · intro s h
    rw [exec_resume_zero s h]
    have hruns : runs s.gauge = true ↔ s.gauge ≠ .halted := by
      have := h.2
      cases hg : s.gauge <;> simp_all [runs]
    simp [State.resumeCmd, hruns, and_assoc]
  · intro s k h
    rw [exec_clearHk_zero s k h]
    refine ⟨fun hf => ⟨_, rfl, ?_⟩, fun hon => by rw [State.clearHead, if_neg (by rw [hon]; decide)]⟩
    rw [State.clearHead, if_pos hf]
    exact s.clearHead_fault k hf

/-! ### The attention registers and the reads (R156, R159, R160) -/

theorem ne_zero_iff_getLsbD {w : Nat} (x : BitVec w) : x ≠ 0#w ↔ ∃ i, i < w ∧ x.getLsbD i = true := by
  constructor
  · intro h
    by_contra hn
    push Not at hn
    exact h (BitVec.eq_of_getLsbD_eq fun i hi => by simpa using hn i hi)
  · rintro ⟨i, -, hi⟩ rfl
    simp at hi

/-- Settles O12. -/
theorem attentionRegistersAndLine : Obligations.AttentionRegistersAndLine := by
  intro s w ⟨hr, hg⟩
  have hopen : s.isolated = false := by simp [State.isolated, hr, hg]
  refine ⟨?_, ?_, ?_, ?_, ?_, ?_, ?_, fun a => ?_, fun k hk => ?_⟩
  · show Host.Outcome.next (s.regWrite .attnCause w) = _
    simp [State.regWrite, hopen]
  · show Host.Outcome.next (s.regWrite .attnMask w) = _
    simp [State.regWrite, hopen]
  · have hline : s.attnLine = true ↔ s.attnCause &&& s.attnMask ≠ 0#8 := by simp [State.attnLine, hr, hg]
    rw [hline, ne_zero_iff_getLsbD]
    simp
  · simp [State.readReg, hr, Config.ident]
  · simp [State.readReg, hr, hg]
  · simp [State.readReg, hr, hg]; omega
  · simp [State.readReg, hr, hg]; omega
  · simp [State.readMem, hr, hg]
  · rw [State.gainLines, BitVec.toNat_ofNat]
    omega

/-! ### Isolation (R3, R5) -/

/-- Under RESET, and in INIT without the SOFT_RESET bit, a CONTROL write has no effect (R3, R5). -/
theorem State.controlWrite_isolated (s : State) (w : Word) (h : s.resetActive = true ∨ (s.gauge = .init ∧ hasFlag w ctlSoftReset = false)) :
    s.controlWrite w = s := by
  unfold State.controlWrite
  split
  · rfl
  · obtain ⟨hg, hw⟩ : s.gauge = .init ∧ hasFlag w ctlSoftReset = false := h.resolve_left ‹_›
    simp [hg, hw]

theorem State.slotWrite_isolated (s : State) (j : SlotNo) (v : Word) (h : s.isolated = true) : s.slotWrite j v = s := by
  simp [State.slotWrite, h]

theorem State.recWrite_isolated (s : State) (r : RecNo) (v : Word) (h : s.isolated = true) : s.recWrite r v = s := by
  simp [State.recWrite, h]

theorem State.hostWrite_isolated (s : State) (a v : Word) (h : s.isolated = true) : s.hostWrite a v = s := by
  unfold State.hostWrite
  split
  · exact s.slotWrite_isolated _ _ h
  · exact s.recWrite_isolated _ _ h
  · simp [h]

/-- While the port is isolated a register write has no effect, unless it is a CONTROL write that the part takes (R3, R5). -/
theorem State.regWrite_isolated (s : State) (r : PortReg) (w : Word) (h : s.isolated = true) (hc : r = .control → s.controlWrite w = s) :
    s.regWrite r w = s := by
  cases r with
  | ident => rfl
  | control => exact hc rfl
  | attnCause => simp [State.regWrite, h]
  | attnMask => simp [State.regWrite, h]

theorem hasFlag_or (v b f : Word) : hasFlag (v ||| b) f = (hasFlag v f || hasFlag b f) := by
  have e : (v ||| b) &&& f = v &&& f ||| b &&& f := by ext i hi; simp; grind
  have hz : ∀ x y : Word, (x ||| y = 0#16) ↔ x = 0#16 ∧ y = 0#16 := fun x y => BitVec.or_eq_zero_iff
  rw [Bool.eq_iff_iff]
  simp only [hasFlag, e, bne_iff_ne, ne_eq, hz, Bool.or_eq_true]
  exact not_and_or

/-- A command that leaves the state alone. -/
theorem exec_same {i : Instr} {s t : State} (h : exec i s = .next t) (e : t = s) : exec i s = .next s := by rw [h, e]

/-- Under RESET the part takes no CONTROL write (R3). -/
theorem control_underReset (s : State) (h : s.resetActive = true) (w : Word) (k : Head) :
    exec (.softReset w) s = .next s ∧ exec (.run w) s = .next s ∧ exec (.stop w) s = .next s ∧ exec (.resume w) s = .next s
      ∧ exec (.clearHk k w) s = .next s := by
  have hctl : ∀ w, s.controlWrite w = s := fun w => s.controlWrite_isolated w (.inl h)
  exact ⟨exec_same rfl (hctl _), exec_same rfl (hctl _), exec_same rfl (hctl _), exec_same rfl (hctl _), exec_same rfl (hctl _)⟩

/-- In INIT it takes none without the SOFT_RESET bit (R5). -/
theorem control_isolated (s : State) (h : s.resetActive = true ∨ s.gauge = .init) (w : Word) (k : Head)
    (hw : hasFlag w ctlSoftReset = false) :
    exec (.run w) s = .next s ∧ exec (.stop w) s = .next s ∧ exec (.resume w) s = .next s ∧ exec (.clearHk k w) s = .next s := by
  have hctl : ∀ b, hasFlag b ctlSoftReset = false → s.controlWrite (w ||| b) = s := by
    intro b hb
    exact s.controlWrite_isolated _ (h.imp_right fun hg => ⟨hg, by rw [hasFlag_or, hw, hb]; rfl⟩)
  have hclear : ∀ k, hasFlag (ctlClear k) ctlSoftReset = false := by decide
  exact ⟨exec_same rfl (hctl _ (by decide)), exec_same rfl (hctl _ (by decide)), exec_same rfl (hctl _ (by decide)),
    exec_same rfl (hctl _ (hclear k))⟩

/-- No request is taken while the port is isolated (R3, R5). -/
theorem requests_isolated (s : State) (h : s.isolated = true) (j : SlotNo) (v : Word) :
    exec (.post j) s = .next s ∧ exec (.cancel j) s = .next s ∧ exec (.amend j) s = .next s ∧ exec (.withdrawal j) s = .next s
      ∧ exec (.badRequest j v) s = .next s :=
  have hs : ∀ v, s.slotWrite j v = s := fun v => s.slotWrite_isolated j v h
  ⟨exec_same rfl (hs _), exec_same rfl (hs _), exec_same rfl (hs _), exec_same rfl (hs _), exec_same rfl (hs _)⟩

/-- The reads while the port is isolated (R3, R5). -/
theorem reads_isolated (s : State) (h : s.resetActive = true ∨ s.gauge = .init) :
    (∀ a, s.readMem a = 0#16) ∧ s.attnLine = false
      ∧ (s.resetActive = false → s.readReg .control = 0x8000#16 ∧ s.readReg .ident = 0x0641#16
          ∧ s.readReg .attnCause = 0#16 ∧ s.readReg .attnMask = 0#16) := by
  refine ⟨fun a => by simp [State.readMem, h.symm], ?_, fun hr => ?_⟩
  · rcases h with h | h <;> simp [State.attnLine, h]
  · have hg : s.gauge = .init := by simpa [hr] using h
    simp [State.readReg, hr, hg, Config.ident]

/-- Settles O13. -/
theorem portIsolatesDuringInit : Obligations.PortIsolatesDuringInit := by
  unfold Obligations.PortIsolatesDuringInit
  intro s
  refine ⟨fun w => rfl, fun hr => ⟨fun r => by simp [State.readReg, hr], fun w => ?_⟩, fun hiso => ?_⟩
  · have hi : s.isolated = true := by simp [State.isolated, hr]
    exact ⟨(control_underReset s hr w 0).1, fun k => (control_underReset s hr w k).2,
      fun r => exec_same rfl (s.regWrite_isolated r w hi fun _ => s.controlWrite_isolated w (.inl hr))⟩
  · have hi : s.isolated = true := by simpa [State.isolated] using hiso
    obtain ⟨hmem, hline, hreg⟩ := reads_isolated s hiso
    exact ⟨hmem, hline, hreg, fun a v => exec_same rfl (s.hostWrite_isolated a v hi), fun j v => requests_isolated s hi j v,
      fun r v => ⟨exec_same rfl (s.recWrite_isolated _ _ hi), exec_same rfl (s.recWrite_isolated _ _ hi)⟩,
      fun r w hc => exec_same rfl (s.regWrite_isolated r w hi fun e =>
        s.controlWrite_isolated w (hiso.imp_right fun hg => ⟨hg, hc e⟩)),
      fun w => ⟨exec_same rfl (s.regWrite_isolated _ w hi nofun), exec_same rfl (s.regWrite_isolated _ w hi nofun)⟩,
      fun w k hw => control_isolated s hiso w k hw⟩

/-! ### The order of the bits of one CONTROL write (R7) -/

/-- No move of the part leads into INIT. -/
theorem Move.gauge_ne_init (v w : View) (m : Move v w) (h : v.gauge ≠ .init) : w.gauge ≠ .init := by
  have hserved : ∀ u : View, u.served.gauge = u.gauge := fun u => by unfold View.served; split <;> rfl
  have hamended : ∀ j y f, (v.amended j y f).gauge = v.gauge := fun j y f => by unfold View.amended; dsimp only; split <;> rfl
  cases m with
  | allocates w ha => cases ha; exact h
  | amends j y f => rwa [hamended]
  | releases | serves | endsScan => rwa [hserved]
  | closes g _ hto | starts g hto => rcases hto with rfl | rfl <;> simp
  | endsMeasuring | clears | halts => simp
  | _ => exact h

theorem State.runStop_open (s : State) (w : Word) (h : PortOpen s) : PortOpen (s.runStop w) := by
  refine ⟨?_, (s.runStop_reaches w).keeps (P := fun v => v.gauge ≠ .init) Move.gauge_ne_init h.2⟩
  have hr : (s.runStop w).resetActive = s.resetActive := by
    unfold State.runStop State.answerCmd
    repeat' split
    all_goals simp
  exact hr.trans h.1

theorem portOpen_of_eq {s t : State} (h : PortOpen s) (hr : t.resetActive = s.resetActive) (hg : t.gauge = s.gauge) : PortOpen t :=
  ⟨hr.trans h.1, by rw [hg]; exact h.2⟩

/-- The state with the CLEAR bit of head `k` of a CONTROL write taken (R28). -/
def State.clearIf (s : State) (w : Word) (k : Head) : State := if hasFlag w (ctlClear k) then s.clearHead k else s

theorem State.clearIf_open {s : State} (h : PortOpen s) (w : Word) (k : Head) : PortOpen (s.clearIf w k) := by
  unfold State.clearIf
  split
  · exact portOpen_of_eq h (by simp) (by simp)
  · exact h

theorem ifBit_clear (s : State) (w : Word) (k : Head) (h : PortOpen s) :
    ifBit (hasFlag w (ctlClear k)) (.clearHk k 0#16) s = .next (s.clearIf w k) := by
  unfold ifBit State.clearIf
  split
  · exact exec_clearHk_zero s k h
  · rfl

theorem ifBit_resume (s : State) (w : Word) (h : PortOpen s) :
    ifBit (hasFlag w ctlResume) (.resume 0#16) s = .next (if hasFlag w ctlResume then s.resumeCmd else s) := by
  unfold ifBit
  split
  · exact exec_resume_zero s h
  · rfl

/-- RUN and STOP of a CONTROL write as commands of their own (R7). -/
theorem runStop_commands (s : State) (w : Word) (h : PortOpen s) :
    (if hasFlag w ctlRun && hasFlag w ctlStop then .next (s.answerCmd ansCmdConflict)
      else if hasFlag w ctlStop then exec (.stop 0#16) s
      else ifBit (hasFlag w ctlRun) (.run 0#16) s) = (.next (s.runStop w) : Result) := by
  rw [exec_stop_zero s h, ifBit, exec_run_zero s h.1 h.2, State.runStop]
  repeat' split
  all_goals rfl

/-- Settles O7: each row is the CONTROL write of its word, and each bit after RUN and STOP is the command of that bit alone. -/
theorem controlWriteTakesItsBitsInOrder : Obligations.ControlWriteTakesItsBitsInOrder := by
  intro v w i s h hi
  have hwrite : exec i s = .next (s.controlWrite w) := by
    rcases hi with ⟨rfl, rfl⟩ | ⟨rfl, rfl⟩ | ⟨rfl, rfl⟩ | ⟨rfl, rfl⟩ | ⟨k, rfl, rfl⟩
    case inr.inr.inr.inr =>
      have hbit : ∀ k : Head, BitVec.ofNat 16 (2 ^ (4 + k.val)) = ctlClear k := by decide
      rw [hbit]
      rfl
    all_goals rfl
  rw [hwrite]
  by_cases hsoft : hasFlag w ctlSoftReset = true
  · have hreset : exec (.softReset 0#16) s = .next (s.beginInit true) := by
      show Host.Outcome.next (s.controlWrite (0#16 ||| ctlSoftReset)) = _
      rw [s.controlWrite_softReset _ h.1 (by decide)]
    rw [if_pos hsoft, s.controlWrite_softReset w h.1 hsoft, hreset]
  · have hopen : PortOpen (if hasFlag w ctlResume then (s.runStop w).resumeCmd else s.runStop w) := by
      have h1 := s.runStop_open w h
      split
      · exact portOpen_of_eq h1 (by simp) (by simp)
      · exact h1
    rw [if_neg hsoft, runStop_commands s w h, s.controlWrite_open w h (by simpa using hsoft)]
    simp only [andThen]
    rw [ifBit_resume _ w (s.runStop_open w h)]
    generalize (if hasFlag w ctlResume then (s.runStop w).resumeCmd else s.runStop w) = u at hopen
    have hopen0 := State.clearIf_open hopen w 0
    have hopen1 := State.clearIf_open hopen0 w 1
    have hopen2 := State.clearIf_open hopen1 w 2
    simp only [ifBit_clear _ w 0 hopen, ifBit_clear _ w 1 hopen0, ifBit_clear _ w 2 hopen1, ifBit_clear _ w 3 hopen2]
    rfl

end Sys2Proof.Machine
end

section
/-! PROOFS. Host writes to memory (10.2), the requests to order slots but POST (9.5, 9.6), the requests to tube records and the release
scan (10.6). -/

namespace Sys2Proof.Machine

open Safety

/-! ### Host writes (R156, R157) -/

theorem PortOpen.notIsolated {s : State} (h : PortOpen s) : s.isolated = false := by simp [State.isolated, h.1, h.2]

/-- With the port open a write to a slot's request word is taken with the word written (R157). -/
theorem State.slotWrite_open {s : State} (h : PortOpen s) (j : SlotNo) (v : Word) :
    s.slotWrite j v = (s.put (slotAddr j 1) v).slotRequest j v := by
  rw [State.slotWrite, PortOpen.notIsolated h, if_neg Bool.false_ne_true]

theorem State.recWrite_open {s : State} (h : PortOpen s) (r : RecNo) (v : Word) :
    s.recWrite r v = (s.put (recAddr r 1) v).recRequest r v := by
  rw [State.recWrite, PortOpen.notIsolated h, if_neg Bool.false_ne_true]

/-- A host write that is no request is the write of that word (R156, R164). -/
theorem State.hostWrite_plain {s : State} (h : PortOpen s) (a v : Word) (hp : plainWrite a v = true) :
    s.hostWrite a v = s.put a.toNat v := by
  obtain ⟨hslot, hrec⟩ : slotOfRequest a.toNat = none ∧ (recordOfRequest a.toNat = none ∨ v = reqNone) := by
    simpa [plainWrite] using hp
  unfold State.hostWrite
  rw [hslot]
  cases hr : recordOfRequest a.toNat with
  | none => simp [PortOpen.notIsolated h]
  | some r =>
    obtain rfl : v = reqNone := hrec.resolve_left (by simp [hr])
    rw [recordOfRequest_eq_some _ _ hr]
    exact (State.recWrite_open h r reqNone).trans (if_pos rfl)

/-- A host write to a slot's request word is the request that carries the value (R157). -/
theorem State.hostWrite_slot (s : State) (j : SlotNo) (v : Word) : s.hostWrite (BitVec.ofNat 16 (slotAddr j 1)) v = s.slotWrite j v := by
  have ha : (BitVec.ofNat 16 (slotAddr j 1)).toNat = slotAddr j 1 := toWord_toNat _ (slotAddr_lt j 1 (by decide))
  rw [State.hostWrite, ha, slotOfRequest_slotAddr]

theorem State.hostWrite_record (s : State) (r : RecNo) (v : Word) : s.hostWrite (BitVec.ofNat 16 (recAddr r 1)) v = s.recWrite r v := by
  have ha : (BitVec.ofNat 16 (recAddr r 1)).toNat = recAddr r 1 := toWord_toNat _ (recAddr_lt r 1 (by decide))
  rw [State.hostWrite, ha, slotOfRequest_recAddr, recordOfRequest_recAddr]

/-- Settles O14. -/
theorem hostMemoryWritesAndRequestEvents : Obligations.HostMemoryWritesAndRequestEvents := by
  constructor
  · intro s a v h hp
    have hexec : exec (.hostMemoryWrite a v) s = .next (s.put a.toNat v) := by
      show Host.Outcome.next (s.hostWrite a v) = _
      rw [State.hostWrite_plain h a v hp]
    exact ⟨_, hexec, rfl, wrote_put s a.toNat v a.isLt⟩
  · intro s v
    constructor
    · intro j
      have hwrite : exec (.hostMemoryWrite (BitVec.ofNat 16 (0x0200 + 512 * j.val + 1)) v) s = .next (s.slotWrite j v) :=
        congrArg Host.Outcome.next (s.hostWrite_slot j v)
      rw [hwrite]
      split
      · subst v; rfl
      split
      · subst v; rfl
      split
      · subst v; rfl
      split
      · subst v; rfl
      · rfl
    · intro r _
      have hwrite : exec (.hostMemoryWrite (BitVec.ofNat 16 (0x0A00 + 128 * r.val + 1)) v) s = .next (s.recWrite r v) :=
        congrArg Host.Outcome.next (s.hostWrite_record r v)
      rw [hwrite]
      split
      · subst v; rfl
      · rfl

/-! ### Answers to slot requests (R140) -/

/-- A request that is only answered: what the part does behind the host's write of the request word (R140). -/
theorem answered_slot (s : State) (j : SlotNo) (v a : Word) :
    let t := (s.put (slotAddr j 1) v).answerSlot j a
    t = { s with mem := t.mem, attnCause := s.attnCause ||| causeRequest }
      ∧ Wrote s t [(slotAddr j 1, writeBack s.slots[j]), (slotAddr j 2, a)] :=
  ⟨rfl, wrote_of_put (slotAddr_lt j 1 (by decide)) (State.answerSlot_effect (s.put (slotAddr j 1) v) j a).2 List.mem_cons_self⟩

/-- A slot changed and its request answered (R140). -/
theorem wrote_setSlot_answer (s : State) (j : SlotNo) (x : OrderSlot) (a : Word) :
    Wrote s ((s.setSlot j x).answerSlot j a) [(slotAddr j 1, writeBack x), (slotAddr j 2, a)] := by
  have hslot : (s.setSlot j x).slots[j] = x := by rw [State.setSlot_slots, vset_getFin, if_pos rfl]
  have h := ((s.setSlot j x).answerSlot_effect j a).2
  rw [hslot] at h
  exact h.of_mem rfl rfl

theorem State.takePost_badState (s : State) (j : SlotNo) (h : s.slots[j].state = .ready ∨ s.slots[j].state = .active) :
    s.takePost j = s.answerSlot j ansBadState := by
  unfold State.takePost
  rcases h with h | h <;> simp only [h]

theorem State.takeCancel_badState (s : State) (j : SlotNo)
    (h : s.slots[j].state = .free ∨ s.slots[j].state = .spent ∨ s.slots[j].state = .refused) :
    s.takeCancel j = s.answerSlot j ansBadState := by
  unfold State.takeCancel
  rcases h with h | h | h <;> simp only [h]

theorem State.takeAmend_badState (s : State) (j : SlotNo)
    (h : (s.slots[j].state = .free ∨ s.slots[j].state = .spent ∨ s.slots[j].state = .refused)
      ∨ (s.slots[j].state = .active ∧ s.slots[j].cancelPending = true)) :
    s.takeAmend j = s.answerSlot j ansBadState := by
  unfold State.takeAmend
  rcases h with (h | h | h) | ⟨h, hc⟩
  case inr => simp only [h, hc, if_true]
  all_goals simp only [h]

theorem exec_cancel {s : State} (j : SlotNo) (h : PortOpen s) :
    exec (.cancel j) s = .next ((s.put (slotAddr j 1) reqCancel).takeCancel j) :=
  congrArg Host.Outcome.next (State.slotWrite_open h j reqCancel)

theorem exec_amend {s : State} (j : SlotNo) (h : PortOpen s) :
    exec (.amend j) s = .next ((s.put (slotAddr j 1) reqAmend).takeAmend j) :=
  congrArg Host.Outcome.next (State.slotWrite_open h j reqAmend)

theorem exec_withdrawal {s : State} (j : SlotNo) (h : PortOpen s) :
    exec (.withdrawal j) s = .next ((s.put (slotAddr j 1) reqNone).takeNone j) :=
  congrArg Host.Outcome.next (State.slotWrite_open h j reqNone)

theorem exec_badRequest {s : State} (j : SlotNo) (v : Word) (h : PortOpen s) (hv : noSlotRequest v = true) :
    exec (.badRequest j v) s = .next ((s.put (slotAddr j 1) v).answerSlot j ansBadRequest) := by
  obtain ⟨⟨⟨hnone, hpost⟩, hcancel⟩, hamend⟩ : ((v ≠ reqNone ∧ v ≠ reqPost) ∧ v ≠ reqCancel) ∧ v ≠ reqAmend := by
    simpa [noSlotRequest] using hv
  show Host.Outcome.next (s.slotWrite j v) = _
  rw [State.slotWrite_open h, State.slotRequest, if_neg hpost, if_neg hcancel, if_neg hamend, if_neg hnone]

/-- Settles O16. -/
theorem requestsOutOfStateAndWithdrawals : Obligations.RequestsOutOfStateAndWithdrawals := by
  refine ⟨fun s j i a h hi => ?_, fun s j h => ⟨fun hy => ?_, fun hn => ?_⟩⟩
  · have hexec : ∃ v, exec i s = .next ((s.put (slotAddr j 1) v).answerSlot j a) := by
      rcases hi with ⟨rfl, rfl, hst⟩ | ⟨rfl | rfl, rfl, hst⟩ | ⟨rfl, rfl, hst, hc⟩ | ⟨v, rfl, hv, rfl⟩
      · exact ⟨_, (exec_post j h).trans (congrArg _ (State.takePost_badState _ j hst))⟩
      · exact ⟨_, (exec_cancel j h).trans (congrArg _ (State.takeCancel_badState _ j hst))⟩
      · exact ⟨_, (exec_amend j h).trans (congrArg _ (State.takeAmend_badState _ j (.inl hst)))⟩
      · exact ⟨_, (exec_amend j h).trans (congrArg _ (State.takeAmend_badState _ j (.inr ⟨hst, hc⟩)))⟩
      · exact ⟨v, exec_badRequest j v h hv⟩
    obtain ⟨v, hexec⟩ := hexec
    exact ⟨_, hexec, answered_slot s j v a⟩
  · have htake : (s.put (slotAddr j 1) reqNone).takeNone j
        = ((s.put (slotAddr j 1) reqNone).setSlot j { s.slots[j] with amendment := none }).answerSlot j ansWithdrawn := if_pos hy
    refine ⟨_, (exec_withdrawal j h).trans (congrArg _ htake), rfl, ?_⟩
    exact wrote_of_put (slotAddr_lt j 1 (by decide))
        (wrote_setSlot_answer (s.put (slotAddr j 1) reqNone) j _ ansWithdrawn) List.mem_cons_self
  · have htake : (s.put (slotAddr j 1) reqNone).takeNone j = s.put (slotAddr j 1) reqNone :=
        if_neg (by simp only [State.put_slots, hn]; simp)
    exact ⟨_, (exec_withdrawal j h).trans (congrArg _ htake), rfl, wrote_put s _ _ (slotAddr_lt j 1 (by decide))⟩

/-! ### CANCEL (R149) -/

theorem State.takeCancel_ready (s : State) (j : SlotNo) (h : s.slots[j].state = .ready) :
    s.takeCancel j = (({ s.setSlot j (emptied s.slots[j] .free) with
      queue := s.queue.filter (fun i => i ≠ j) } : State).putQueue.putSlotState
      j).answerSlot j ansOk := by
  unfold State.takeCancel
  simp only [h]

theorem State.takeCancel_ready_wrote (s : State) (j : SlotNo) (h : s.slots[j].state = .ready) :
    Wrote s (s.takeCancel j) ([(slotAddr j 0, 0#16), (slotAddr j 1, 0#16), (slotAddr j 2, 1#16)]
      ++ queueWords (s.queue.filter (fun i => i ≠ j))) := by
  rw [s.takeCancel_ready j h]
  have hqueue := State.putQueue_wrote { s.setSlot j (emptied s.slots[j] .free) with queue := s.queue.filter (fun i => i ≠ j) }
  have hstate := hqueue.trans (State.putSlotState_wrote _ j)
  have hall := (hstate.trans (State.answerSlot_effect _ j ansOk).2).of_mem (s' := s) rfl rfl
  refine wrote_of_perm (ws := [(slotAddr j 1, 0#16), (slotAddr j 2, 1#16)]
    ++ ([(slotAddr j 0, 0#16)] ++ queueWords (s.queue.filter (fun i => i ≠ j)))) ?_ ?_ ?_
  · simpa [slotCode, writeBack, ansOk, emptied, State.setSlot] using hall
  · exact List.perm_iff_count.2 fun x => by simp only [List.count_append, List.count_cons, List.count_nil]; omega
  · rw [List.map_append, List.nodup_append']
    refine ⟨slotAddrs_nodup j [0, 1, 2] (by decide), by rw [queueWords_addresses]; decide, fun a ha => ?_⟩
    obtain ⟨off, -, rfl⟩ : ∃ off ∈ [0, 1, 2], slotAddr j off = a := List.mem_map.1 ha
    exact slotAddr_notMem_queueWords j off _

theorem State.takeCancel_ready_eq (s : State) (j : SlotNo) (h : s.slots[j].state = .ready) :
    s.takeCancel j = { s with
      mem := (s.takeCancel j).mem, slots := vset s.slots j (emptied s.slots[j] .free), queue := s.queue.filter (fun i => i ≠ j)
      attnCause := s.attnCause ||| causeRequest } := by
  rw [s.takeCancel_ready j h]
  refine State.eq_withMem _ { s with
    slots := vset s.slots j (emptied s.slots[j] .free), queue := s.queue.filter (fun i => i ≠ j)
    attnCause := s.attnCause ||| causeRequest } ?_
  have hcause : ∀ u : State, (u.answerSlot j ansOk).attnCause = u.attnCause ||| causeRequest := fun _ => rfl
  simp [-Fin.getElem_fin, hcause]

theorem State.takeCancel_active (s : State) (j : SlotNo) (h : s.slots[j].state = .active) :
    s.takeCancel j = if s.slots[j].cancelPending then s.answerSlot j ansOk
      else if s.orderInUse = some j then (s.setSlot j { s.slots[j] with cancelPending := true, amendment := none }).answerSlot j ansOk
      else ((s.setSlot j { s.slots[j] with amendment := none }).spendSlot j).answerSlot j ansOk := by
  unfold State.takeCancel
  simp only [h]

/-- The end of the current order, in one record (R148, R153). -/
theorem State.spendSlot_eq (s : State) (j : SlotNo) :
    s.spendSlot j = { s with
      mem := (s.spendSlot j).mem, slots := vset s.slots j (emptied s.slots[j] .spent), current := none
      attnCause := if s.slots[j].amendment.isSome then s.attnCause ||| causeRequest else s.attnCause } := by
  obtain ⟨hslots, hcurrent, hcause, -⟩ := s.spendSlot_effect j
  have hframe := s.spendSlot_frame j
  generalize s.spendSlot j = t at *
  cases t
  simp only [State.mk.injEq] at *
  simp only [hframe, hslots, hcurrent, hcause, and_self]

/-- The end of an order with nothing pending, answered OK (R149). -/
theorem answered_spent {s u : State} {j : SlotNo} {x : Vector OrderSlot 4}
    (h : u = { s with mem := u.mem, slots := x, current := none, attnCause := s.attnCause }) :
    u.answerSlot j ansOk = { s with
      mem := (u.answerSlot j ansOk).mem, slots := x, current := none, attnCause := s.attnCause ||| causeRequest } := by
  refine State.eq_withMem _ { s with slots := x, current := none, attnCause := s.attnCause ||| causeRequest } ?_
  show { u with mem := [], attnCause := u.attnCause ||| causeRequest } = _
  rw [h]

/-- The CANCEL of an order that no tube uses (R149). -/
theorem State.cancelUnused (s : State) (j : SlotNo) :
    let t := ((s.setSlot j { s.slots[j] with amendment := none }).spendSlot j).answerSlot j ansOk
    t = { s with mem := t.mem, slots := vset s.slots j (emptied s.slots[j] .spent), current := none,
                 attnCause := s.attnCause ||| causeRequest }
      ∧ Wrote s t [(slotAddr j 0, 3#16), (slotAddr j 1, 0#16), (slotAddr j 2, 1#16), (stCurrent, 0xFFFF#16)] := by
  have hslot : (s.setSlot j { s.slots[j] with amendment := none }).slots[j] = { s.slots[j] with amendment := none } := by
    rw [State.setSlot_slots, vset_getFin, if_pos rfl]
  have heq := (s.setSlot j { s.slots[j] with amendment := none }).spendSlot_eq j
  obtain ⟨hslots, -, -, hwords⟩ := (s.setSlot j { s.slots[j] with amendment := none }).spendSlot_effect j
  rw [hslot, State.setSlot_slots, vset_vset] at heq hslots
  rw [hslot] at hwords
  refine ⟨answered_spent heq, ?_⟩
  have hspent : ((s.setSlot j { s.slots[j] with amendment := none }).spendSlot j).slots[j] = emptied s.slots[j] .spent := by
    rw [hslots, vset_getFin, if_pos rfl]
    rfl
  have hanswer := (((s.setSlot j { s.slots[j] with amendment := none }).spendSlot j).answerSlot_effect j ansOk).2
  rw [hspent] at hanswer
  refine wrote_of_perm (ws := [(slotAddr j 1, 0#16), (slotAddr j 2, 1#16), (stCurrent, 0xFFFF#16), (slotAddr j 0, 3#16)])
    ((hwords.trans hanswer).of_mem rfl rfl) ?_ ?_
  · exact List.perm_iff_count.2 fun x => by simp only [List.count_cons, List.count_nil]; omega
  · have hlow : ∀ off, slotAddr j off ≠ stCurrent := fun off => by simp only [stCurrent, slotAddr, Config.slotBase]; omega
    have hown : ([slotAddr j 0, slotAddr j 1, slotAddr j 2] : List Nat).Nodup := slotAddrs_nodup j [0, 1, 2] (by decide)
    simpa [hlow] using hown

/-- Settles O17. -/
theorem cancelBySlotState : Obligations.CancelBySlotState := by
  refine ⟨fun s j h hst => ?_, fun s j h hst => ⟨fun ⟨hc, hu⟩ => ?_, fun ⟨hc, hu⟩ => ?_, fun ⟨hc, hn⟩ => ?_⟩⟩
  · refine ⟨_, exec_cancel j h, (s.put (slotAddr j 1) reqCancel).takeCancel_ready_eq j hst, ?_⟩
    exact wrote_of_put (slotAddr_lt j 1 (by decide)) ((s.put (slotAddr j 1) reqCancel).takeCancel_ready_wrote j hst)
      (List.mem_cons_of_mem _ List.mem_cons_self)
  all_goals
    have htake := (s.put (slotAddr j 1) reqCancel).takeCancel_active j hst
    have hpending : (s.put (slotAddr j 1) reqCancel).slots[j].cancelPending = _ := hc
    rw [hpending] at htake
  · have huse : ¬(s.put (slotAddr j 1) reqCancel).orderInUse = some j := hu
    rw [if_neg Bool.false_ne_true, if_neg huse] at htake
    obtain ⟨heq, hwords⟩ := (s.put (slotAddr j 1) reqCancel).cancelUnused j
    refine ⟨_, (exec_cancel j h).trans (congrArg _ htake), heq, ?_⟩
    exact wrote_of_put (slotAddr_lt j 1 (by decide)) hwords (List.mem_cons_of_mem _ List.mem_cons_self)
  · have huse : (s.put (slotAddr j 1) reqCancel).orderInUse = some j := hu
    rw [if_neg Bool.false_ne_true, if_pos huse] at htake
    exact ⟨_, (exec_cancel j h).trans (congrArg _ htake), rfl,
      wrote_of_put (slotAddr_lt j 1 (by decide)) (wrote_setSlot_answer (s.put (slotAddr j 1) reqCancel) j _ ansOk) List.mem_cons_self⟩
  · rw [if_pos rfl] at htake
    obtain ⟨heq, hwords⟩ := answered_slot s j reqCancel ansOk
    refine ⟨_, (exec_cancel j h).trans (congrArg _ htake), heq, ?_⟩
    have hback : writeBack s.slots[j] = 0#16 := by rw [writeBack, hn]; rfl
    rwa [hback] at hwords

/-! ### AMEND (R150) -/

theorem amendmentOf_congr {m m' : Memory} {a : Nat} (h : ∀ x, a + 16 ≤ x → memRead m' x = memRead m x) :
    amendmentOf m' a = amendmentOf m a := by
  simp (disch := omega) only [amendmentOf, signedAt, fieldAt, h]
  rfl

theorem amendChecks_congr {m m' : Memory} {a : Nat} (tnom : Nat) (h : ∀ x, a + 16 ≤ x → memRead m' x = memRead m x) :
    amendChecks m' tnom a = amendChecks m tnom a := by
  simp (disch := omega) only [amendChecks, amendmentOf_congr h, fieldAt, h]

/-- The AMEND of a slot whose state takes it is the check of the amendment area as the host left it (R150). -/
theorem exec_amend_checked {s : State} {j : SlotNo} (h : PortOpen s)
    (hst : s.slots[j].state = .ready ∨ (s.slots[j].state = .active ∧ s.slots[j].cancelPending = false)) :
    exec (.amend j) s = .next ((s.put (slotAddr j 1) reqAmend).checkAmend j) := by
  rw [exec_amend j h]
  congr 1
  unfold State.takeAmend
  simp only [State.put_slots]
  rcases hst with hst | ⟨hst, hc⟩
  · simp only [hst]
  · simp only [hst, hc, Bool.false_eq_true, if_false]

/-- What the amendment's check finds, the request word being out of its way. -/
theorem amendError_put_request (s : State) (j : SlotNo) (v : Word) (tnom : Nat) :
    amendError (s.put (slotAddr j 1) v).mem tnom j = firstBad (amendChecks s.mem tnom (slotAddr j 0)) :=
  congrArg firstBad (amendChecks_congr tnom (memRead_put_request s j v))

/-- An AMEND whose field at offset `off` is the first out of its range (R150). -/
theorem amend_badField {s : State} {j : SlotNo} (h : PortOpen s) {n : Snapshot} (hn : s.slots[j].snapshot = some n) (off : Nat)
    (hst : s.slots[j].state = .ready ∨ (s.slots[j].state = .active ∧ s.slots[j].cancelPending = false))
    (hf : FailsFirstAt (amendChecks s.mem n.recipe.tnom (slotAddr j 0)) off) :
    ∃ t, exec (.amend j) s = .next t ∧ t = { s with mem := t.mem, attnCause := s.attnCause ||| causeRequest }
      ∧ Wrote s t [(slotAddr j 1, writeBack s.slots[j]), (slotAddr j 2, 3#16), (slotAddr j 3, BitVec.ofNat 16 off)] := by
  have htnom : slotTnom s.slots[j] = n.recipe.tnom := by simp only [slotTnom, hn, Option.map_some, Option.getD_some]
  have herror := amendError_put_request s j reqAmend n.recipe.tnom
  have hcheck : (s.put (slotAddr j 1) reqAmend).checkAmend j
      = ((s.put (slotAddr j 1) reqAmend).put (slotAddr j 3) (toWord off)).answerSlot j ansBadField := by
    unfold State.checkAmend
    simp only [State.put_slots, htnom, herror, (firstBad_some_iff _ off).2 hf]
  refine ⟨_, (exec_amend_checked h hst).trans (congrArg _ hcheck), rfl, ?_⟩
  have hfield := wrote_put (s.put (slotAddr j 1) reqAmend) (slotAddr j 3) (toWord off) (slotAddr_lt j 3 (by decide))
  exact wrote_of_put (slotAddr_lt j 1 (by decide)) (hfield.trans (State.answerSlot_effect _ j ansBadField).2) List.mem_cons_self

/-- Settles O18. -/
theorem amendIsCheckedAndTaken : Obligations.AmendIsCheckedAndTaken := by
  intro s j n h hn
  have htnom : slotTnom s.slots[j] = n.recipe.tnom := by simp only [slotTnom, hn, Option.map_some, Option.getD_some]
  have herror := amendError_put_request s j reqAmend n.recipe.tnom
  have hcopy : amendmentOf (s.put (slotAddr j 1) reqAmend).mem (slotAddr j 0) = amendmentOf s.mem (slotAddr j 0) :=
    amendmentOf_congr (memRead_put_request s j reqAmend)
  refine ⟨fun ⟨hst, hp⟩ => ?_, fun ⟨hst, hc, hp⟩ => ?_, fun off hst hf => ?_⟩
  · have hcheck : (s.put (slotAddr j 1) reqAmend).checkAmend j
        = (((s.put (slotAddr j 1) reqAmend).setSlot j (amendedSlot s.slots[j] (amendmentOf s.mem (slotAddr j 0)))).put (slotAddr j 3)
          Config.noneWord).answerSlot j ansOk := by
      unfold State.checkAmend
      simp only [State.put_slots, htnom, herror, (firstBad_none_iff _).2 hp, hst, hcopy, if_true]
    refine ⟨_, (exec_amend_checked h (.inl hst)).trans (congrArg _ hcheck), ?_, ?_⟩
    · simp only [amendedSlot, hn]
      rfl
    · have hfield := wrote_put ((s.put (slotAddr j 1) reqAmend).setSlot j (amendedSlot s.slots[j] (amendmentOf s.mem (slotAddr j 0))))
        (slotAddr j 3) Config.noneWord (slotAddr_lt j 3 (by decide))
      have hall := (hfield.trans (State.answerSlot_effect _ j ansOk).2).of_mem (s' := s.put (slotAddr j 1) reqAmend) rfl rfl
      refine wrote_of_put (slotAddr_lt j 1 (by decide)) (v := reqAmend) ?_ List.mem_cons_self
      simpa [writeBack, amendedSlot, ansOk, Config.noneWord] using hall
  · have hcheck : (s.put (slotAddr j 1) reqAmend).checkAmend j
        = ((s.put (slotAddr j 1) reqAmend).setSlot j { s.slots[j] with amendment := some (amendmentOf s.mem (slotAddr j 0)) }).put
          (slotAddr j 3) Config.noneWord := by
      unfold State.checkAmend
      simp only [State.put_slots, htnom, herror, (firstBad_none_iff _).2 hp, hst, hcopy, reduceCtorEq, if_false]
    refine ⟨_, (exec_amend_checked h (.inr ⟨hst, hc⟩)).trans (congrArg _ hcheck), rfl, ?_⟩
    refine wrote_of_perm ?_ (List.Perm.swap _ _ _) (slotAddrs_nodup j [1, 3] (by decide))
    exact ((wrote_put s (slotAddr j 1) reqAmend (slotAddr_lt j 1 (by decide))).trans
      (wrote_put _ (slotAddr j 3) Config.noneWord (slotAddr_lt j 3 (by decide)))).of_mem rfl rfl
  · exact amend_badField h hn off hst hf

/-! ### Requests to tube records (R164) -/

/-- The request word that an answer writes back to record `r` (R164). -/
theorem answered_record (s : State) (r : RecNo) (v a : Word) :
    let t := (s.put (recAddr r 1) v).answerRec r a
    t = { s with mem := t.mem, attnCause := s.attnCause ||| causeRequest }
      ∧ Wrote s t [(recAddr r 1, if s.records[r] = .releasing then 4#16 else 0#16), (recAddr r 2, a)] :=
  ⟨rfl, wrote_of_put (recAddr_lt r 1 (by decide)) (State.answerRec_effect (s.put (recAddr r 1) v) r a).2 List.mem_cons_self⟩

theorem State.serveQueue_idle (s : State) {r : RecNo} {rest : List RecNo} (h : s.pool.scan = none) (hq : s.pool.releaseQueue = r :: rest) :
    s.serveQueue = { s with
      pool := { s.pool with releaseQueue := rest, scan := some { record := r, next := 0, startAt := s.now } } } := by
  unfold State.serveQueue
  simp only [h, hq]

theorem State.serveQueue_same (s : State) (h : s.pool.scan.isSome = true ∨ s.pool.releaseQueue = []) : s.serveQueue = s := by
  unfold State.serveQueue
  cases hs : s.pool.scan with
  | some c => rfl
  | none => rw [h.resolve_left (by simp [hs])]

/-- A record released: RELEASING, and at the tail of the release queue (R165). -/
def State.queued (s : State) (r : RecNo) : State :=
  { s.setRecState r .releasing with
    pool := { (s.setRecState r .releasing).pool with releaseQueue := (s.setRecState r .releasing).pool.releaseQueue ++ [r] } }

theorem exec_release {s : State} (r : RecNo) (h : PortOpen s) :
    exec (.release r) s = .next (if s.records[r] = .complete then ((s.put (recAddr r 1) reqRelease).queued r).serveQueue
      else (s.put (recAddr r 1) reqRelease).answerRec r ansBadState) := by
  show Host.Outcome.next (s.recWrite r reqRelease) = _
  rw [State.recWrite_open h]
  rfl

theorem released_wrote (s : State) (r : RecNo) :
    Wrote s ((s.put (recAddr r 1) reqRelease).queued r) [(recAddr r 0, 3#16), (recAddr r 1, 4#16)] :=
  ((wrote_put s (recAddr r 1) reqRelease (recAddr_lt r 1 (by decide))).trans (State.setRecState_wrote _ r .releasing)).of_mem rfl rfl

/-- Settles O20. -/
theorem recordRequestsAreTaken : Obligations.RecordRequestsAreTaken := by
  refine ⟨fun s r h => ⟨fun ⟨hc, hscan, hq⟩ => ?_, fun ⟨hc, hscan⟩ => ?_, fun hc => ?_⟩, fun s r v h hv => ?_⟩
  · have hserve := ((s.put (recAddr r 1) reqRelease).queued r).serveQueue_idle (r := r) (rest := []) hscan (congrArg (· ++ [r]) hq)
    refine ⟨_, (exec_release r h).trans (congrArg _ ((if_pos hc).trans hserve)), ?_, (released_wrote s r).of_mem rfl rfl⟩
    rw [← hq]
    rfl
  · have hserve := ((s.put (recAddr r 1) reqRelease).queued r).serveQueue_same (.inl hscan)
    exact ⟨_, (exec_release r h).trans (congrArg _ ((if_pos hc).trans hserve)), rfl, released_wrote s r⟩
  · exact ⟨_, (exec_release r h).trans (congrArg _ (if_neg hc)), answered_record s r reqRelease ansBadState⟩
  · obtain ⟨hnone, hrelease⟩ : v ≠ reqNone ∧ v ≠ reqRelease := by simpa [noRecordRequest] using hv
    have hexec : exec (.recordBadRequest r v) s = .next ((s.put (recAddr r 1) v).answerRec r ansBadRequest) := by
      show Host.Outcome.next (s.recWrite r v) = _
      rw [State.recWrite_open h, State.recRequest, if_neg hnone, if_neg hrelease]
    exact ⟨_, hexec, answered_record s r v ansBadRequest⟩

/-! ### The release scan (R165, R166) -/

/-- The return of a block, in one record (R163, R166). -/
theorem State.returnBlock_eq (s : State) (b : BlockNo) :
    s.returnBlock b = { s with
      mem := (s.returnBlock b).mem
      pool := { s.pool with
        free := s.pool.free ++ [b], owner := vset s.pool.owner b none
        lowArmed := s.pool.lowArmed || (s.setup.isSome && decide (s.cfg.poolLow ≤ s.pool.free.length + 1)) } } := by
  obtain ⟨hpool, -⟩ := s.returnBlock_effect b
  have hframe := s.returnBlock_frame b
  generalize s.returnBlock b = t at *
  cases t
  simp only [State.mk.injEq] at *
  simp only [hframe, hpool, and_self]

/-- One more entry of the scan `c` examined (R166). -/
def State.scanned (s : State) (c : Scan) : State := { s with pool := { s.pool with scan := some { c with next := c.next + 1 } } }

/-- The scan of a block that its record owns (R166). -/
theorem State.scanOne_owned {s : State} {c : Scan} (hs : s.pool.scan = some c) (h : c.next < 952)
    (ho : s.pool.owner[c.next] = some c.record) :
    s.scanOne = (s.scanned c).returnBlock ⟨c.next, h⟩ := by
  unfold State.scanOne
  simp only [hs, h, ho, dif_pos, if_true]
  rfl

theorem State.scanOne_other {s : State} {c : Scan} (hs : s.pool.scan = some c) (h : c.next < 952)
    (ho : s.pool.owner[c.next] ≠ some c.record) :
    s.scanOne = s.scanned c := by
  unfold State.scanOne
  simp only [hs, h, ho, dif_pos, if_false]
  rfl

/-- The scanned record is FREE again, the answer given (R166). -/
def State.freed (s : State) (r : RecNo) : State :=
  (((({ s with pool := { s.pool with scan := none } } : State).put (recAddr r 2) ansOk).setRecState r .free).put (recAddr r 1)
    reqNone).raise causeRequest

theorem State.freed_wrote (s : State) (r : RecNo) :
    Wrote s (s.freed r) [(recAddr r 0, 0#16), (recAddr r 1, 0#16), (recAddr r 2, 1#16)] := by
  have hanswer := wrote_put ({ s with pool := { s.pool with scan := none } } : State) (recAddr r 2) ansOk (recAddr_lt r 2 (by decide))
  have hstate := hanswer.trans (State.setRecState_wrote _ r .free)
  have hall := (hstate.trans (wrote_put _ (recAddr r 1) reqNone (recAddr_lt r 1 (by decide)))).of_mem (s' := s) (t' := s.freed r) rfl rfl
  refine wrote_of_perm hall (List.Perm.swap _ _ _) ?_
  simp [recAddr]

theorem State.scanFinish_done {s : State} {c : Scan} (hs : s.pool.scan = some c) (h : 952 ≤ c.next) :
    s.scanFinish = (s.freed c.record).serveQueue := by
  unfold State.scanFinish
  simp only [hs, if_neg (Nat.not_lt.2 h)]
  rfl

/-- What the scanner does where it is idle, in one record (R165). -/
theorem State.serveQueue_none (s : State) (h : s.pool.scan = none) :
    s.serveQueue = { s with pool := { s.pool with
      releaseQueue := s.pool.releaseQueue.tail
      scan := s.pool.releaseQueue.head?.map (fun r => { record := r, next := 0, startAt := s.now }) } } := by
  cases hq : s.pool.releaseQueue with
  | nil =>
    rw [s.serveQueue_same (.inr hq), List.tail_nil, List.head?_nil, Option.map_none, ← hq, ← h]
  | cons r rest => exact s.serveQueue_idle h hq

/-- Settles O21. -/
theorem releaseScanStartsStepsAndEnds : Obligations.ReleaseScanStartsStepsAndEnds := by
  refine ⟨fun s => ⟨fun r rest h hq => congrArg Host.Outcome.next (s.serveQueue_idle h hq),
    fun h => congrArg Host.Outcome.next (s.serveQueue_same h)⟩, fun s c h hs => ⟨fun ho => ?_, fun ho => ?_⟩, fun s c hs hn => ?_⟩
  · refine ⟨_, congrArg Host.Outcome.next (State.scanOne_owned hs h ho), ?_, ?_⟩
    · rw [State.returnBlock_eq]
      rfl
    · exact ((s.scanned c).returnBlock_effect ⟨c.next, h⟩).2.of_mem rfl rfl
  · exact congrArg Host.Outcome.next (State.scanOne_other hs h ho)
  · refine ⟨_, congrArg Host.Outcome.next (State.scanFinish_done hs hn), ?_, ?_⟩
    · rw [State.serveQueue_none _ rfl]
      rfl
    · rw [State.serveQueue_none _ rfl]
      exact (s.freed_wrote c.record).of_mem rfl rfl

end Sys2Proof.Machine
end

section
/-! PROOFS. STOP and a successful RUN (chapter 1): HALTED, the end of measuring, and the start of every block. -/

namespace Sys2Proof.Machine

open Safety

/-! ### STOP (R12 to R15) -/

/-- The gauge in HALTED, in one record (R15). -/
theorem State.enterHalted_eq (s : State) :
    s.enterHalted = { s with
      mem := s.enterHalted.mem, gauge := .halted, slot := none, resumePending := false, haltPending := false
      tracker := { s.tracker with
        state := .idle, stallLimit := none, episode := 0, fresh := false, encLevel := false, encRun := 0, encPhase := 0 }
      link := { s.link with rx := Receiver.off, asm := .awaitMarker, gapAt := none, source := .none } } :=
  State.eq_withMem _ { s with
    gauge := .halted, slot := none, resumePending := false, haltPending := false
    tracker := { s.tracker with
      state := .idle, stallLimit := none, episode := 0, fresh := false, encLevel := false, encRun := 0, encPhase := 0 }
    link := { s.link with rx := Receiver.off, asm := .awaitMarker, gapAt := none, source := .none } } rfl

theorem State.enterHalted_wrote (s : State) :
    Wrote s s.enterHalted ([(stGauge, 1#16), (stSource, 0#16)] ++ ifChanged (s.tracker.state ≠ .idle) stTracking 0#16) := by
  have htrack := State.setTrack_wrote ({ s with slot := none, resumePending := false, haltPending := false,
                                                tracker := haltTracker s.tracker } : State) .idle
  generalize hu : (({ s with slot := none, resumePending := false, haltPending := false,
                             tracker := haltTracker s.tracker } : State).setTrack .idle) = u at htrack
  have hlink : Wrote u u.stopLink [(stSource, 0#16)] := (wrote_put _ stSource 0#16 (by decide)).of_mem rfl rfl
  have hall := (htrack.trans hlink).trans (u.stopLink.setGauge_wrote .halted)
  have hhalted : u.stopLink.setGauge .halted = s.enterHalted := by rw [← hu]; rfl
  rw [hhalted] at hall
  exact hall.of_mem rfl rfl

/-- The end of measuring, in one record (R90, R127). -/
theorem State.endMeasuring_eq (s : State) (o : Option TubeOutcome) :
    s.endMeasuring o = { s with
      mem := (s.endMeasuring o).mem, gauge := .closing
      tracker := { s.tracker with state := .idle, stallLimit := none, episode := 0, fresh := false }
      tube := s.tube.map (fun x => { x with zTail := some s.tracker.z, outcome := o.getD x.outcome }) } :=
  State.eq_withMem _ { s with
    gauge := .closing
    tracker := { s.tracker with state := .idle, stallLimit := none, episode := 0, fresh := false }
    tube := s.tube.map (fun x => { x with zTail := some s.tracker.z, outcome := o.getD x.outcome }) } rfl

theorem State.endMeasuring_wrote (s : State) (o : Option TubeOutcome) :
    Wrote s (s.endMeasuring o) ([(stGauge, 4#16)] ++ ifChanged (s.tracker.state ≠ .idle) stTracking 0#16) := by
  have htrack := State.setTrack_wrote ({ s.modTube (fun t => { t with zTail := some s.tracker.z, outcome := o.getD t.outcome }) with
    tracker := { s.tracker with stallLimit := none, episode := 0, fresh := false } } : State) .idle
  exact (htrack.trans (State.setGauge_wrote _ .closing)).of_mem rfl rfl

theorem State.answerCmd_wrote (s : State) (a : Word) : Wrote s (s.answerCmd a) [(stCommand, a)] := wrote_put s stCommand a (by decide)

/-- A STOP in MEASURING but for the completion of the close (R13). -/
def State.stopped (s : State) : State := (({ s with haltPending := true } : State).endMeasuring (some .aborted)).answerCmd ansCmdOk

theorem State.stopped_eq (s : State) :
    s.stopped = { s with
      mem := s.stopped.mem, gauge := .closing, haltPending := true
      tracker := { s.tracker with state := .idle, stallLimit := none, episode := 0, fresh := false }
      tube := s.tube.map (fun x => { x with zTail := some s.tracker.z, outcome := .aborted }) } :=
  State.eq_withMem _ { s with
    gauge := .closing, haltPending := true
    tracker := { s.tracker with state := .idle, stallLimit := none, episode := 0, fresh := false }
    tube := s.tube.map (fun x => { x with zTail := some s.tracker.z, outcome := .aborted }) } rfl

theorem State.stopped_wrote (s : State) :
    Wrote s s.stopped ([(stGauge, 4#16), (stCommand, 1#16)] ++ ifChanged (s.tracker.state ≠ .idle) stTracking 0#16) := by
  have hend := State.endMeasuring_wrote { s with haltPending := true } (some .aborted)
  have hall := (hend.trans (State.answerCmd_wrote _ ansCmdOk)).of_mem (s' := s) (t' := s.stopped) rfl rfl
  refine hall.congr fun a _ => lookup_eq_of_perm (List.Perm.swap _ _ _) ?_ a
  unfold ifChanged
  split <;> simp [stGauge, stCommand, stTracking]

theorem State.stopCmd_armed (s : State) (h : s.gauge = .armed ∨ s.gauge = .waitClear) : s.stopCmd = s.enterHalted.answerCmd ansCmdOk := by
  unfold State.stopCmd
  rcases h with h | h <;> simp only [h]

theorem State.stopCmd_measuring (s : State) (h : s.gauge = .measuring) : s.stopCmd = s.stopped.closeIfDrained := by
  unfold State.stopCmd
  simp only [h]
  rfl

theorem State.stopCmd_closing (s : State) (h : s.gauge = .closing) :
    s.stopCmd = if s.haltPending then s.answerCmd ansCmdIgnored else ({ s with haltPending := true } : State).answerCmd ansCmdOk := by
  unfold State.stopCmd
  simp only [h]

/-- A close that waits for a shot does not complete (R134). -/
theorem State.closeIfDrained_inFlight_ne {s : State} (h : s.inFlight ≠ none) : s.closeIfDrained = s := if_neg fun hc => h hc.2

/-- Settles O10. -/
theorem stopByGaugeState : Obligations.StopByGaugeState := by
  refine ⟨fun s hr => ⟨fun hg => ?_, fun hg => ?_⟩, fun s hr hg => ?_, fun s hr hg => ?_⟩
  · have hopen : PortOpen s := ⟨hr, by rcases hg with hg | hg <;> simp [hg]⟩
    refine ⟨_, (exec_stop_zero s hopen).trans (congrArg _ (s.stopCmd_armed hg)), ?_, ?_⟩
    · refine State.eq_withMem _ { s with
        gauge := .halted, slot := none, resumePending := false, haltPending := false
        tracker := { s.tracker with
          state := .idle, stallLimit := none, episode := 0, fresh := false, encLevel := false, encRun := 0, encPhase := 0 }
        link := { s.link with rx := Receiver.off, asm := .awaitMarker, gapAt := none, source := .none } } rfl
    · refine (s.enterHalted_wrote.trans (State.answerCmd_wrote _ ansCmdOk)).congr fun a _ =>
        lookup_eq_of_perm (List.Perm.swap _ _ _) ?_ a
      unfold ifChanged
      split <;> simp [stGauge, stCommand, stSource, stTracking]
  · have hopen : PortOpen s := ⟨hr, by simp [hg]⟩
    have hstop : s.stopCmd = s.answerCmd ansCmdIgnored := by unfold State.stopCmd; simp only [hg]
    exact ⟨_, (exec_stop_zero s hopen).trans (congrArg _ hstop), rfl, s.answerCmd_wrote ansCmdIgnored⟩
  · have hopen : PortOpen s := ⟨hr, by simp [hg]⟩
    refine ⟨s.stopped, s.stopped_eq, s.stopped_wrote, ?_⟩
    rw [exec_stop_zero s hopen, s.stopCmd_measuring hg]
    split
    · rfl
    · next hf => rw [State.closeIfDrained_inFlight_ne (s := s.stopped) hf]
  · have hopen : PortOpen s := ⟨hr, by simp [hg]⟩
    rw [exec_stop_zero s hopen, s.stopCmd_closing hg]
    cases hh : s.haltPending
    · exact ⟨_, rfl, rfl, (State.answerCmd_wrote _ ansCmdOk).of_mem rfl rfl⟩
    · refine ⟨_, rfl, ?_, s.answerCmd_wrote ansCmdIgnored⟩
      rw [if_pos rfl, ← hh]
      rfl

end Sys2Proof.Machine
end

section
/-! PROOFS. A successful RUN (R10, R163) and the application of an amendment to an order that no tube uses (R151, R152). -/

namespace Sys2Proof.Machine

open Safety

/-! ### Lists of writes with distinct addresses -/

theorem ifChanged_keys (c : Bool) (a : Nat) (v : Word) : ((ifChanged c a v).map Prod.fst).Sublist [a] := by
  cases c <;> simp [ifChanged]

theorem wordsAt_keys (a : Nat) (vs : List Word) : (wordsAt a vs).map Prod.fst = List.range' a vs.length := by
  induction vs generalizing a with
  | nil => rfl
  | cons v vs ih => rw [wordsAt, List.map_cons, ih, List.length_cons, List.range'_succ]

/-! ### RUN, block by block (R10, Table 1-5) -/

theorem setupOf_congr {m m' : Memory} (h : ∀ x, 0x0100 ≤ x → memRead m' x = memRead m x) : setupOf m' = setupOf m := by
  simp (disch := decide) only [setupOf, fieldAt, Config.setupBase, h]
  rfl

/-- The setup copies are those of the block that the host left (R10, R11). -/
theorem State.takeSetup_setup (s : State) : (s.put stSetupError Config.noneWord).takeSetup.setup = some (setupOf s.mem) := by
  show some (setupOf (s.put stSetupError Config.noneWord).mem) = _
  rw [setupOf_congr fun x hx => ?_]
  rw [memRead_put s stSetupError x _ (by decide), if_neg (by simp only [stSetupError]; omega)]

theorem State.takeSetup_tracker (s : State) : s.takeSetup.tracker = { s.tracker with pLast := none } := rfl

theorem State.takeSetup_wrote (s : State) :
    Wrote s s.takeSetup (ifChanged (speedOf s.cfg.encStep s.tracker.pLast ≠ 0) stSpeed 0#16) :=
  (s.setPLast_wrote none).of_mem rfl rfl

/-- The POOL_LOW judgement of a RUN, in one record (R163). -/
theorem State.judgeLowAtRun_eq (s : State) :
    s.judgeLowAtRun = { s with
      pool := { s.pool with lowArmed := !s.poolIsLow }
      attnCause := if s.poolIsLow then s.attnCause ||| causePoolLow else s.attnCause } := by
  unfold State.judgeLowAtRun
  cases s.poolIsLow <;> rfl

theorem State.clearStray_heads (s : State) (k : Head) : (s.clearStray k).heads = vset s.heads k { s.heads[k] with stray := 0 } := rfl

theorem State.clearStray_wrote (s : State) (k : Head) : Wrote s (s.clearStray k) [(stStray + k.val, 0#16)] :=
  (wrote_put _ (stStray + k.val) 0#16 (by have := k.isLt; simp only [stStray]; omega)).of_mem rfl rfl

/-- Something done with the four heads one after the other is done with each. -/
theorem map_eq_vsets {α : Type} (v : Vector α 4) (f : α → α) :
    v.map f = vset (vset (vset (vset v 0 (f v[0])) 1 (f v[1])) 2 (f v[2])) 3 (f v[3]) := by
  ext i hi
  have hcases : i = 0 ∨ i = 1 ∨ i = 2 ∨ i = 3 := by omega
  rcases hcases with rfl | rfl | rfl | rfl <;> simp

theorem State.clearRunCounters_heads (s : State) : s.clearRunCounters.heads = s.heads.map (fun h => { h with stray := 0 }) := by
  rw [map_eq_vsets]
  simp only [State.clearRunCounters, forHeads, State.put_heads, State.clearStray_heads, vset_getFin]
  rfl

theorem State.clearRunCounters_counts (s : State) : s.clearRunCounters.tubesCompleted = 0 ∧ s.clearRunCounters.tubesMissed = 0 := ⟨rfl, rfl⟩

theorem State.clearRunCounters_wrote (s : State) :
    Wrote s s.clearRunCounters ([(stMissed, 0#16), (stCompleted, 0#16), (stStray + 3, 0#16), (stStray + 2, 0#16), (stStray + 1, 0#16),
      (stStray, 0#16)]) := by
  have h0 := State.clearStray_wrote { s with tubesCompleted := 0, tubesMissed := 0 } 0
  have h1 := h0.trans (State.clearStray_wrote _ 1)
  have h2 := h1.trans (State.clearStray_wrote _ 2)
  have h3 := h2.trans (State.clearStray_wrote _ 3)
  have h4 := h3.trans (wrote_put _ stCompleted 0#16 (by decide))
  exact (h4.trans (wrote_put _ stMissed 0#16 (by decide))).of_mem rfl rfl

theorem State.startLink_link (s : State) : s.startLink.link = { Link.reset with rx := { Receiver.off with state := .settle } } := rfl

theorem State.startLink_wrote (s : State) :
    Wrote s s.startLink (wordsAt stCounters (List.replicate 7 0#16) ++ wordsAt stTSurf [0#16, 0#16, 0#16]) := by
  have h := wrote_putList ({ s with link := { Link.reset with rx := { Receiver.off with state := .settle } } } : State) stTSurf
    [0#16, sourceCode .none, 0#16] (by decide)
  exact (h.trans (wrote_putList _ stCounters (List.replicate 7 0#16) (by decide))).of_mem rfl rfl

/-- The firing state that follows the level of PERMIT (R29). -/
def firingOf (permit : Bool) : FiringState := if permit then .permitted else .suspended

theorem State.seedFiring_firing (s : State) : s.seedFiring.firing = firingOf s.pins.permit ∧ s.seedFiring.resumePending = false :=
  ⟨rfl, rfl⟩

theorem State.seedFiring_wrote (s : State) :
    Wrote s s.seedFiring (ifChanged (s.firing ≠ firingOf s.pins.permit) stFiring (firingCode (firingOf s.pins.permit))) :=
  (s.setFiring_wrote (firingOf s.pins.permit)).of_mem rfl rfl

theorem State.stopBlocks_wrote (s : State) (present : Bool) :
    Wrote s (s.stopBlocks present) (ifChanged (s.firing ≠ firingOf s.pins.permit) stFiring (firingCode (firingOf s.pins.permit))
      ++ ifChanged (s.tracker.state ≠ .idle) stTracking 0#16 ++ wordsAt stCounters (List.replicate 7 0#16)
      ++ wordsAt stTSurf [0#16, 0#16, 0#16]) := by
  have h1 := s.startLink_wrote
  have h2 := h1.trans ((State.setTrack_wrote { s.startLink with slot := none, tracker := haltTracker s.startLink.tracker } .idle).of_mem
    (s' := s.startLink) rfl rfl)
  have h3 := h2.trans (State.seedFiring_wrote _)
  have h4 := h3.of_mem (s' := s) (t' := s.stopBlocks present) rfl rfl
  exact h4.congr fun a _ => by simp only [List.append_assoc]; rfl

/-- Steps 1 to 4 of R10 with the POOL_LOW judgement: the setup in force and the run counters at 0. -/
def State.setUp (s : State) : State := (((s.put stSetupError Config.noneWord).takeSetup).judgeLowAtRun).clearRunCounters

/-- Whether the free list stands below the pool_low that a RUN brings into force (R163). -/
def State.lowAtRun (s : State) : Bool := decide (s.pool.free.length < (setupOf s.mem).poolLow)

theorem State.poolIsLow_atRun (s : State) : (s.put stSetupError Config.noneWord).takeSetup.poolIsLow = s.lowAtRun := by
  rw [State.poolIsLow, State.cfg, State.takeSetup_setup]
  rfl

theorem State.setUp_eq (s : State) :
    s.setUp = { s with
      mem := s.setUp.mem, setup := some (setupOf s.mem), tracker := { s.tracker with pLast := none }
      pool := { s.pool with lowArmed := !s.lowAtRun }
      attnCause := if s.lowAtRun then s.attnCause ||| causePoolLow else s.attnCause
      heads := s.heads.map (fun h => { h with stray := 0 }), tubesCompleted := 0, tubesMissed := 0 } := by
  have hframe := ((s.put stSetupError Config.noneWord).takeSetup).judgeLowAtRun.clearRunCounters_frame
  have hheads := ((s.put stSetupError Config.noneWord).takeSetup).judgeLowAtRun.clearRunCounters_heads
  have hcounts := ((s.put stSetupError Config.noneWord).takeSetup).judgeLowAtRun.clearRunCounters_counts
  rw [State.judgeLowAtRun_eq, State.poolIsLow_atRun] at hframe hheads hcounts
  rw [State.setUp, State.judgeLowAtRun_eq, State.poolIsLow_atRun]
  generalize State.clearRunCounters _ = t at *
  cases t
  simp only [State.mk.injEq] at *
  simp only [hframe, hheads, hcounts, State.takeSetup_setup, State.takeSetup_tracker, State.takeSetup_frame, State.put_tracker,
    State.put_pool, State.put_attnCause, State.put_heads]
  simp

theorem State.setUp_wrote (s : State) :
    Wrote s s.setUp ([(stMissed, 0#16), (stCompleted, 0#16), (stStray + 3, 0#16), (stStray + 2, 0#16), (stStray + 1, 0#16), (stStray, 0#16)]
      ++ ifChanged (speedOf s.cfg.encStep s.tracker.pLast ≠ 0) stSpeed 0#16 ++ [(stSetupError, 0xFFFF#16)]) := by
  have h1 := wrote_put s stSetupError Config.noneWord (by decide)
  have h2 := h1.trans (State.takeSetup_wrote _)
  have h3 : Wrote s ((s.put stSetupError Config.noneWord).takeSetup.judgeLowAtRun)
      (ifChanged (speedOf s.cfg.encStep s.tracker.pLast ≠ 0) stSpeed 0#16 ++ [(stSetupError, 0xFFFF#16)]) :=
    h2.of_mem rfl (by rw [State.judgeLowAtRun_eq])
  exact (h3.trans (State.clearRunCounters_wrote _)).congr fun a _ => by rw [List.append_assoc]

theorem State.stopBlocks_eq (s : State) (present : Bool) :
    s.stopBlocks present = { s with
      mem := (s.stopBlocks present).mem, slot := none
      link := { Link.reset with rx := { Receiver.off with state := .settle } }
      tracker := { s.tracker with
        state := .idle, stallLimit := none, episode := 0, fresh := false, encLevel := false, encRun := 0, encPhase := 0 }
      firing := firingOf s.pins.permit, resumePending := false, presence := { level := present, run := 0 } } := by
  refine State.eq_withMem _ { s with
      slot := none
      link := { Link.reset with rx := { Receiver.off with state := .settle } }
      tracker := { s.tracker with
        state := .idle, stallLimit := none, episode := 0, fresh := false, encLevel := false, encRun := 0, encPhase := 0 }
      firing := firingOf s.pins.permit, resumePending := false, presence := { level := present, run := 0 } } ?_
  simp [State.stopBlocks, State.seedFiring_firing, State.startLink, haltTracker]

/-- The part after steps 1 to 7 of R10, in one record. -/
theorem State.prepareRun_withMem (s : State) :
    s.prepareRun = { s with
      mem := s.prepareRun.mem, setup := some (setupOf s.mem), pool := { s.pool with lowArmed := !s.lowAtRun }
      attnCause := if s.lowAtRun then s.attnCause ||| causePoolLow else s.attnCause
      heads := s.heads.map (fun h => { h with stray := 0 }), tubesCompleted := 0, tubesMissed := 0, slot := none
      link := { Link.reset with rx := { Receiver.off with state := .settle } }
      tracker := { s.tracker with
        state := .idle, pLast := none, stallLimit := none, episode := 0, fresh := false, encLevel := false, encRun := 0, encPhase := 0 }
      firing := firingOf s.pins.permit, resumePending := false, presence := { level := s.pins.present, run := 0 } } := by
  have hprepare : s.prepareRun = s.setUp.stopBlocks s.pins.present := by unfold State.prepareRun State.stopBlocks State.setUp; rfl
  refine State.eq_withMem _ { s with
      setup := some (setupOf s.mem), pool := { s.pool with lowArmed := !s.lowAtRun }
      attnCause := if s.lowAtRun then s.attnCause ||| causePoolLow else s.attnCause
      heads := s.heads.map (fun h => { h with stray := 0 }), tubesCompleted := 0, tubesMissed := 0, slot := none
      link := { Link.reset with rx := { Receiver.off with state := .settle } }
      tracker := { s.tracker with
        state := .idle, pLast := none, stallLimit := none, episode := 0, fresh := false, encLevel := false, encRun := 0, encPhase := 0 }
      firing := firingOf s.pins.permit, resumePending := false, presence := { level := s.pins.present, run := 0 } } ?_
  rw [hprepare, State.stopBlocks_eq]
  generalize hu : s.setUp = u
  have h := s.setUp_eq
  rw [hu] at h
  rw [h]

/-- The words of steps 1 to 7 of R10, the last ones first. -/
def State.prepareWords (s : State) : List (Nat × Word) :=
  ifChanged (s.firing ≠ firingOf s.pins.permit) stFiring (firingCode (firingOf s.pins.permit))
    ++ ifChanged (s.tracker.state ≠ .idle) stTracking 0#16 ++ wordsAt stCounters (List.replicate 7 0#16)
    ++ wordsAt stTSurf [0#16, 0#16, 0#16]
    ++ [(stMissed, 0#16), (stCompleted, 0#16), (stStray + 3, 0#16), (stStray + 2, 0#16), (stStray + 1, 0#16), (stStray, 0#16)]
    ++ ifChanged (speedOf s.cfg.encStep s.tracker.pLast ≠ 0) stSpeed 0#16 ++ [(stSetupError, 0xFFFF#16)]

theorem State.prepareRun_wrote (s : State) : Wrote s s.prepareRun s.prepareWords := by
  have hprepare : s.prepareRun = s.setUp.stopBlocks s.pins.present := by unfold State.prepareRun State.stopBlocks State.setUp; rfl
  have hstop := s.setUp.stopBlocks_wrote s.pins.present
  have heq := s.setUp_eq
  have hfiring : s.setUp.firing = s.firing := by rw [heq]
  have hpins : s.setUp.pins = s.pins := by rw [heq]
  have htrack : s.setUp.tracker.state = s.tracker.state := by rw [heq]
  rw [hfiring, hpins, htrack, ← hprepare] at hstop
  exact (s.setUp_wrote.trans hstop).congr fun a _ => by simp only [State.prepareWords, List.append_assoc]

/-! ### The first cycle (R16, R17, R151, R152) -/

/-- An amendment of an order that no tube uses goes into the snapshot, and is answered (R152). -/
theorem State.applyAtCycle_unused (s : State) (j : SlotNo) (y : Amendment) (fired : Bool) (h : s.orderInUse ≠ some j) :
    s.applyAtCycle j y fired = (s.setSlot j (amendedSlot s.slots[j] y)).answerSlot j ansOk := by
  unfold State.applyAtCycle
  simp only [h, decide_false]
  cases (amendedSlot s.slots[j] y).snapshot <;> rfl

/-- The slots after the application of the amendment that is due at a cycle start, if one is. -/
def State.slotsAtRun (s : State) : Vector OrderSlot 4 :=
  match s.dueAmendment with
  | some (j, y) => vset s.slots j (amendedSlot s.slots[j] y)
  | none => s.slots

def State.slotWordsAtRun (s : State) : List (Nat × Word) :=
  match s.dueAmendment with
  | some (j, _) => [(slotAddr j 1, 0#16), (slotAddr j 2, 1#16)]
  | none => []

theorem State.cycleAmend_unused (s : State) (fired : Bool) (h : ∀ p, s.dueAmendment = some p → s.orderInUse ≠ some p.1) :
    s.cycleAmend fired = { s with
        mem := (s.cycleAmend fired).mem, slots := s.slotsAtRun
        attnCause := s.attnCause ||| (if s.dueAmendment.isSome then causeRequest else 0#8) }
      ∧ Wrote s (s.cycleAmend fired) s.slotWordsAtRun := by
  unfold State.cycleAmend State.slotsAtRun State.slotWordsAtRun
  cases hd : s.dueAmendment with
  | none =>
    refine ⟨?_, wrote_nil s s rfl⟩
    simp
  | some p =>
    obtain ⟨j, y⟩ := p
    simp only [s.applyAtCycle_unused j y fired (h _ hd)]
    exact ⟨rfl, wrote_setSlot_answer s j (amendedSlot s.slots[j] y) ansOk⟩

/-- After RUN's preparation no firing returns: the firing state follows PERMIT already (R10, R32). -/
theorem State.restartFiring_prepared {s : State} (h : s.firing = firingOf s.pins.permit) : s.restartFiring = s := by
  unfold State.restartFiring
  rw [if_neg]
  rw [h]
  cases s.pins.permit <;> simp [firingOf]

/-- The gauge state that a RUN leads to (R10, step 7). -/
def State.gaugeAtRun (s : State) : GaugeState := if s.pins.present then .waitClear else .armed

theorem State.startRun_of_prepared (s : State) :
    s.startRun = ((((s.prepareRun.cycleAmend false).openCycle).setGauge s.gaugeAtRun).answerCmd ansCmdOk) := by
  have hfiring : s.prepareRun.firing = firingOf s.prepareRun.pins.permit := by rw [s.prepareRun_withMem]
  unfold State.startRun State.freshCycle State.gaugeAtRun
  rw [State.restartFiring_prepared hfiring]

/-- The words of a successful RUN, as `Obligations.RunWithValidSetupStarts` lists them. -/
def State.runWords (s : State) : List (Nat × Word) :=
  [(stGauge, if s.pins.present then 5#16 else 2#16), (stSetupError, 0xFFFF#16), (stCommand, 1#16),
      (stCompleted, 0#16), (stMissed, 0#16), (stTSurf, 0#16), (stSource, 0#16), (stAge, 0#16)]
    ++ wordsAt stCounters (List.replicate 7 0#16) ++ wordsAt stStray (List.replicate 4 0#16)
    ++ ifChanged (speedOf s.cfg.encStep s.tracker.pLast ≠ 0) stSpeed 0#16
    ++ ifChanged (s.tracker.state ≠ .idle) stTracking 0#16
    ++ ifChanged (s.firing ≠ firingOf s.pins.permit) stFiring (firingCode (firingOf s.pins.permit)) ++ s.slotWordsAtRun

theorem State.runWords_perm (s : State) :
    s.runWords.Perm ([(stCommand, 1#16), (stGauge, if s.pins.present then 5#16 else 2#16)] ++ s.slotWordsAtRun ++ s.prepareWords) := by
  refine List.perm_iff_count.2 fun x => ?_
  have hlink : wordsAt stTSurf [0#16, 0#16, 0#16] = [(stTSurf, 0#16), (stSource, 0#16), (stAge, 0#16)] := rfl
  have hstray : wordsAt stStray (List.replicate 4 0#16)
      = [(stStray, 0#16), (stStray + 1, 0#16), (stStray + 2, 0#16), (stStray + 3, 0#16)] := rfl
  simp only [State.runWords, State.prepareWords, hlink, hstray, List.count_append, List.count_cons, List.count_nil]
  omega

/-- The status words lie before the order slots (Table 10-1). -/
theorem slotWordsAtRun_keys (s : State) :
    (s.slotWordsAtRun.map Prod.fst).Nodup ∧ ∀ a ∈ s.slotWordsAtRun.map Prod.fst, 0x200 ≤ a := by
  unfold State.slotWordsAtRun
  cases s.dueAmendment with
  | none => simp
  | some p => simp [slotAddr, Config.slotBase]; omega

theorem State.runWords_nodup (s : State) : (s.runWords.map Prod.fst).Nodup := by
  obtain ⟨hslots, hhigh⟩ := slotWordsAtRun_keys s
  have hsub : ((s.runWords.map Prod.fst)).Sublist
      (([stGauge, stSetupError, stCommand, stCompleted, stMissed, stTSurf, stSource, stAge] ++ List.range' stCounters 7
        ++ List.range' stStray 4 ++ [stSpeed] ++ [stTracking] ++ [stFiring]) ++ s.slotWordsAtRun.map Prod.fst) := by
    simp only [State.runWords, List.map_append, wordsAt_keys]
    exact (((((List.Sublist.refl _).append (ifChanged_keys _ _ _)).append (ifChanged_keys _ _ _)).append (ifChanged_keys _ _ _)).append
      (List.Sublist.refl _))
  refine List.Nodup.sublist hsub (List.nodup_append'.2 ⟨by decide, hslots, fun a ha hb => ?_⟩)
  have hlow : ∀ b ∈ ([stGauge, stSetupError, stCommand, stCompleted, stMissed, stTSurf, stSource, stAge] ++ List.range' stCounters 7
        ++ List.range' stStray 4 ++ [stSpeed] ++ [stTracking] ++ [stFiring]), b < 0x200 := by decide
  exact absurd (hlow a ha) (Nat.not_lt.2 (hhigh a hb))

/-- The part after a successful RUN, but for the memory (R10). -/
def State.runState (s : State) : State :=
  { s with
    gauge := s.gaugeAtRun, setup := some (setupOf s.mem)
    attnCause := (if s.lowAtRun then s.attnCause ||| causePoolLow else s.attnCause)
      ||| (if s.dueAmendment.isSome then causeRequest else 0#8)
    slots := s.slotsAtRun, pool := { s.pool with lowArmed := !s.lowAtRun }, tubesCompleted := 0, tubesMissed := 0
    heads := s.heads.map (fun h => { h with stray := 0 })
    link := { Link.reset with rx := { Receiver.off with state := .settle } }
    tracker := { s.tracker with
      state := .idle, pLast := none, stallLimit := none, episode := 0, fresh := false, encLevel := false, encRun := 0, encPhase := 0 }
    firing := firingOf s.pins.permit, resumePending := false, presence := { level := s.pins.present, run := 0 }
    cycleAt := s.now, slot := some { head := 0, startAt := s.now, phase := .quiet 0 } }

/-- Settles O9: RUN prepares every block, then the amendment that waits for the first cycle goes over, and slot 0 begins. -/
theorem runWithValidSetupStarts : Obligations.RunWithValidSetupStarts := by
  intro s hr hg hunused hvalid
  have hrun : s.run = s.startRun := by
    have herror : setupError s.mem = none := (setupError_none_iff s.mem).2 hvalid
    unfold State.run
    simp only [hg, herror]
  have hprep := s.prepareRun_withMem
  have hdue : s.prepareRun.dueAmendment = s.dueAmendment := by rw [hprep]; rfl
  have huse : s.prepareRun.orderInUse = s.orderInUse := by rw [hprep]; rfl
  have hslots : s.prepareRun.slotsAtRun = s.slotsAtRun := by
    unfold State.slotsAtRun
    simp only [hdue, State.prepareRun_frame]
  have hslotWords : s.prepareRun.slotWordsAtRun = s.slotWordsAtRun := by
    unfold State.slotWordsAtRun
    rw [hdue]
  obtain ⟨hamend, hwords⟩ := s.prepareRun.cycleAmend_unused false (by rw [hdue, huse]; exact hunused)
  rw [hslots, hdue] at hamend
  rw [hslotWords] at hwords
  refine ⟨s.startRun, (exec_run_zero s hr (by simp [hg])).trans (congrArg _ hrun), ?_, ?_⟩
  · refine State.eq_withMem _ s.runState ?_
    have hlast : { s.startRun with mem := [] } = ({ s.prepareRun.cycleAmend false with
        mem := [], gauge := s.gaugeAtRun, cycleAt := (s.prepareRun.cycleAmend false).now
        slot := some { head := 0, startAt := (s.prepareRun.cycleAmend false).now, phase := .quiet 0 } } : State) := by
      rw [s.startRun_of_prepared]
      rfl
    rw [hlast, hamend, hprep]
    rfl
  · rw [s.startRun_of_prepared]
    have hgauge := (s.prepareRun_wrote.trans hwords).trans
        ((State.setGauge_wrote (s.prepareRun.cycleAmend false).openCycle s.gaugeAtRun).of_mem
      (s' := s.prepareRun.cycleAmend false) rfl rfl)
    have hcode : gaugeCode s.gaugeAtRun = if s.pins.present then 5#16 else 2#16 := by
      unfold State.gaugeAtRun
      cases s.pins.present <;> rfl
    have hfiring : firingCode (firingOf s.pins.permit) = if s.pins.permit then 1#16 else 0#16 := by
      unfold firingOf
      cases s.pins.permit <;> rfl
    rw [hcode] at hgauge
    have hall := hgauge.trans (State.answerCmd_wrote _ ansCmdOk)
    have hlisted := wrote_of_perm (hall.congr fun a _ => by simp only [List.cons_append, List.nil_append]; rfl)
      s.runWords_perm s.runWords_nodup
    refine hlisted.congr fun a _ => ?_
    simp only [State.runWords, hfiring]
    rfl

end Sys2Proof.Machine
end

section
/-! PROOFS. The receiver, the assembler and the timers of the temperature link (chapter 4), and the accumulators of a tube (R103 to R107,
R115, R116). -/

namespace Sys2Proof.Machine

open Safety

/-! ### Receiver and timers (R56, R61, R65) -/

theorem State.gapExpires_running {s : State} {bytes : List Byte} {at0 : Nat} (h : s.link.asm = .collecting bytes)
    (hg : s.link.gapAt = some at0) : s.gapExpires = s.dropTelegram.countTruncated := by
  unfold State.gapExpires
  simp only [h, hg, Option.isSome_some, if_true]

theorem State.gapExpires_stopped {s : State} (h : s.link.asm = .awaitMarker ∨ s.link.gapAt = none) : s.gapExpires = s := by
  unfold State.gapExpires
  cases ha : s.link.asm with
  | awaitMarker => rfl
  | collecting bytes => simp [h.resolve_left (by simp [ha])]

/-- One ms of age with its effect on the source, in one record (R65). -/
theorem State.ageOne_eq {s : State} (h : s.link.source ≠ .none) :
    let age := min (s.link.age + 1) 65535
    let stale := decide (s.link.source = .live ∧ s.cfg.staleMs ≤ age)
    s.ageOne = { s with mem := s.ageOne.mem, link := { s.link with age := age, source := if stale then .stale else s.link.source } }
      ∧ Wrote s s.ageOne (ifChanged (s.link.age ≠ age) stAge (BitVec.ofNat 16 age) ++ ifChanged stale stSource 2#16) := by
  intro age stale
  have hage := s.setAge_wrote age
  have hone : s.ageOne = if s.link.source = .live ∧ s.cfg.staleMs ≤ age then (s.setAge age).setSource .stale else s.setAge age := if_neg h
  rw [hone]
  by_cases hs : s.link.source = .live ∧ s.cfg.staleMs ≤ age
  · have hstale : stale = true := decide_eq_true hs
    have hne : decide ((s.setAge age).link.source ≠ .stale) = true := by
      show decide (s.link.source ≠ .stale) = true
      rw [hs.1]
      rfl
    have hsource := (s.setAge age).setSource_wrote .stale
    rw [hne] at hsource
    rw [if_pos hs, hstale]
    refine ⟨rfl, wrote_append_ifChanged hage hsource ?_⟩
    rw [lookup_ifChanged, if_neg (by simp [stSource, stAge])]
  · have hstale : stale = false := decide_eq_false hs
    rw [if_neg hs, hstale]
    refine ⟨rfl, hage.congr fun a _ => ?_⟩
    rw [lookup_append, lookup_ifChanged false, if_neg (by simp), Option.or_none]
    rfl

/-- Settles O33. -/
theorem linkReceiverAndTimers : Obligations.LinkReceiverAndTimers := by
  intro s
  refine ⟨rfl, rfl, fun mark => ?_, fun bytes at0 hasm hgap => ?_, fun h => congrArg Host.Outcome.next (State.gapExpires_stopped h),
    fun h => congrArg Host.Outcome.next (if_pos h), fun h => ⟨_, rfl, State.ageOne_eq h⟩⟩
  · show Host.Outcome.next (s.midStart mark) = _
    unfold State.midStart
    by_cases h : s.link.rx.state = .start
    · simp only [h, if_true, ne_eq, not_true_eq_false, if_false]
      cases mark <;> rfl
    · simp only [h, if_false, ne_eq, not_false_eq_true, if_true]
  · refine ⟨_, congrArg Host.Outcome.next (State.gapExpires_running hasm hgap), rfl, ?_⟩
    exact (State.count_effect s.dropTelegram 4 _ (by decide)).2.of_mem rfl rfl

/-! ### Frames (R57, R58) -/

theorem inFrame_iff (x : RxState) : inFrame x = true ↔ x = .data ∨ x = .parity ∨ x = .stop := by cases x <;> simp [inFrame]

theorem stopsGood_iff (c : Setup) (f : Frame) : stopsGood c f = true ↔ f.stop1 = true ∧ (c.pyroStop = 2 → f.stop2 = true) := by
  simp only [stopsGood, Bool.and_eq_true, Bool.or_eq_true, bne_iff_ne, ne_eq]
  tauto

/-- A parity bit that matches makes a frame with good stop points a good one (R58). -/
theorem frameGood_of_parityGood {s : State} {f : Frame} (hl : s.link.rx.state = .data ∨ s.link.rx.state = .parity ∨ s.link.rx.state = .stop)
    (hs : f.stop1 = true ∧ (s.cfg.pyroStop = 2 → f.stop2 = true)) (hp : parityGood s.cfg f = true) : FrameGood s f := by
  refine ⟨hl, hs.1, hs.2, ?_⟩
  unfold parityGood at hp
  cases hc : s.cfg.pyroParity with
  | none => exact .inl rfl
  | even =>
    rw [hc] at hp
    cases hb : f.parity <;> simp [oddOnes_eq, hb] at hp ⊢ <;> omega
  | odd =>
    rw [hc] at hp
    cases hb : f.parity <;> simp [oddOnes_eq, hb] at hp ⊢ <;> omega

theorem State.takeFrame_badStop {s : State} {f : Frame} (hl : inFrame s.link.rx.state = true) (hs : stopsGood s.cfg f = false) :
    s.takeFrame f = s.enterSettle.takeFramingError := by
  simp [State.takeFrame, hl, hs]

theorem State.takeFrame_badParity {s : State} {f : Frame} (hl : inFrame s.link.rx.state = true) (hs : stopsGood s.cfg f = true)
    (hp : parityGood s.cfg f = false) : s.takeFrame f = (s.setRx .ready).takeParityError := by
  simp [State.takeFrame, hl, hs, hp]

theorem State.takeByte_awaiting {s : State} (h : s.link.asm = .awaitMarker) (b : Byte) :
    s.takeByte b = if b = Config.marker then s.collect [] else s.countStray := by
  unfold State.takeByte
  simp only [h]

/-- A telegram with fewer than four bytes goes on (R60). -/
theorem State.takeByte_collecting {s : State} {bytes : List Byte} (h : s.link.asm = .collecting bytes) (hl : bytes.length < 3) (b : Byte) :
    s.takeByte b = s.collect (bytes ++ [b]) := by
  unfold State.takeByte
  match bytes, hl with
  | [], _ | [_], _ | [_, _], _ => simp only [h]

theorem State.takeByte_marker {s : State} (h : s.link.asm = .awaitMarker) : s.takeByte Config.marker = s.collect [] := by
  rw [State.takeByte_awaiting h, if_pos rfl]

theorem State.takeByte_stray {s : State} (h : s.link.asm = .awaitMarker) {b : Byte} (hb : b ≠ Config.marker) :
    s.takeByte b = s.countStray := by
  rw [State.takeByte_awaiting h, if_neg hb]

theorem State.countStray_eq_withMem (s : State) :
    s.countStray = { s with
      mem := s.countStray.mem, link := { s.link with counters := { s.link.counters with stray := sat16 s.link.counters.stray } } } := rfl

theorem State.countFraming_eq_withMem (s : State) :
    s.countFraming = { s with
      mem := s.countFraming.mem
      link := { s.link with counters := { s.link.counters with framing := sat16 s.link.counters.framing } } } := rfl

theorem State.countParity_eq_withMem (s : State) :
    s.countParity = { s with
      mem := s.countParity.mem, link := { s.link with counters := { s.link.counters with parity := sat16 s.link.counters.parity } } } := rfl

/-- What a byte does in the assembler (R59, R60). -/
theorem exec_pyroFrame_byte {s : State} {f : Frame} {b : Byte} (hgood : FrameGood s f) (hb : FrameCarries s f b) {t : State}
    (h : (s.setRx .ready).takeByte b = t) : exec (.pyroFrame f) s = .next t := by
  have hexec : exec (.pyroFrame f) s = .next (s.takeFrame f) := rfl
  rw [hexec, State.takeFrame_of_good hgood hb, h]

/-- Settles O34. -/
theorem frameIsJudgedAndAssembled : Obligations.FrameIsJudgedAndAssembled := by
  intro s f
  refine ⟨fun hl => ?_, fun hl hs => ?_, fun hl hs hg => ?_, fun b hgood hb => ⟨?_, ?_, fun bytes hasm hlen => ?_⟩⟩
  · have hout : ¬inFrame s.link.rx.state = true := by rwa [inFrame_iff]
    exact congrArg Host.Outcome.next (if_neg hout)
  · have hbad : stopsGood s.cfg f = false := by rwa [← Bool.not_eq_true, stopsGood_iff]
    refine ⟨_, congrArg Host.Outcome.next (State.takeFrame_badStop ((inFrame_iff _).2 hl) hbad),
      State.countFraming_eq_withMem s.enterSettle.dropTelegram, ?_⟩
    exact (State.count_effect s.enterSettle.dropTelegram 1 _ (by decide)).2.of_mem rfl rfl
  · have hbad : parityGood s.cfg f = false := by
      rw [← Bool.not_eq_true]
      exact fun hp => hg (frameGood_of_parityGood hl hs hp)
    refine ⟨_, congrArg Host.Outcome.next (State.takeFrame_badParity ((inFrame_iff _).2 hl) ((stopsGood_iff _ _).2 hs) hbad),
      State.countParity_eq_withMem (s.setRx .ready).dropTelegram, ?_⟩
    exact (State.count_effect (s.setRx .ready).dropTelegram 2 _ (by decide)).2.of_mem rfl rfl
  · rintro ⟨hasm, rfl⟩
    exact exec_pyroFrame_byte hgood hb (State.takeByte_marker (s := s.setRx .ready) hasm)
  · rintro ⟨hasm, hmark⟩
    refine ⟨_, exec_pyroFrame_byte hgood hb (State.takeByte_stray (s := s.setRx .ready) hasm hmark),
      State.countStray_eq_withMem (s.setRx .ready), ?_⟩
    exact (State.count_effect (s.setRx .ready) 6 _ (by decide)).2.of_mem rfl rfl
  · exact exec_pyroFrame_byte hgood hb (State.takeByte_collecting (s := s.setRx .ready) hasm hlen b)

/-! ### Accumulators (R103 to R106) -/

theorem newAccum_ok (i : Nat) (f : Word) : AccumOk (newAccum i f) where
  empty := by simp [newAccum]
  sums := by simp [newAccum]
  sectors := by simp [newAccum]
  idle := by simp [newAccum]
  counts := by simp [newAccum]

/-- What an accumulator looks like that counts a VALID shot in its sector, or leaves a saturated sector alone (R105, step 5). -/
theorem addSector_cases (a : Accum) (i : Fin 32) (t : Nat) :
    (a.counts[i] < 65535 ∧ addSector a i t = { a with
        counts := vset a.counts i (a.counts[i] + 1), sums := vset a.sums i (a.sums[i] + t) })
      ∨ (¬a.counts[i] < 65535 ∧ addSector a i t = a) := by
  by_cases h : a.counts[i] < 65535
  · exact .inl ⟨h, if_pos h⟩
  · exact .inr ⟨h, if_neg h⟩

theorem list_sum_set (l : List Nat) (i : Nat) (h : i < l.length) (x : Nat) : (l.set i x).sum + l[i] = l.sum + x := by
  induction l generalizing i with
  | nil => simp at h
  | cons y l ih =>
    cases i with
    | zero => simp only [List.set_cons_zero, List.sum_cons, List.getElem_cons_zero]; omega
    | succ i =>
      have := ih i (by simpa using h)
      simp only [List.set_cons_succ, List.sum_cons, List.getElem_cons_succ]
      omega

theorem vset_sum (v : Vector Nat 32) (i : Fin 32) (x : Nat) : (vset v i x).toList.sum + v[i] = v.toList.sum + x := by
  have hset : (vset v i x).toList = v.toList.set i.val x := by simp [vset, Vector.toList_set]
  rw [hset, ← list_sum_set v.toList i.val (by simp) x]
  simp

/-- The sector counts and sums after one more shot of thickness `t` lie between the extremes as widened by `t` (R105). -/
theorem addSector_bounds {a : Accum} {i : Fin 32} {t lo hi : Nat} (hlo : lo ≤ t) (hhi : t ≤ hi)
    (h : ∀ k : Fin 32, a.counts[k] * lo ≤ a.sums[k] ∧ a.sums[k] ≤ a.counts[k] * hi) (k : Fin 32) :
    (addSector a i t).counts[k] * lo ≤ (addSector a i t).sums[k] ∧ (addSector a i t).sums[k] ≤ (addSector a i t).counts[k] * hi := by
  rcases addSector_cases a i t with ⟨-, e⟩ | ⟨-, e⟩
  · rw [e]
    dsimp only
    rw [vset_getFin, vset_getFin]
    split
    · obtain ⟨h1, h2⟩ := h i
      rw [Nat.add_mul, Nat.add_mul]
      omega
    · exact h k
  · rw [e]
    exact h k

/-- Where no sector is saturated after it, one more shot counts in its sector (R105). -/
theorem addSector_counts {a : Accum} {i : Fin 32} {t : Nat} (h : ∀ k : Fin 32, (addSector a i t).counts[k] < 65535) :
    (∀ k : Fin 32, a.counts[k] < 65535) ∧ (addSector a i t).counts.toList.sum = a.counts.toList.sum + 1 := by
  rcases addSector_cases a i t with ⟨hi, e⟩ | ⟨hi, e⟩
  · rw [e] at h ⊢
    refine ⟨fun k => ?_, ?_⟩
    · have hk := h k
      dsimp only at hk
      rw [vset_getFin] at hk
      split at hk
      · next heq => subst heq; omega
      · exact hk
    · have := vset_sum a.counts i (a.counts[i] + 1)
      dsimp only
      omega
  · rw [e] at h
    exact absurd (h i) hi

/-- The extremes widened by a thickness (R105). -/
theorem widen_one (range : Option (Nat × Nat)) (t : Nat) :
    ∃ lo hi, widen range t t = some (lo, hi) ∧ lo ≤ t ∧ t ≤ hi ∧ (range = none → lo = t ∧ hi = t)
      ∧ ∀ a b, range = some (a, b) → lo ≤ a ∧ b ≤ hi ∧ (lo = a ∨ lo = t) := by
  cases range with
  | none => exact ⟨t, t, rfl, le_rfl, le_rfl, fun _ => ⟨rfl, rfl⟩, nofun⟩
  | some p =>
    obtain ⟨a, b⟩ := p
    refine ⟨min a t, max b t, rfl, min_le_right _ _, le_max_right _ _, nofun, ?_⟩
    rintro _ _ ⟨⟩
    exact ⟨min_le_left _ _, le_max_left _ _, min_choice a t⟩

/-- The extremes and the sums of an accumulator lie within any wider extremes (R105, R116). -/
theorem accumOk_within {a : Accum} (h : AccumOk a) {lo hi : Nat} (hr : ∀ x y, a.range = some (x, y) → lo ≤ x ∧ y ≤ hi) :
    (a.n * lo ≤ a.sumT ∧ a.sumT ≤ a.n * hi) ∧ ∀ k : Fin 32, a.counts[k] * lo ≤ a.sums[k] ∧ a.sums[k] ≤ a.counts[k] * hi := by
  cases he : a.range with
  | none =>
    have hn : a.n = 0 := h.empty.1 he
    obtain ⟨hsum, hsec⟩ := h.idle hn
    refine ⟨by simp [hn, hsum], fun k => ?_⟩
    obtain ⟨hc, hs⟩ := hsec k
    rw [hc, hs]
    simp
  | some p =>
    obtain ⟨x, y⟩ := p
    obtain ⟨hx, hy⟩ := hr x y he
    obtain ⟨-, -, h1, h2⟩ := h.sums x y he
    refine ⟨⟨(Nat.mul_le_mul_left _ hx).trans h1, h2.trans (Nat.mul_le_mul_left _ hy)⟩, fun k => ?_⟩
    obtain ⟨h3, h4⟩ := h.sectors x y k he
    exact ⟨(Nat.mul_le_mul_left _ hx).trans h3, h4.trans (Nat.mul_le_mul_left _ hy)⟩

theorem addValid_ok {a : Accum} {r : ShotRecord} (h : AccumOk a) (ht : 1 ≤ r.t) : AccumOk (addValid a r) := by
  unfold addValid
  split
  case isFalse => exact h
  case isTrue =>
    obtain ⟨lo, hi, hw, hlo, hhi, hnone, hsome⟩ := widen_one a.range r.t
    have hwithin := accumOk_within h (lo := lo) (hi := hi) fun x y hxy => ⟨(hsome x y hxy).1, (hsome x y hxy).2.1⟩
    have hpos : 1 ≤ lo := by
      cases he : a.range with
      | none => rw [(hnone he).1]; exact ht
      | some p =>
        rcases (hsome p.1 p.2 he).2.2 with e | e
        · rw [e]; exact (h.sums p.1 p.2 he).1
        · rw [e]; exact ht
    constructor
    case empty => simp [hw]
    case sums =>
      intro x y hxy
      obtain ⟨rfl, rfl⟩ : lo = x ∧ hi = y := by simpa [hw] using hxy
      obtain ⟨⟨h1, h2⟩, -⟩ := hwithin
      refine ⟨hpos, hlo.trans hhi, ?_, ?_⟩ <;> (dsimp only; rw [Nat.add_mul]; omega)
    case sectors =>
      intro x y k hxy
      obtain ⟨rfl, rfl⟩ : lo = x ∧ hi = y := by simpa [hw] using hxy
      exact addSector_bounds hlo hhi hwithin.2 k
    case idle => simp
    case counts =>
      intro hc
      obtain ⟨hold, hsum⟩ := addSector_counts hc
      exact hsum.trans (congrArg (· + 1) (h.counts hold))

/-- What a shot does to an accumulator besides its thickness leaves the law alone. -/
theorem accumOk_of_eq {a b : Accum} (h : AccumOk a) (hn : b.n = a.n) (hr : b.range = a.range) (ht : b.sumT = a.sumT)
    (hc : b.counts = a.counts) (hs : b.sums = a.sums) : AccumOk b where
  empty := by rw [hn, hr]; exact h.empty
  sums := by rw [hn, hr, ht]; exact h.sums
  sectors := by rw [hr, hc, hs]; exact h.sectors
  idle := by rw [hn, ht, hc, hs]; exact h.idle
  counts := by rw [hn, hc]; exact h.counts

theorem addOutcome_ok {a : Accum} {r : ShotRecord} (h : AccumOk a) (ht : r.outcome = .valid → 1 ≤ r.t) : AccumOk (addOutcome a r) := by
  unfold addOutcome
  cases ho : r.outcome with
  | valid => exact addValid_ok h (ht ho)
  | outOfBand | noPair | noEcho | noisy | misfire => exact accumOk_of_eq h rfl rfl rfl rfl rfl

theorem takeInto_ok {a : Accum} {r : ShotRecord} (h : AccumOk a) (ht : r.outcome = .valid → 1 ≤ r.t) : AccumOk (takeInto a r) :=
  accumOk_of_eq (addOutcome_ok h ht) rfl rfl rfl rfl rfl

/-- "Nearest" of a quotient lies between whole numbers that the quotient lies between (R1). -/
theorem nearestNat_between {a b lo hi : Nat} (hb : 0 < b) (h1 : b * lo ≤ a) (h2 : a ≤ b * hi) :
    lo ≤ nearestNat a b ∧ nearestNat a b ≤ hi := by
  unfold nearestNat
  constructor
  · rw [Nat.le_div_iff_mul_le (by omega)]
    nlinarith
  · rw [← Nat.lt_succ_iff, Nat.div_lt_iff_lt_mul (by omega)]
    nlinarith

/-- Settles O49. -/
theorem sectionExtremesBoundItsMeans : Obligations.SectionExtremesBoundItsMeans := by
  refine ⟨newAccum_ok, fun a r h ht => takeInto_ok h ht, fun lSec occMin endZ a f h hn => ?_⟩
  obtain ⟨hmin, hmax, hmean, -, -, hmeans, -⟩ := completeAccum_of_pos lSec occMin endZ f hn
  obtain ⟨p, hp⟩ : ∃ p, a.range = some p := Option.ne_none_iff_exists'.1 fun he => (Nat.pos_iff_ne_zero.1 hn) (h.empty.1 he)
  obtain ⟨lo, hi⟩ := p
  obtain ⟨hpos, -, h1, h2⟩ := h.sums lo hi hp
  simp only [hp, Option.getD_some] at hmin hmax
  obtain ⟨hm1, hm2⟩ := nearestNat_between hn h1 h2
  simp only [hmin, hmax, hmean, hmeans]
  refine ⟨hm1, hm2, hpos, fun i hi0 => ?_⟩
  have hsector : (sectorMeans a)[i] = if a.counts[i] = 0 then 0 else nearestNat a.sums[i] a.counts[i] := by
    simp [sectorMeans]
  rw [hsector] at hi0 ⊢
  by_cases hc : a.counts[i] = 0
  · exact absurd (if_pos hc) hi0
  · rw [if_neg hc]
    exact nearestNat_between (Nat.pos_iff_ne_zero.2 hc) (h.sectors lo hi i hp).1 (h.sectors lo hi i hp).2

/-! ### Shot records (R104 to R107, R126) -/

theorem giveIf_eq (b : Bool) (f w : Word) : giveIf b f w = w ||| if b = true then f else 0#16 := rfl

theorem isLate_iff (x : Tube) (r : ShotRecord) :
    isLate x r = true ↔ r.unmapped = false ∧ (∀ b ∈ x.opened, r.secIdx < b.index) ∧ ∀ b ∈ x.closing, r.secIdx < b.index := by
  simp [isLate, List.all_append]

/-- The totals after a shot record, each by its own condition (Table 8-2). -/
theorem addRecordTotals_eq (late : Bool) (r : ShotRecord) (u : Totals) :
    addRecordTotals late r u = { u with
      valid := if r.outcome = .valid then sat32 u.valid 1 else u.valid
      noEcho := if r.outcome = .noEcho then sat32 u.noEcho 1 else u.noEcho
      noPair := if r.outcome = .noPair then sat32 u.noPair 1 else u.noPair
      outOfBand := if r.outcome = .outOfBand then sat32 u.outOfBand 1 else u.outOfBand
      noisy := if r.outcome = .noisy then sat32 u.noisy 1 else u.noisy
      misfire := if r.outcome = .misfire then sat32 u.misfire 1 else u.misfire
      unmapped := if r.unmapped = true then sat32 u.unmapped 1 else u.unmapped
      late := if late = true then sat32 u.late 1 else u.late } := by
  unfold addRecordTotals
  cases r.outcome <;> simp

/-- A VALID record in an accumulator, field by field (R105). -/
theorem addValid_eq (a : Accum) (r : ShotRecord) (h : a.n < 4294967295) :
    addValid a r = { a with
      counts := if a.counts[r.sector] < 65535 then vset a.counts r.sector (a.counts[r.sector] + 1) else a.counts
      sums := if a.counts[r.sector] < 65535 then vset a.sums r.sector (a.sums[r.sector] + r.t) else a.sums
      n := a.n + 1, sumT := a.sumT + r.t, sumT2 := a.sumT2 + r.t * r.t, range := widen a.range r.t r.t, sumTEff := a.sumTEff + r.tEff
      heads := vset a.heads r.head (sat16 a.heads[r.head]) } := by
  rw [addValid, if_pos h]
  rcases addSector_cases a r.sector r.t with ⟨hc, e⟩ | ⟨hc, e⟩
  · rw [e, if_pos hc, if_pos hc]
  · rw [e, if_neg hc, if_neg hc]

/-- Settles O60. -/
theorem shotRecordReachesTubeAndSection : Obligations.ShotRecordReachesTubeAndSection := by
  refine fun r x a => ⟨?_, ?_⟩
  · have hroute : routeTo r = fun b : Accum => if r.unmapped = false ∧ b.index = r.secIdx then takeInto b r else b := by
      funext b
      simp [routeTo]
    have hlate := isLate_iff x r
    unfold tubeTakes
    rw [addRecordTotals_eq, hroute]
    by_cases h : isLate x r = true
    · simp only [h, if_true, giveIf_eq, sat32, if_pos (hlate.1 h)]
    · have hn := fun g => h (hlate.2 g)
      simp only [h, Bool.false_eq_true, if_false, giveIf_eq, sat32, if_neg hn]
  · have hflags : ∀ w, giveIf r.tempClamped sfTempClamped (giveIf r.tempFallback sfTempFallback (giveIf r.estimated sfEstimated w))
        = w ||| (if r.estimated then sfEstimated else 0#16) ||| (if r.tempFallback then sfTempFallback else 0#16)
          ||| (if r.tempClamped then sfTempClamped else 0#16) := fun w => rfl
    unfold takeInto addOutcome
    cases ho : r.outcome with
    | valid =>
      by_cases hn : a.n < 4294967295
      · simp only [addValid_eq a r hn, hn, hflags, and_self, true_and, if_true, reduceCtorEq, if_false, sat16, widen, pow_two]
        cases a.range <;> rfl
      · simp [addValid, hn, hflags, sat16]
    | outOfBand | noPair | noEcho | noisy | misfire => simp [hflags, sat16]

end Sys2Proof.Machine
end

section
/-! PROOFS. The echo channels (chapter 3) and the confirm of a shot (2.4): the phases that an edge, a crossing and the channel's timers
lead to. -/

namespace Sys2Proof.Machine

open Safety

/-! ### The phase of a channel (R36) -/

theorem State.channelPhase_own {s : State} {k : Head} {at0 : Nat} {p : Phase}
    (h : s.slot = some { head := k, startAt := at0, phase := p }) : s.channelPhase k = p := by
  simp [State.channelPhase, h]

theorem State.channelPhase_other {s : State} {k h : Head} {at0 : Nat} {p : Phase}
    (hs : s.slot = some { head := h, startAt := at0, phase := p }) (hne : h ≠ k) : s.channelPhase k = .idle := by
  simp [State.channelPhase, hs, hne]

theorem State.setPhase_eq {s : State} {k : Head} {at0 : Nat} {p : Phase} (h : s.slot = some { head := k, startAt := at0, phase := p })
    (q : Phase) : s.setPhase q = { s with slot := some { head := k, startAt := at0, phase := q } } := by
  simp [State.setPhase, h]

/-! ### Confirm and stray confirm (R23, R25) -/

/-- Only the channel of the slot in progress awaits a confirm. -/
theorem State.awaitingShot_eq_some {s : State} {k : Head} {sh : Shot} (h : s.awaitingShot k = some sh) :
    ∃ at0, s.slot = some { head := k, startAt := at0, phase := .awaitConf sh } := by
  unfold State.awaitingShot State.channelPhase at h
  cases hs : s.slot with
  | none => simp [hs] at h
  | some x =>
    obtain ⟨head, at0, p⟩ := x
    simp only [hs] at h
    by_cases hk : head = k
    · subst hk
      cases p <;> simp_all
    · simp [hk] at h

/-- Settles O26. -/
theorem confEdgeConfirmsOrStrays : Obligations.ConfEdgeConfirmsOrStrays := by
  intro s k hg
  refine ⟨fun at0 sh hs => ?_, fun hs => ?_⟩
  · have hconf : s.confEdge k = (s.setMisfires k 0).setPhase (confirmedPhase sh s.now) := by
      have hawait : s.awaitingShot k = some sh := by simp [State.awaitingShot, State.channelPhase_own hs]
      unfold State.confEdge
      simp only [hg, if_false, hawait]
    refine ⟨_, congrArg Host.Outcome.next hconf, ?_, (s.setMisfires_wrote k 0).of_mem rfl rfl⟩
    have hslot : (s.setMisfires k 0).slot = some { head := k, startAt := at0, phase := .awaitConf sh } := hs
    rw [State.setPhase_eq hslot]
    rfl
  · have hconf : s.confEdge k = s.setStray k (sat16 s.heads[k].stray) := by
      have hawait : s.awaitingShot k = none := by
        cases ha : s.awaitingShot k with
        | none => rfl
        | some sh =>
          obtain ⟨at0, h⟩ := State.awaitingShot_eq_some ha
          exact absurd h (hs at0 sh)
      unfold State.confEdge
      simp only [hg, if_false, hawait]
    exact ⟨_, congrArg Host.Outcome.next hconf, rfl, s.setStray_wrote k _⟩

/-! ### Captures (R46 to R51) -/

/-- The window close of a shot does not look at the phase that it ends. -/
theorem State.closeShot_setPhase (s : State) (p : Phase) (k : Head) (sh : Shot) (es : List Nat) (a1 : Option Byte) (cut : Bool) :
    (s.setPhase p).closeShot k sh es a1 cut = s.closeShot k sh es a1 cut := by
  have hphase : (s.setPhase p).setPhase .idle = s.setPhase .idle := by
    unfold State.setPhase
    cases s.slot <;> rfl
  unfold State.closeShot
  rw [hphase]
  rfl

theorem State.windowEnd_opened {s : State} {k : Head} {at0 : Nat} {sh : Shot} {c : Capture}
    (h : s.slot = some { head := k, startAt := at0, phase := .opened sh c }) (a : Byte) :
    s.windowEnd a = s.closeShot k sh c.echoes (amplitudeOf c a) false := by
  unfold State.windowEnd
  simp only [h]

theorem State.sampleAmplitude_opened {s : State} {k : Head} {at0 : Nat} {sh : Shot} {c : Capture}
    (h : s.slot = some { head := k, startAt := at0, phase := .opened sh c }) (a : Byte) :
    s.sampleAmplitude a = if c.echoes.isEmpty || c.sample.isSome then s else s.afterCapture k sh { c with sample := some a } := by
  unfold State.sampleAmplitude
  simp only [h]

/-- A window that closes within a capture closes as WINDOW_END closes it (R48, R51). -/
theorem State.afterCapture_done {s : State} {k : Head} {at0 : Nat} {sh : Shot} {c d : Capture} {x a : Byte}
    (h : s.slot = some { head := k, startAt := at0, phase := .opened sh c }) (hd : captureDone sh.bound d = true)
    (hx : d.sample = some x) (he : d.echoes ≠ []) :
    s.afterCapture k sh d = ({ s with slot := some { head := k, startAt := at0, phase := .opened sh d } } : State).windowEnd a := by
  rw [State.windowEnd_opened rfl, ← State.setPhase_eq h, State.closeShot_setPhase, State.afterCapture, if_pos hd]
  simp [amplitudeOf, he, hx]

theorem State.afterCapture_open {s : State} {k : Head} {at0 : Nat} {sh : Shot} {c d : Capture}
    (h : s.slot = some { head := k, startAt := at0, phase := .opened sh c }) (hd : captureDone sh.bound d = false) :
    s.afterCapture k sh d = { s with slot := some { head := k, startAt := at0, phase := .opened sh d } } := by
  rw [State.afterCapture, hd, if_neg Bool.false_ne_true, State.setPhase_eq h]

/-- Settles O29. -/
theorem blankingHoldOffAndAmplitude : Obligations.BlankingHoldOffAndAmplitude := by
  refine ⟨fun s k at0 sh hs => ?_, fun s k at0 t e sh c hs ht he => ?_, fun s k at0 a sh c hs => ⟨?_, ?_, ?_⟩⟩
  · show Host.Outcome.next s.endBlanking = _
    unfold State.endBlanking
    simp only [hs]
    rw [State.setPhase_eq hs]
    rfl
  · show Host.Outcome.next (s.holdOffEnd t) = _
    have hend : endHoldOff c t = { c with tu := t, holdOff := if e ≤ t then none else some e } := by
      by_cases hle : e ≤ t
      · simp [endHoldOff, he, hle, Option.filter, max_eq_right ht]
      · simp [endHoldOff, he, hle, Option.filter, max_eq_right ht, Nat.lt_of_not_le hle]
    unfold State.holdOffEnd
    simp only [hs]
    rw [State.setPhase_eq hs, hend]
  · rintro ⟨hne, hnone, hroom⟩
    have hsample := State.sampleAmplitude_opened hs a
    rw [if_neg (by simp [hne, hnone]), State.afterCapture_open hs (by simp [captureDone, Nat.not_le.2 hroom])] at hsample
    exact congrArg Host.Outcome.next hsample
  · rintro ⟨hne, hnone, hfull⟩
    have hsample := State.sampleAmplitude_opened hs a
    have hdone : captureDone sh.bound { c with sample := some a } = true := by simp [captureDone, hfull]
    rw [if_neg (by simp [hne, hnone]), State.afterCapture, if_pos hdone] at hsample
    have hend := State.windowEnd_opened hs a
    have hamp : amplitudeOf c a = some a := by simp [amplitudeOf, hne, hnone]
    rw [hamp, ← hsample] at hend
    exact congrArg Host.Outcome.next hend.symm
  · intro h
    have hsample := State.sampleAmplitude_opened hs a
    rw [if_pos (by simpa using h)] at hsample
    exact congrArg Host.Outcome.next hsample

/-! ### Crossings (R44, R47) -/

theorem State.crossing_opened {s : State} {k : Head} {at0 : Nat} {sh : Shot} {c : Capture}
    (h : s.slot = some { head := k, startAt := at0, phase := .opened sh c }) (t : Nat) :
    s.crossing k sh.bound.recipe.polarity t = s.afterCapture k sh (crossed sh.bound c t) := by
  unfold State.crossing
  rw [State.channelPhase_own h]
  exact if_pos rfl

/-- When a crossing is captured (R47). -/
theorem captures_iff {n : Snapshot} {c : Capture} {t : Nat} (ht : c.tu ≤ t) :
    captures n c t = true ↔ c.echoes.length < n.recipe.captureMax ∧ (∀ e, c.holdOff = some e → e ≤ t)
      ∧ t < 160 * (n.recipe.blanking + n.wEff) := by
  unfold captures windowEndTu Config.tuPerCt
  cases c.holdOff <;> simp [ht] <;> tauto

theorem crossed_captured {n : Snapshot} {c : Capture} {t : Nat} (h : captures n c t = true) :
    crossed n c t = { c with tu := t, echoes := c.echoes ++ [t], holdOff := some (t + 160 * n.recipe.holdoff) } := if_pos h

theorem crossed_ignored {n : Snapshot} {c : Capture} {t : Nat} (ht : c.tu ≤ t) (h : ¬captures n c t = true) :
    crossed n c t = { c with tu := t } := by
  rw [crossed, if_neg h, max_eq_right ht]

/-- A crossing that does not reach a capture has no effect (R36, R45, R46, R47). -/
theorem State.crossing_idle {s : State} {k : Head} {c : Polarity} {t : Nat}
    (h : s.slot = none ∨ ∃ (h : Head) (at0 : Nat) (p : Phase), s.slot = some { head := h, startAt := at0, phase := p }
      ∧ (h ≠ k ∨ p = .idle ∨ (∃ sh, p = .awaitConf sh) ∨ (∃ sh, p = .blanking sh)
          ∨ ∃ sh x, p = .opened sh x ∧ sh.bound.recipe.polarity ≠ c)) : s.crossing k c t = s := by
  unfold State.crossing
  rcases h with h | ⟨h, at0, p, hs, hp⟩
  · simp [State.channelPhase, h]
  · by_cases hk : h = k
    · subst hk
      rw [State.channelPhase_own hs]
      rcases hp with hp | rfl | ⟨sh, rfl⟩ | ⟨sh, rfl⟩ | ⟨sh, x, rfl, hne⟩
      · exact absurd rfl hp
      · rfl
      · rfl
      · rfl
      · exact if_neg fun e => hne e.symm
    · rw [State.channelPhase_other hs hk]

/-- Settles O30. -/
theorem crossingsByPhase : Obligations.CrossingsByPhase := by
  refine ⟨fun s k c t => ⟨fun at0 n hs => ?_, fun h => congrArg Host.Outcome.next (State.crossing_idle h)⟩, fun s k at0 t sh c hs ht => ?_⟩
  · show Host.Outcome.next (s.crossing k c t) = _
    unfold State.crossing
    rw [State.channelPhase_own hs]
    dsimp only
    rw [State.setPhase_eq hs]
  · have hcross := State.crossing_opened hs t
    have hcap := captures_iff (n := sh.bound) ht
    refine ⟨fun hfree hopen => ?_, fun hfree hdone => ?_, fun hfree hopen => ?_⟩
    · rw [crossed_captured (hcap.2 hfree)] at hcross
      have hd : captureDone sh.bound
          { c with tu := t, echoes := c.echoes ++ [t], holdOff := some (t + 160 * sh.bound.recipe.holdoff) } = false := by
        rw [Bool.eq_false_iff]
        intro hd
        obtain ⟨hlen, hsample⟩ : sh.bound.recipe.captureMax ≤ c.echoes.length + 1 ∧ c.sample.isSome = true := by
          simpa [captureDone] using hd
        exact hopen ⟨by have := hfree.1; omega, hsample⟩
      exact congrArg Host.Outcome.next (hcross.trans (State.afterCapture_open hs hd))
    · rw [crossed_captured (hcap.2 hfree)] at hcross
      obtain ⟨x, hx⟩ := Option.isSome_iff_exists.1 hdone.2
      refine congrArg Host.Outcome.next (hcross.trans (State.afterCapture_done hs ?_ hx (by simp)))
      simp [captureDone, hdone.1, hx]
    · rw [crossed_ignored ht (fun h => hfree (hcap.1 h))] at hcross
      have hd : captureDone sh.bound { c with tu := t } = false := by
        rw [Bool.eq_false_iff]
        intro hd
        exact hopen (by simpa [captureDone] using hd)
      exact congrArg Host.Outcome.next (hcross.trans (State.afterCapture_open hs hd))

end Sys2Proof.Machine
end

section
/-! PROOFS. The end of a shot (R26, R31, R40, R41, R51, R83, R84, R109): what the taking of its record, the completion of a section that
waited for it and its channel's gain decision do together, in the terms of `shotTaken` and `settled`. -/

namespace Sys2Proof.Machine

open Safety

/-! ### Sections that are written, in a state that differs elsewhere (R132) -/

/-- What the writing of sections does depends on the pool, the setup and the attention causes alone, and changes, beside the tube, the
pool and the causes alone (R132, R162, R163). -/
theorem sectionsWritten_congr (ys : List SectionResult) {s t : State} (hset : t.setup = s.setup) (hpool : t.pool = s.pool)
    (hcause : t.attnCause = s.attnCause) (r : RecNo) (x : Tube) :
    sectionsWritten t r x ys = { t with
      pool := (sectionsWritten s r x ys).pool, attnCause := (sectionsWritten s r x ys).attnCause
      tube := (sectionsWritten s r x ys).tube } := by
  induction ys generalizing s t x with
  | nil =>
    simp only [sectionsWritten]
    rw [← hpool, ← hcause]
  | cons y ys ih =>
    have hcfg : t.cfg = s.cfg := by rw [State.cfg, State.cfg, hset]
    simp only [sectionsWritten]
    rw [hcfg, hpool, hcause]
    cases s.pool.free with
    | nil => exact ih hset hpool hcause _
    | cons b rest =>
      have hlow : t.setup.isSome = s.setup.isSome := by rw [hset]
      simp only [hlow]
      set low := s.setup.isSome && s.pool.lowArmed && decide (rest.length < s.cfg.poolLow)
      let pool := { s.pool with free := rest, owner := vset s.pool.owner b (some r), lowArmed := s.pool.lowArmed && !low }
      let cause := (if low then s.attnCause ||| causePoolLow else s.attnCause) ||| causeSection
      exact ih (s := { s with pool := pool, attnCause := cause }) (t := { t with pool := pool, attnCause := cause }) hset rfl rfl _

theorem released_congr {s t : State} (hset : t.setup = s.setup) (hpool : t.pool = s.pool) (hcause : t.attnCause = s.attnCause)
    (r : RecNo) (tailSkip z : Nat) (x : Tube) :
    released t r tailSkip z x = { t with
      pool := (released s r tailSkip z x).pool, attnCause := (released s r tailSkip z x).attnCause
      tube := (released s r tailSkip z x).tube } :=
  sectionsWritten_congr _ hset hpool hcause r _

/-- The completion of a CLOSING section, in a state that differs elsewhere (R109). -/
theorem settled_congr {s t : State} (hset : t.setup = s.setup) (hpool : t.pool = s.pool) (hcause : t.attnCause = s.attnCause)
    (horder : t.tubeOrder = s.tubeOrder) (hz : t.tracker.z = s.tracker.z) (x : Tube) :
    settled t x = { t with pool := (settled s x).pool, attnCause := (settled s x).attnCause, tube := (settled s x).tube } := by
  have hopen : ({ t with tube := some x } : State) = { t with pool := s.pool, attnCause := s.attnCause, tube := some x } := by
    rw [← hpool, ← hcause]
  unfold settled
  rw [horder, hz]
  cases x.closing with
  | none => exact hopen
  | some c =>
    cases x.record with
    | none => exact hopen
    | some r =>
      cases s.tubeOrder with
      | none => exact hopen
      | some n => exact released_congr hset hpool hcause _ _ _ _

theorem settledWords_congr {s t : State} (hpool : t.pool = s.pool) (horder : t.tubeOrder = s.tubeOrder)
    (hz : t.tracker.z = s.tracker.z) (x : Tube) : settledWords t x = settledWords s x := by
  unfold settledWords releasedWords
  rw [horder, hz, hpool]

/-! ### The addresses that sections write (Table 10-1) -/

/-- An address among the status words, but for the free-block count. -/
def Low (a : Nat) : Prop := a < 0xA00 ∧ a ≠ stFreeCount

theorem lookup_none_of_ne {a b : Nat} {v : Word} (h : b ≠ a) : ([(a, v)] : List (Nat × Word)).lookup b = none := by
  rw [lookup_single, if_neg h]

theorem ne_recAddr {a : Nat} (h : Low a) (r : RecNo) (i : Nat) : a ≠ recAddr r i := by
  have := h.1
  simp only [recAddr, Config.recordBase]
  omega

theorem ne_blkAddr {a : Nat} (h : Low a) (b : BlockNo) (i : Nat) : a ≠ blkAddr b i := by
  have := h.1
  simp only [blkAddr, Config.blockBase]
  omega

/-- The writing of sections leaves every status word but the free-block count alone. -/
theorem sectionWords_low {a : Nat} (h : Low a) (ys : List SectionResult) (free : List BlockNo) (r : RecNo) (x : Tube) :
    (sectionWords free r x ys).lookup a = none := by
  induction ys generalizing free x with
  | nil => rfl
  | cons y ys ih =>
    cases free with
    | nil =>
      rw [sectionWords, lookup_append, ih, lookup_ifChanged, if_neg (fun e => ne_recAddr h r 12 e.2)]
      rfl
    | cons b rest =>
      have hblock : (wordsAt (blkAddr b 0) (blockWordsOf y)).lookup a = none := by
        rw [lookup_wordsAt, if_neg]
        rintro ⟨hle, -⟩
        have := h.1
        simp only [blkAddr, Config.blockBase] at hle
        omega
      simp only [sectionWords, lookup_append, ih, hblock, lookup_none_of_ne h.2, Option.none_or]
      rw [List.lookup_cons, (beq_eq_false_iff_ne).2 (ne_recAddr h r 11), Option.or_none, Option.or_none]
      refine lookup_none_of_ne ?_
      cases x.lastBlock with
      | none => exact ne_recAddr h r 10
      | some p => exact ne_blkAddr h p 0

theorem settledWords_low {a : Nat} (h : Low a) (s : State) (x : Tube) : (settledWords s x).lookup a = none := by
  unfold settledWords releasedWords
  cases x.closing with
  | none => rfl
  | some c =>
    cases x.record with
    | none => rfl
    | some r =>
      cases s.tubeOrder with
      | none => rfl
      | some n => exact sectionWords_low h _ _ _ _

/-! ### The completion of a section that waits for no shot (R109) -/

/-- With no CLOSING section there is nothing to complete. -/
theorem State.settleClosing_none {s : State} {x : Tube} (ht : s.tube = some x) (h : x.closing = none) : s.settleClosing = s := by
  simp [State.settleClosing, ht, h]

/-- What a completion does, in the terms of `settled`, also in a tube without an order that has no CLOSING section. -/
theorem State.settleClosing_gives {s : State} {x : Tube} (ht : s.tube = some x) (hr : x.record.isSome = true)
    (ho : x.closing = none ∨ s.tubeOrder.isSome = true) (hf : s.inFlight = none) :
    s.settleClosing = { settled s x with mem := s.settleClosing.mem } ∧ Wrote s s.settleClosing (settledWords s x) := by
  cases hc : x.closing with
  | none =>
    have hwords : settledWords s x = [] := by unfold settledWords; rw [hc]
    have hstate : settled s x = { s with tube := some x } := by unfold settled; rw [hc]
    rw [State.settleClosing_none ht hc, hwords, hstate, ← ht]
    exact ⟨rfl, wrote_nil s s rfl⟩
  | some c =>
    obtain ⟨n, hn⟩ := Option.isSome_iff_exists.1 (ho.resolve_left (by simp [hc]))
    obtain ⟨r, hr⟩ := Option.isSome_iff_exists.1 hr
    exact s.settleClosing_settled r x n ht hr hn fun c _ => by simp [State.flightFor, hf]

theorem Fills.tubeOrder {s t : State} (h : Fills s t) : t.tubeOrder = s.tubeOrder := by
  rw [← State.view_tubeOrder, ← State.view_tubeOrder, Alloc.same h.1]
  rfl

/-! ### The gain decision at the end of a shot (R39 to R41) -/

/-- The gain step is the one of Table 3-3 within the range in force (R40). -/
theorem steppedGain_eq (b n : Recipe) (g : Nat) (a1 : Option Byte) :
    steppedGain b n g a1 = movedGain n.gmin n.gmax g (gainMove b a1) := by
  unfold steppedGain gainMove
  cases b.agcOn with
  | false => rfl
  | true =>
    cases a1 with
    | none => rfl
    | some a =>
      by_cases h1 : b.agcHi ≤ a.toNat
      · simp [h1, movedGain]
      · by_cases h2 : a.toNat < b.agcLo
        · simp [h1, h2, movedGain]
        · simp [h1, h2, movedGain]

theorem gainWithin_eq (n : Recipe) (g : Nat) : gainWithin n g = clampGain n.gmin n.gmax g := rfl

theorem State.setGain_eq (s : State) (k : Head) (g : Nat) :
    s.setGain k g = { s with mem := (s.setGain k g).mem, chans := vset s.chans k { s.chans[k] with gain := g } } := rfl

/-- The clamp that waited for the end of a shot (R41). -/
theorem State.lateClamp_gives (s : State) (k : Head) (sh : Shot) :
    let g := gainAtEnd (s.tubeOrder.getD sh.bound).recipe sh.clampDue s.chans[k].gain
    s.lateClamp k sh = { s with mem := (s.lateClamp k sh).mem, chans := vset s.chans k { s.chans[k] with gain := g } }
      ∧ Wrote s (s.lateClamp k sh) (ifChanged (s.chans[k].gain ≠ g) (stGain + k.val) (BitVec.ofNat 16 g)) := by
  intro g
  cases hd : sh.clampDue with
  | true =>
    have hlate : s.lateClamp k sh = s.setGain k g := by
      rw [State.lateClamp, hd, if_pos rfl]
      simp only [g, gainAtEnd, hd, if_true]
      rfl
    rw [hlate]
    exact ⟨rfl, s.setGain_wrote k g⟩
  | false =>
    have hlate : s.lateClamp k sh = s := by rw [State.lateClamp, hd, if_neg Bool.false_ne_true]
    have hg : g = s.chans[k].gain := by simp only [g, gainAtEnd, hd, Bool.false_eq_true, if_false]
    have hsame : vset s.chans k { s.chans[k] with gain := g } = s.chans := by rw [hg]; exact vset_same s.chans k
    rw [hlate, hsame]
    refine ⟨rfl, (wrote_nil s s rfl).congr fun a _ => ?_⟩
    rw [hg, lookup_ifChanged, if_neg (by simp)]
    rfl

/-- The gain step and the clamp that waited, together (R40, R41). -/
theorem State.endGain_gives (s : State) (k : Head) (sh : Shot) (a1 : Option Byte) :
    let n := (s.tubeOrder.getD sh.bound).recipe
    let g1 := steppedGain sh.bound.recipe n s.chans[k].gain a1
    let g := gainAtEnd n sh.clampDue g1
    let t := (s.gainStep k sh.bound a1).lateClamp k sh
    t = { s with mem := t.mem, chans := vset s.chans k { s.chans[k] with gain := g } }
      ∧ Wrote s t (ifChanged (decide (s.chans[k].gain ≠ g1 ∨ g1 ≠ g)) (stGain + k.val) (BitVec.ofNat 16 g)) := by
  intro n g1 g t
  have hstep : s.gainStep k sh.bound a1 = s.setGain k g1 := by
    simp only [State.gainStep, State.gainRange, g1, n, steppedGain_eq]
  have hgain : (s.setGain k g1).chans[k].gain = g1 := by
    rw [State.setGain_chans, vset_getFin, if_pos rfl]
  have horder : (s.setGain k g1).tubeOrder = s.tubeOrder := rfl
  obtain ⟨heq, hwords⟩ := (s.setGain k g1).lateClamp_gives k sh
  rw [hgain, horder] at heq hwords
  simp only [t, hstep]
  constructor
  · refine heq.trans ?_
    rw [State.setGain_chans, vset_vset, vset_getFin, if_pos rfl]
    rfl
  · refine ((s.setGain_wrote k g1).trans hwords).congr fun a _ => ?_
    have hlast : g1 = g → toWord g1 = BitVec.ofNat 16 g := congrArg (BitVec.ofNat 16)
    rw [lookup_append, lookup_ifChanged, lookup_ifChanged, lookup_ifChanged]
    change _ = (if decide (g1 ≠ g) = true ∧ _ then some (BitVec.ofNat 16 g) else none).or
      (if decide (s.chans[k].gain ≠ g1) = true ∧ _ then some (toWord g1) else none)
    by_cases ha : a = stGain + k.val
    · by_cases hg : g1 = g
      · rw [if_neg (c := decide (g1 ≠ g) = true ∧ _) (fun e => of_decide_eq_true e.1 hg), Option.none_or, hlast hg]
        simp only [ha, and_true, hg, ne_eq, not_true_eq_false, or_false]
      · rw [if_pos ⟨decide_eq_true (.inr hg), ha⟩, if_pos (c := decide (g1 ≠ g) = true ∧ _) ⟨decide_eq_true hg, ha⟩]
        rfl
    · simp only [ha, and_false, if_false, Option.or_none]

end Sys2Proof.Machine
end

section
/-! PROOFS. Window ends, misfires, PERMIT losses, slot-end cuts and fire decisions without FIRE (R20, R21, R24, R26, R27, R31, R51): what
the end of a shot does to the tube, the pool and its channel. -/

namespace Sys2Proof.Machine

open Safety

/-! ### The end of a shot, step by step (R41, R83, R84, R109) -/

theorem State.closeIfDrained_measuring {s : State} (h : s.gauge = .measuring) : s.closeIfDrained = s :=
  if_neg fun hc => GaugeState.noConfusion (hc.1.symm.trans h)

/-- A close that the end of a shot lets happen is the command that takes it alone (R134). -/
theorem exec_closeCompletion (s : State) : exec .closeCompletion s = .next s.closeIfDrained := rfl

/-- The record `r` of the shot in flight is taken in the open tube `x`, the slot being idle (R83, R84). -/
theorem State.takeRecord_gives {s : State} {x : Tube} (ht : s.tube = some x) (hr : x.record.isSome = true) (r : ShotRecord) :
    let v := (s.setPhase .idle).takeRecord r
    v = { s with
        mem := v.mem, slot := s.slot.map (fun h => { h with phase := .idle })
        lastValid := if r.outcome = .valid then vset s.lastValid r.head r.t else s.lastValid
        tube := some (tubeTakes r x) }
      ∧ Wrote s v (ifChanged (r.outcome = .valid) (stLastValid + r.head.val) (BitVec.ofNat 16 r.t)) := by
  have hlt : stLastValid + r.head.val < 65536 := by have := r.head.isLt; simp only [stLastValid]; omega
  intro v
  by_cases hv : r.outcome = .valid
  · have hnote : v = (({ s.setPhase .idle with lastValid := vset s.lastValid r.head r.t } : State).put (stLastValid + r.head.val)
        (toWord r.t)).modOpen (tubeTakes r) := by
      simp only [v, State.takeRecord, State.noteValid, hv, if_true]
      rfl
    rw [hnote, if_pos hv, decide_eq_true hv]
    refine ⟨?_, (wrote_put s _ (toWord r.t) hlt).of_mem rfl rfl⟩
    simp only [State.modOpen, State.modTube, State.put, State.setPhase, ht, Option.map_some, hr, if_true]
  · have hnote : v = (s.setPhase .idle).modOpen (tubeTakes r) := by
      simp only [v, State.takeRecord, State.noteValid, hv, if_false]
    rw [hnote, if_neg hv, decide_eq_false hv]
    refine ⟨?_, (wrote_nil s s rfl).of_mem rfl rfl⟩
    simp only [State.modOpen, State.modTube, State.setPhase, ht, Option.map_some, hr, if_true]

/-- A section that waited for the shot completes: only the pool, the attention causes, the tube and the memory change (R109). -/
theorem State.settleClosing_changes {v : State} {y : Tube} (hv : v.tube = some y) (hr : y.record.isSome = true)
    (ho : y.closing = none ∨ v.tubeOrder.isSome = true) (hf : v.inFlight = none) :
    v.settleClosing = { v with
        mem := v.settleClosing.mem, pool := (settled v y).pool, attnCause := (settled v y).attnCause, tube := (settled v y).tube }
      ∧ Wrote v v.settleClosing (settledWords v y) := by
  obtain ⟨heq, hwords⟩ := State.settleClosing_gives hv hr ho hf
  refine ⟨?_, hwords⟩
  have hframe := settled_congr (s := v) (t := v) rfl rfl rfl rfl rfl y
  rw [heq]
  generalize settled v y = u at *
  rw [hframe]

/-- The completion of a section commutes with whatever else the end of a shot does to other parts of the state. -/
theorem settled_of_settleClosing {v w u t : State} {y : Tube} {chans : Vector Channel 4}
    (hw : w = { v with mem := w.mem, pool := (settled v y).pool, attnCause := (settled v y).attnCause, tube := (settled v y).tube })
    (ht : t = { w with mem := t.mem, chans := chans }) (hu : u = { v with mem := u.mem, tube := u.tube, chans := chans })
    (horder : u.tubeOrder = v.tubeOrder) : t = { settled u y with mem := t.mem } := by
  have hset : u.setup = v.setup := by rw [hu]
  have hpool : u.pool = v.pool := by rw [hu]
  have hcause : u.attnCause = v.attnCause := by rw [hu]
  have hz : u.tracker.z = v.tracker.z := by rw [hu]
  rw [settled_congr hset hpool hcause horder hz y]
  generalize settled v y = a at *
  generalize t.mem = m at *
  generalize w.mem = m' at *
  generalize u.mem = m'' at *
  generalize u.tube = b at *
  subst hw ht hu
  rfl

/-- The words of a completion change no status word but the free-block count, so that they may stand last. -/
theorem lookup_settledWords_append {L : List (Nat × Word)} (hL : ∀ a, (L.lookup a).isSome = true → Low a) (s : State) (y : Tube) (a : Nat) :
    (settledWords s y ++ L).lookup a = (L ++ settledWords s y).lookup a := by
  rw [lookup_append, lookup_append]
  cases h : L.lookup a with
  | none => rw [Option.or_none, Option.none_or]
  | some v => rw [settledWords_low (hL a (by rw [h]; rfl)), Option.none_or, Option.or_none]

theorem lookup_settledWords_last {G L : List (Nat × Word)} (hL : ∀ a, (L.lookup a).isSome = true → Low a) (s : State) (y : Tube)
    (a : Nat) : (G ++ settledWords s y ++ L).lookup a = (G ++ L ++ settledWords s y).lookup a := by
  rw [List.append_assoc, lookup_append, lookup_settledWords_append hL, ← lookup_append, List.append_assoc]

theorem low_of_lookup_ifChanged {c : Bool} {b a : Nat} {v : Word} (hb : Low b) (h : ((ifChanged c b v).lookup a).isSome = true) :
    Low a := by
  rw [lookup_ifChanged] at h
  split at h
  · next hc => exact hc.2 ▸ hb
  · exact absurd h (by simp)

theorem low_gain (k : Head) : Low (stGain + k.val) := by
  have := k.isLt
  simp only [Low, stGain, stFreeCount]
  omega

theorem low_lastValid (k : Head) : Low (stLastValid + k.val) := by
  have := k.isLt
  simp only [Low, stLastValid, stFreeCount]
  omega

theorem State.tubeOrder_of_eq {s t : State} (hu : t.orderInUse = s.orderInUse) (hs : t.slots = s.slots) : t.tubeOrder = s.tubeOrder := by
  unfold State.tubeOrder
  rw [hu, hs]

theorem confirmedRecord_head (k : Head) (sh : Shot) (e : EffTemp) (x : EchoResult) : (confirmedRecord k sh e x).head = k := by
  unfold confirmedRecord
  split <;> rfl

theorem confirmedRecord_cut (k : Head) (sh : Shot) (e : EffTemp) (x : EchoResult) : (confirmedRecord k sh e x).cut = x.cut := by
  unfold confirmedRecord
  split <;> rfl

/-- Two words that may change, at different addresses, may be given in either order. -/
theorem lookup_ifChanged_swap {c d : Bool} {a b : Nat} {v w : Word} (hab : a ≠ b) (i : Nat) :
    (ifChanged c a v ++ ifChanged d b w).lookup i = (ifChanged d b w ++ ifChanged c a v).lookup i := by
  rw [lookup_append, lookup_append, lookup_ifChanged, lookup_ifChanged]
  by_cases h : i = a
  · rw [if_neg (c := d = true ∧ i = b) (fun e => hab (h.symm.trans e.2)), Option.or_none, Option.none_or]
  · rw [if_neg (c := c = true ∧ i = a) (fun e => h e.2), Option.or_none, Option.none_or]

/-- The window close of the shot of head `k` in a tube with a record (R40, R41, R51, R83, R109). -/
theorem State.closeShot_gives {s : State} {x : Tube} {n : Snapshot} (ht : s.tube = some x) (hr : x.record.isSome = true)
    (hn : s.tubeOrder = some n) (k : Head) (sh : Shot) (echoes : List Nat) (a1 : Option Byte) (cut : Bool) :
    let r := confirmedRecord k sh (s.tempFor sh) { echoes := echoes, cut := cut }
    let g0 := s.chans[k].gain
    let g1 := steppedGain sh.bound.recipe n.recipe g0 a1
    let g := gainAtEnd n.recipe sh.clampDue g1
    ∃ t : State, t = { shotTaken s k r g x with mem := t.mem }
      ∧ Wrote s t (shotWrites s k r (decide (g0 ≠ g1 ∨ g1 ≠ g)) g x)
      ∧ s.closeShot k sh echoes a1 cut = t.closeIfDrained := by
  intro r g0 g1 g
  obtain ⟨hv, hvalid⟩ := State.takeRecord_gives ht hr r
  set v := (s.setPhase .idle).takeRecord r
  have hhead : r.head = k := confirmedRecord_head k sh _ _
  rw [hhead] at hv hvalid
  have htube : v.tube = some (tubeTakes r x) := by rw [hv]
  have horder : v.tubeOrder = s.tubeOrder := State.tubeOrder_of_eq (by rw [hv]; simp [State.orderInUse, ht, tubeTakes]) (by rw [hv])
  have hflight : v.inFlight = none := by
    rw [State.inFlight_congr (s := s.setPhase .idle) (by rw [hv]; rfl), State.setPhase_inFlight]
    cases s.slot <;> rfl
  obtain ⟨hw, hsettled⟩ := State.settleClosing_changes htube hr (.inr (by rw [horder, hn]; rfl)) hflight
  set w := v.settleClosing
  have hkept : v.chans = s.chans := by rw [hv]
  have hchans : w.chans = s.chans := by
    rw [hw]
    exact hkept
  have hworder : w.tubeOrder = some n := by rw [v.settleClosing_fills.tubeOrder, horder, hn]
  obtain ⟨hend, hgain⟩ := w.endGain_gives k sh a1
  simp only [hchans, hworder, Option.getD_some] at hend hgain
  refine ⟨_, settled_of_settleClosing (u := { s with
      slot := s.slot.map (fun h => { h with phase := .idle })
      lastValid := if r.outcome = .valid then vset s.lastValid k r.t else s.lastValid
      chans := vset s.chans k { s.chans[k] with gain := g } }) hw hend ?_ horder.symm, ?_, rfl⟩
  · rw [hv]
  · refine ((hvalid.trans hsettled).trans hgain).congr fun a _ => ?_
    have hwords : settledWords v (tubeTakes r x) = settledWords s (tubeTakes r x) :=
      settledWords_congr (by rw [hv]) horder (by rw [hv]) _
    have hlow : ∀ b, ((ifChanged (r.outcome = .valid) (stLastValid + k.val) (BitVec.ofNat 16 r.t)).lookup b).isSome = true → Low b :=
      fun b => low_of_lookup_ifChanged (low_lastValid k)
    have hswap := lookup_ifChanged_swap (c := decide (g0 ≠ g1 ∨ g1 ≠ g)) (d := decide (r.outcome = .valid))
      (a := stGain + k.val) (b := stLastValid + k.val) (v := BitVec.ofNat 16 g) (w := BitVec.ofNat 16 r.t)
      (by simp only [stGain, stLastValid]; omega) a
    rw [hwords, lookup_append, lookup_settledWords_append hlow, ← lookup_append, ← List.append_assoc, lookup_append, hswap,
      ← lookup_append]
    rfl

theorem amplitudeOf_eq (c : Capture) (a : Byte) : amplitudeOf c a = if c.echoes = [] then none else some (c.sample.getD a) := by
  unfold amplitudeOf
  cases c.echoes <;> rfl

theorem settled_gauge (s : State) (x : Tube) : (settled s x).gauge = s.gauge := by
  rw [settled_congr (s := s) (t := s) rfl rfl rfl rfl rfl]

theorem shotTaken_gauge (s : State) (k : Head) (r : ShotRecord) (g : Nat) (x : Tube) : (shotTaken s k r g x).gauge = s.gauge :=
  settled_gauge _ _

theorem settled_slot (s : State) (x : Tube) : (settled s x).slot = s.slot := by
  rw [settled_congr (s := s) (t := s) rfl rfl rfl rfl rfl]

/-- The taking of a shot leaves none in flight. -/
theorem shotTaken_inFlight (s : State) (k : Head) (r : ShotRecord) (g : Nat) (x : Tube) : (shotTaken s k r g x).inFlight = none := by
  rw [shotTaken, State.inFlight_congr (settled_slot _ _)]
  unfold State.inFlight
  cases s.slot <;> rfl

/-- Settles O31. -/
theorem windowEndHandsShotOver : Obligations.WindowEndHandsShotOver := by
  intro s k at0 a sh c x n hs hg ht hr hn
  obtain ⟨t, htaken, hwords, hclose⟩ := State.closeShot_gives ht hr hn k sh c.echoes (amplitudeOf c a) false
  have hend : exec (.windowEnd a) s = .next t.closeIfDrained := congrArg Host.Outcome.next ((State.windowEnd_opened hs a).trans hclose)
  rw [amplitudeOf_eq] at htaken hwords
  refine ⟨t, htaken, hwords, fun hm => ?_, fun _ => hend⟩
  have hgauge : t.gauge = .measuring := by rw [htaken]; exact (shotTaken_gauge s k _ _ x).trans hm
  rw [hend, State.closeIfDrained_measuring hgauge]

/-! ### Slot-end cuts (R26) -/

/-- The shot of a slot with its echoes so far and the amplitude that a cut at a reading of `a` finds (R26, R52). -/
def CutFinds (p : Phase) (a : Byte) (sh : Shot) (echoes : List Nat) (a1 : Option Byte) : Prop :=
  p = .blanking sh ∧ echoes = [] ∧ a1 = none
    ∨ ∃ c, p = .opened sh c ∧ echoes = c.echoes ∧ a1 = if c.echoes = [] then none else some (c.sample.getD a)

theorem State.cutSlot_finds {s : State} {k : Head} {at0 : Nat} {p : Phase} (hs : s.slot = some { head := k, startAt := at0, phase := p })
    {a : Byte} {sh : Shot} {echoes : List Nat} {a1 : Option Byte} (hp : CutFinds p a sh echoes a1) :
    s.awaiting = false ∧ s.cutSlot a = s.closeShot k sh echoes a1 true := by
  unfold State.awaiting State.cutSlot
  rcases hp with ⟨rfl, rfl, rfl⟩ | ⟨c, rfl, rfl, rfl⟩
  · simp only [hs, and_self]
  · simp only [hs, amplitudeOf_eq, and_self]

/-- Without a shot in flight there is nothing to cut. -/
theorem State.cutSlot_none {s : State} (h : s.inFlight = none) (a : Byte) : s.awaiting = false ∧ s.cutSlot a = s := by
  unfold State.awaiting State.cutSlot
  unfold State.inFlight at h
  cases hs : s.slot with
  | none => exact ⟨rfl, rfl⟩
  | some hd =>
    rw [hs, Option.bind_some, Option.map_eq_none_iff] at h
    cases hp : hd.phase <;> simp_all [phaseShot]

theorem State.nextSlot_eq {s : State} {k : Head} {at0 : Nat} {p : Phase} (hs : s.slot = some { head := k, startAt := at0, phase := p })
    (hk : k ≠ 3) (hw : s.awaiting = false) (a : Byte) :
    s.nextSlot a = (s.cutSlot a).ifRunning (fun s => s.openSlot (k + 1)) := by
  unfold State.nextSlot
  simp only [hs, hw, hk, Bool.false_eq_true, if_false]

theorem State.ifRunning_runs {s : State} (h : runs s.gauge = true) (f : State → State) : s.ifRunning f = f s := if_pos h

/-- Settles O23. -/
theorem slotStartCutsAndBeginsQuietGate : Obligations.SlotStartCutsAndBeginsQuietGate := by
  intro s k at0 p a hk hrun hs
  refine ⟨fun hp => ?_, fun sh x n echoes a1 hp hg ht hr hn => ?_⟩
  · obtain ⟨hwait, hcut⟩ := State.cutSlot_none (State.inFlight_of_phase hs hp) a
    exact congrArg Host.Outcome.next (by rw [State.nextSlot_eq hs hk hwait, hcut, State.ifRunning_runs hrun]; rfl)
  · obtain ⟨hwait, hcut⟩ := State.cutSlot_finds hs hp
    obtain ⟨t, htaken, hwords, hclose⟩ := State.closeShot_gives ht hr hn k sh echoes a1 true
    have hnext : exec (.slotStart a) s = .next (t.closeIfDrained.ifRunning (fun s => s.openSlot (k + 1))) :=
      congrArg Host.Outcome.next (by rw [State.nextSlot_eq hs hk hwait, hcut, hclose])
    refine ⟨⟨t, htaken, hwords, fun hm => ?_, fun _ => hnext⟩, confirmedRecord_cut _ _ _ _, ?_⟩
    · have hgauge : t.gauge = .measuring := by rw [htaken]; exact (shotTaken_gauge s k _ _ x).trans hm
      rw [hnext, State.closeIfDrained_measuring hgauge, State.ifRunning_runs (by rw [hgauge]; rfl)]
      rfl
    · have hcut : hasFlag (flagIf true tfWindowClamped) tfWindowClamped = true := by decide
      simp only [tubeTakes, giveIf, hasFlag_or, confirmedRecord_cut, hcut, Bool.or_true, Bool.true_or]

end Sys2Proof.Machine
end

section
/-! PROOFS. Cycle starts (R16, R17, R18, R26, R32, R33): a shot in flight is cut first, firing may return, and slot 0 begins. -/

namespace Sys2Proof.Machine

open Safety

/-! ### The return of firing (R32, R33) -/

theorem State.restartFiring_eq (s : State) :
    s.restartFiring = { restarted s with mem := s.restartFiring.mem }
      ∧ Wrote s s.restartFiring (ifChanged (firingReturns s) stFiring 1#16) := by
  have hif : s.restartFiring = if firingReturns s = true then { s.setFiring .permitted with resumePending := false } else s := rfl
  cases hc : firingReturns s with
  | true =>
    have hsus : s.firing = .suspended := by
      simp only [firingReturns, Bool.and_eq_true, beq_iff_eq] at hc
      exact hc.1.2
    rw [hif, if_pos hc]
    simp only [restarted, hc, if_true]
    refine ⟨rfl, ((State.setFiring_wrote s .permitted).of_mem rfl rfl).congr fun a _ => ?_⟩
    rw [hsus]
    rfl
  | false =>
    rw [hif, if_neg (by rw [hc]; exact Bool.false_ne_true)]
    simp only [restarted, hc, Bool.false_eq_true, if_false]
    exact ⟨trivial, wrote_nil s s rfl⟩

theorem State.restartFiring_calm {s : State} (h : firingReturns s = false) : s.restartFiring = s := by
  exact if_neg (c := firingReturns s = true) (by rw [h]; exact Bool.false_ne_true)

theorem firingReturns_restartFiring (s : State) : firingReturns s.restartFiring = false := by
  cases hc : firingReturns s with
  | true =>
    have hfiring : s.restartFiring.firing = .permitted := by rw [s.restartFiring_eq.1]; exact if_pos hc
    simp [firingReturns, hfiring]
  | false => rw [State.restartFiring_calm hc, hc]

/-! ### Amendments that are due (R151) -/

theorem State.dueAmendment_congr {s t : State} (hc : t.current = s.current) (hs : t.slots = s.slots) : t.dueAmendment = s.dueAmendment := by
  unfold State.dueAmendment
  rw [hc, hs]

theorem State.cycleAmend_none {s : State} (h : s.dueAmendment = none) (fired : Bool) : s.cycleAmend fired = s := by
  unfold State.cycleAmend
  simp only [h]

/-- Neither firing nor an amendment waits for the next cycle start. -/
def Calm (s : State) : Prop := s.dueAmendment = none ∧ firingReturns s = false

/-- A cycle start that neither firing nor an amendment waits for only begins slot 0. -/
theorem State.freshCycle_calm {s : State} (h : Calm s) : s.freshCycle = s.openCycle := by
  rw [State.freshCycle, State.restartFiring_calm h.2, State.cycleAmend_none h.1]

theorem Calm.congr {s t : State} (h : Calm s) (hcurrent : t.current = s.current) (hslots : t.slots = s.slots) (hpins : t.pins = s.pins)
    (hfiring : t.firing = s.firing) (hsetup : t.setup = s.setup) (hresume : t.resumePending = true → s.resumePending = true) : Calm t := by
  refine ⟨(State.dueAmendment_congr hcurrent hslots).trans h.1, ?_⟩
  have hs := h.2
  unfold firingReturns State.cfg at *
  rw [hpins, hfiring, hsetup]
  cases hr : t.resumePending with
  | true => rwa [hresume hr] at hs
  | false =>
    simp only [Bool.and_eq_false_iff, Bool.or_eq_false_iff] at hs ⊢
    tauto

/-- The end of a lot drops what was pending on it (R148, R153). -/
theorem State.lotAccounting_calm {s : State} (h : Calm s) : Calm s.lotAccounting := by
  unfold State.lotAccounting
  cases s.orderInUse with
  | none => exact h
  | some j =>
    dsimp only
    split
    · have hcurrent : (s.spendSlot j).current = none := (s.spendSlot_effect j).2.1
      have hkept : firingReturns (s.spendSlot j) = firingReturns s := by simp [firingReturns, State.cfg]
      exact ⟨by simp [State.dueAmendment, hcurrent], hkept.trans h.2⟩
    · exact h

theorem State.leaveClosing_resume (s : State) (h : s.leaveClosing.resumePending = true) : s.resumePending = true := by
  unfold State.leaveClosing at h
  split at h
  · exact absurd h (by simp [State.enterHalted])
  · simpa using h

theorem State.closeIfDrained_calm {s : State} (h : Calm s) : Calm s.closeIfDrained := by
  have hleave : ∀ u : State, Calm u → Calm u.leaveClosing := fun u hu =>
    Calm.congr hu (by simp) (by simp) (by simp) (by simp) (by simp) u.leaveClosing_resume
  unfold State.closeIfDrained State.closeTube
  split
  · split
    · exact hleave _ (State.lotAccounting_calm (Calm.congr h (by simp) (by simp) (by simp) (by simp) (by simp) (by simp)))
    · exact hleave _ h
  · exact h

theorem State.cutSlot_calm {s : State} (h : Calm s) (a : Byte) : Calm (s.cutSlot a) := by
  have hclose : ∀ (k : Head) (sh : Shot) (es : List Nat) (a1 : Option Byte) (cut : Bool), Calm (s.closeShot k sh es a1 cut) :=
    fun k sh es a1 cut =>
      State.closeIfDrained_calm (Calm.congr h (by simp) (by simp) (by simp) (by simp) (by simp) (by simp))
  unfold State.cutSlot
  cases s.slot with
  | none => exact h
  | some hd =>
    obtain ⟨k, at0, p⟩ := hd
    cases p with
    | idle | quiet | awaitConf => exact h
    | blanking | opened => exact hclose _ _ _ _ _

/-! ### Cycle starts -/

theorem State.cycleStart_eq {s : State} (hrun : runs s.gauge = true) (hw : s.awaiting = false) (o : CycleOrder) (a : Byte) :
    s.cycleStart o a = s.beginCycle o a := by
  rw [State.cycleStart, hrun, hw]
  rfl

/-- A cycle start that takes the cut first, taken after the cut. -/
theorem State.cycleStart_cut {o : CycleOrder} {F : State → State} {a : Byte}
    (hF : ∀ u : State, u.beginCycle o a = (u.cutSlot a).ifRunning F) {u : State} (hf : u.inFlight = none) :
    ifBit (runs u.gauge) (.cycleStart o a) u = .next (u.ifRunning F) := by
  obtain ⟨hwait, hcut⟩ := State.cutSlot_none hf a
  unfold ifBit State.ifRunning
  cases hrun : runs u.gauge with
  | true =>
    have hstart : u.cycleStart o a = F u := by
      rw [State.cycleStart_eq hrun hwait, hF, hcut, State.ifRunning_runs hrun]
    exact congrArg Host.Outcome.next hstart
  | false => rfl

/-- A cycle start that finds a shot in its echo window, the cut being taken first (R26). -/
theorem cycleStart_of_cut {s t : State} {o : CycleOrder} {F : State → State} {a : Byte}
    (hF : ∀ u : State, u.beginCycle o a = (u.cutSlot a).ifRunning F) (hwait : s.awaiting = false)
    (hg : s.gauge = .measuring ∨ s.gauge = .closing) (htg : t.gauge = s.gauge) (hf : t.inFlight = none)
    (hcut : s.cutSlot a = t.closeIfDrained) :
    exec (.cycleStart o a) s = if s.gauge = .measuring then exec (.cycleStart o a) t
      else andThen (exec .closeCompletion t) (fun u => ifBit (runs u.gauge) (.cycleStart o a) u) := by
  have hrun : runs s.gauge = true := by rcases hg with h | h <;> rw [h] <;> rfl
  have hstart : exec (.cycleStart o a) s = .next (t.closeIfDrained.ifRunning F) :=
    congrArg Host.Outcome.next (by rw [State.cycleStart_eq hrun hwait, hF, hcut])
  have hrest := State.cycleStart_cut hF (State.closeIfDrained_inFlight hf)
  split
  · next hm =>
    rw [State.closeIfDrained_measuring (htg.trans hm), ifBit, htg, hrun] at hrest
    rw [hstart, State.closeIfDrained_measuring (htg.trans hm)]
    exact hrest.symm
  · exact hstart.trans hrest.symm

/-- Settles O22. -/
theorem cycleStartRestartsFiringAndOpensSlotZero : Obligations.CycleStartRestartsFiringAndOpensSlotZero := by
  refine ⟨fun s o a hrun hf hdue => ?_, fun s k at0 p a sh x n echoes a1 hs hp hg ht hr hn => ⟨fun o ho => ?_, fun hdue => ?_⟩⟩
  · obtain ⟨hwait, hcut⟩ := State.cutSlot_none hf a
    obtain ⟨hrestart, hwords⟩ := s.restartFiring_eq
    have hcalm : s.restartFiring.dueAmendment = none := (State.dueAmendment_congr (by simp) (by simp)).trans hdue
    have hfresh : s.freshCycle = s.restartFiring.openCycle := by rw [State.freshCycle, State.cycleAmend_none hcalm]
    refine ⟨s.restartFiring.openCycle, ⟨?_, hwords.of_mem rfl rfl⟩, ?_⟩
    · rw [State.openCycle, State.openSlot, hrestart]
      rfl
    · refine (congrArg Host.Outcome.next (State.cycleStart_eq hrun hwait o a)).trans ?_
      cases o with
      | cutFirst => rw [State.beginCycle, hcut, State.ifRunning_runs hrun, hfresh]; rfl
      | amendFirst =>
        have hflight : s.restartFiring.inFlight = none := (State.inFlight_congr (by simp)).trans hf
        rw [State.beginCycle, State.cycleAmend_none hcalm, (State.cutSlot_none hflight a).2, State.ifRunning_runs (by simpa using hrun)]
        rfl
      | decisionFirst =>
        rw [State.beginCycle, hcut, State.ifRunning_runs hrun, State.decidedCycle, hfresh]
        by_cases hq : s.cfg.quietGate = 0
        · have hdecided : s.restartFiring.openCycle.fireDecision.dueAmendment = none :=
            (State.dueAmendment_congr (by simp) (by simp)).trans hdue
          rw [if_pos hq, if_pos ⟨rfl, hq⟩]
          exact congrArg Host.Outcome.next (State.cycleAmend_none hdecided _)
        · rw [if_neg hq, if_neg fun h => hq h.2]
  · obtain ⟨hwait, hcut⟩ := State.cutSlot_finds hs hp
    obtain ⟨t, htaken, hwords, hclose⟩ := State.closeShot_gives ht hr hn k sh echoes a1 true
    have hgauge : t.gauge = s.gauge := by rw [htaken]; exact shotTaken_gauge s k _ _ x
    have hflight : t.inFlight = none := by
      rw [htaken]
      exact shotTaken_inFlight s k _ _ x
    refine ⟨t, htaken, hwords, ?_⟩
    rcases ho with rfl | rfl
    · exact cycleStart_of_cut (fun _ => rfl) hwait hg hgauge hflight (hcut.trans hclose)
    · exact cycleStart_of_cut (fun _ => rfl) hwait hg hgauge hflight (hcut.trans hclose)
  · obtain ⟨hwait, -⟩ := State.cutSlot_finds hs hp
    obtain ⟨hrestart, hwords⟩ := s.restartFiring_eq
    refine ⟨s.restartFiring, hrestart, hwords, ?_⟩
    have hrun : runs s.gauge = true := by rcases hg with h | h <;> rw [h] <;> rfl
    have hcalm : Calm s.restartFiring :=
      ⟨(State.dueAmendment_congr (by simp) (by simp)).trans hdue, firingReturns_restartFiring s⟩
    have hfresh : (s.restartFiring.cutSlot a).ifRunning State.openCycle = (s.restartFiring.cutSlot a).ifRunning State.freshCycle := by
      unfold State.ifRunning
      rw [State.freshCycle_calm (State.cutSlot_calm hcalm a)]
    have hleft : s.cycleStart .amendFirst a = (s.restartFiring.cutSlot a).ifRunning State.openCycle := by
      rw [State.cycleStart_eq hrun hwait, State.beginCycle, State.cycleAmend_none hcalm.1]
    have hright : s.restartFiring.cycleStart .cutFirst a = (s.restartFiring.cutSlot a).ifRunning State.freshCycle :=
      State.cycleStart_eq (by simpa using hrun) ((State.awaiting_congr (by simp)).trans hwait) _ _
    exact congrArg Host.Outcome.next ((hleft.trans hfresh).trans hright.symm)

end Sys2Proof.Machine
end

section
/-! PROOFS. Misfires, PERMIT losses and fire decisions without FIRE (R20, R21, R24, R27, R30, R31). -/

namespace Sys2Proof.Machine

open Safety

/-! ### A shot that ends without a gain decision (R31, R41) -/

/-- A section that waited for the shot completes, and the clamp that waited is made (R41, R109). -/
theorem State.settle_lateClamp {v u : State} {y : Tube} (hv : v.tube = some y) (hr : y.record.isSome = true)
    (ho : y.closing = none ∨ v.tubeOrder.isSome = true) (hf : v.inFlight = none) (k : Head) (sh : Shot)
    (hu : u = { v with
      mem := u.mem, tube := u.tube
      chans := vset v.chans k { v.chans[k] with
        gain := gainAtEnd (v.tubeOrder.getD sh.bound).recipe sh.clampDue v.chans[k].gain } })
    (horder : u.tubeOrder = v.tubeOrder) :
    let g := gainAtEnd (v.tubeOrder.getD sh.bound).recipe sh.clampDue v.chans[k].gain
    let t := v.settleClosing.lateClamp k sh
    t = { settled u y with mem := t.mem }
      ∧ Wrote v t (ifChanged (v.chans[k].gain ≠ g) (stGain + k.val) (BitVec.ofNat 16 g) ++ settledWords u y) := by
  intro g t
  obtain ⟨hw, hsettled⟩ := State.settleClosing_changes hv hr ho hf
  have hchans : v.settleClosing.chans = v.chans := by
    generalize v.settleClosing = w at hw ⊢
    rw [hw]
  have hworder : v.settleClosing.tubeOrder = v.tubeOrder := v.settleClosing_fills.tubeOrder
  obtain ⟨hend, hgain⟩ := v.settleClosing.lateClamp_gives k sh
  rw [hchans, hworder] at hend hgain
  have hwords : settledWords u y = settledWords v y := settledWords_congr (by rw [hu]) horder (by rw [hu]) y
  rw [hwords]
  exact ⟨settled_of_settleClosing hw hend hu horder, hsettled.trans hgain⟩

/-- The end of a shot without a gain decision, `w` being the state in which its slot is idle: what the commands that end it so say of
the whole next state and its words (R31, R41, R109, R134). -/
theorem State.endsWithoutStep {s w u : State} {y : Tube} {k : Head} {sh : Shot} {L : List (Nat × Word)} {i : Instr}
    (hexec : exec i s = .next (w.settleClosing.lateClamp k sh).closeIfDrained) (hwrote : Wrote s w L)
    (hlow : ∀ a, (L.lookup a).isSome = true → Low a) (hopen : w.tube = some y) (hr : y.record.isSome = true)
    (ho : y.closing = none ∨ s.tubeOrder.isSome = true) (hflight : w.inFlight = none) (horder : w.tubeOrder = s.tubeOrder)
    (hchans : w.chans = s.chans) (huorder : u.tubeOrder = s.tubeOrder) (hgauge : u.gauge = s.gauge)
    (hu : u = { w with
      mem := u.mem, tube := u.tube
      chans := vset s.chans k { s.chans[k] with
        gain := gainAtEnd (s.tubeOrder.getD sh.bound).recipe sh.clampDue s.chans[k].gain } }) :
    let g := gainAtEnd (s.tubeOrder.getD sh.bound).recipe sh.clampDue s.chans[k].gain
    ∃ t : State, t = { settled u y with mem := t.mem }
      ∧ Wrote s t (ifChanged (s.chans[k].gain ≠ g) (stGain + k.val) (BitVec.ofNat 16 g) ++ L ++ settledWords u y)
      ∧ (s.gauge = .measuring → exec i s = .next t) ∧ (s.gauge = .closing → exec i s = exec .closeCompletion t) := by
  intro g
  obtain ⟨hstate, hwords⟩ := State.settle_lateClamp (u := u) hopen hr (by rwa [horder]) hflight k sh (by rwa [horder, hchans])
    (huorder.trans horder.symm)
  rw [horder, hchans] at hwords
  refine ⟨_, hstate, (hwrote.trans hwords).congr fun a _ => (lookup_settledWords_last hlow u y a).symm, fun hm => ?_, fun _ => hexec⟩
  have hmeasuring : (w.settleClosing.lateClamp k sh).gauge = .measuring := by
    rw [hstate]
    exact ((settled_gauge u y).trans hgauge).trans hm
  rw [hexec, State.closeIfDrained_measuring hmeasuring]

theorem State.handOver_eq (s : State) (r : ShotRecord) : s.handOver r = (s.takeRecord r).settleClosing := rfl

/-! ### Misfires (R24, R27) -/

theorem State.maskedOrder_isSome (s : State) (k : Head) :
    (s.maskedOrder k).isSome = decide (∃ o, s.tubeOrder = some o ∧ inMask o.recipe.headMask k = true) := by
  unfold State.maskedOrder
  rw [Bool.eq_iff_iff, decide_eq_true_iff, Option.isSome_filter]
  cases s.tubeOrder <;> simp

theorem State.modOpen_eq {s : State} {x : Tube} (ht : s.tube = some x) (hr : x.record.isSome = true) (f : Tube → Tube) :
    s.modOpen f = { s with tube := some (f x) } := by
  simp only [State.modOpen, State.modTube, ht, Option.map_some, hr, if_true]

/-- The open tube of a head that enters FAULT (R27). -/
def faultFlagged (s : State) (k : Head) (x : Tube) : Tube :=
  { x with flags := if (s.maskedOrder k).isSome then x.flags ||| tfHeadFault else x.flags }

/-- Head `k` enters FAULT while a tube with a record is open (R27). -/
theorem State.enterFault_gives {s : State} {x : Tube} (ht : s.tube = some x) (hr : x.record.isSome = true) (k : Head) :
    s.enterFault k = { s with
        mem := (s.enterFault k).mem, heads := vset s.heads k { s.heads[k] with state := .fault }, attnCause := s.attnCause ||| causeHead
        tube := some (faultFlagged s k x) }
      ∧ Wrote s (s.enterFault k) (ifChanged (s.heads[k].state != .fault) (stHeadState + k.val) 1#16) := by
  have hcond : (s.heads[k].state != .fault) = decide (s.heads[k].state ≠ .fault) := by cases s.heads[k].state <;> rfl
  have hhead : (s.setHeadState k .fault).raise causeHead = { s with
      mem := (s.setHeadState k .fault).mem, heads := vset s.heads k { s.heads[k] with state := .fault }
      attnCause := s.attnCause ||| causeHead } := rfl
  have hgives : s.enterFault k = { (s.setHeadState k .fault).raise causeHead with tube := some (faultFlagged s k x) } := by
    unfold State.enterFault faultFlagged
    change (if (s.maskedOrder k).isSome = true then _ else _) = _
    split
    · exact State.modOpen_eq (s := (s.setHeadState k .fault).raise causeHead) ht hr _
    · rw [hhead, ← ht]
  rw [hgives, hcond]
  exact ⟨rfl, (s.setHeadState_wrote k .fault).of_mem rfl rfl⟩

/-- A misfire of head `k`, up to the hand-over of its record (R24, R27). -/
def State.misfireCounted (s : State) (k : Head) : State :=
  let n := sat16 s.heads[k].misfires
  let s1 := s.setMisfires k n
  ((if s.cfg.misfireLimit ≤ n then s1.enterFault k else s1).addTotals (countMisfire k)).setPhase .idle

theorem State.misfireShot_eq (s : State) (k : Head) (sh : Shot) :
    s.misfireShot k sh
      = (((s.misfireCounted k).takeRecord
          (bareRecord k sh (s.tempFor sh) .misfire false)).settleClosing.lateClamp k sh).closeIfDrained := by
  unfold State.misfireShot State.misfireCounted State.handOver
  rfl

/-- The head after a misfire: one more, and in FAULT at the limit (R24, R27). -/
def misfiredHead (limit : Bool) (h : HeadUnit) : HeadUnit :=
  { h with misfires := min (h.misfires + 1) 65535, state := if limit then .fault else h.state }

/-- The open tube after a misfire of head `k`, but for the record (R24, R27). -/
def misfiredTube (k : Head) (flagged : Bool) (x : Tube) : Tube :=
  { x with
    flags := if flagged then x.flags ||| tfHeadFault else x.flags
    totals := { x.totals with headMisfires := vset x.totals.headMisfires k (min (x.totals.headMisfires[k] + 1) 4294967295) } }

theorem State.addTotals_setPhase {t : State} {at0 : Nat} {p : Phase} {k : Head} {x : Tube}
    (hs : t.slot = some { head := k, startAt := at0, phase := p }) (ht : t.tube = some x) (hr : x.record.isSome = true)
    (f : Totals → Totals) (q : Phase) :
    (t.addTotals f).setPhase q
      = { t with slot := some { head := k, startAt := at0, phase := q }, tube := some { x with totals := f x.totals } } := by
  rw [State.addTotals, State.modOpen_eq ht hr]
  exact State.setPhase_eq (s := { t with tube := some { x with totals := f x.totals } }) hs q

theorem State.misfireCounted_gives {s : State} {at0 : Nat} {p : Phase} {k : Head} {x : Tube}
    (hs : s.slot = some { head := k, startAt := at0, phase := p }) (ht : s.tube = some x) (hr : x.record.isSome = true) :
    let n := min (s.heads[k].misfires + 1) 65535
    let limit := decide (s.cfg.misfireLimit ≤ n)
    let v := s.misfireCounted k
    v = { s with
        mem := v.mem, slot := some { head := k, startAt := at0, phase := .idle }
        heads := vset s.heads k (misfiredHead limit s.heads[k])
        attnCause := if limit then s.attnCause ||| causeHead else s.attnCause
        tube := some (misfiredTube k (limit && (s.maskedOrder k).isSome) x) }
      ∧ Wrote s v (ifChanged (limit && s.heads[k].state != .fault) (stHeadState + k.val) 1#16
          ++ ifChanged (s.heads[k].misfires ≠ n) (stMisfires + k.val) (BitVec.ofNat 16 n)) := by
  intro n limit v
  have hcount := s.setMisfires_wrote k n
  by_cases hl : s.cfg.misfireLimit ≤ n
  · have hlimit : limit = true := decide_eq_true hl
    have hhead : (s.setMisfires k n).heads[k] = { s.heads[k] with misfires := n } := by
      rw [show (s.setMisfires k n).heads = vset s.heads k { s.heads[k] with misfires := n } from rfl, vset_getFin, if_pos rfl]
    obtain ⟨hfault, hstate⟩ := State.enterFault_gives (s := s.setMisfires k n) ht hr k
    have hv : v = (((s.setMisfires k n).enterFault k).addTotals (countMisfire k)).setPhase .idle :=
      congrArg (fun t : State => (t.addTotals (countMisfire k)).setPhase .idle) (if_pos hl)
    have hheads : vset (s.setMisfires k n).heads k { (s.setMisfires k n).heads[k] with state := .fault }
        = vset s.heads k (misfiredHead true s.heads[k]) := by
      rw [hhead]
      exact vset_vset s.heads k _ _
    rw [hheads] at hfault
    rw [hhead] at hstate
    have hwords := hcount.trans hstate
    generalize (s.setMisfires k n).enterFault k = e at hfault hwords hv
    have hslot : e.slot = some { head := k, startAt := at0, phase := p } := by rw [hfault]; exact hs
    have htube : e.tube = some (faultFlagged (s.setMisfires k n) k x) := by rw [hfault]
    rw [State.addTotals_setPhase hslot htube hr] at hv
    rw [hv, hlimit]
    refine ⟨?_, hwords.of_mem rfl rfl⟩
    rw [hfault]
    rfl
  · have hlimit : limit = false := decide_eq_false hl
    have hv : v = ((s.setMisfires k n).addTotals (countMisfire k)).setPhase .idle :=
      congrArg (fun t : State => (t.addTotals (countMisfire k)).setPhase .idle) (if_neg hl)
    rw [State.addTotals_setPhase (t := s.setMisfires k n) hs ht hr] at hv
    rw [hv, hlimit]
    exact ⟨rfl, hcount.of_mem rfl rfl⟩

/-- A record that carries no thickness reaches the open tube alone (R83, R84). -/
theorem State.takeRecord_bare {s : State} {x : Tube} (ht : s.tube = some x) (hr : x.record.isSome = true) {r : ShotRecord}
    (hv : r.outcome ≠ .valid) : s.takeRecord r = { s with tube := some (tubeTakes r x) } := by
  rw [State.takeRecord, State.noteValid, if_neg hv, State.modOpen_eq ht hr]

/-- Three words that may change, at different addresses, may be given in the other order. -/
theorem lookup_ifChanged_reverse {p q r : Bool} {a b c : Nat} {u v w : Word} (hab : a ≠ b) (hac : a ≠ c) (hbc : b ≠ c) (i : Nat) :
    (ifChanged p a u ++ (ifChanged q b v ++ ifChanged r c w)).lookup i
      = (ifChanged r c w ++ ifChanged q b v ++ ifChanged p a u).lookup i := by
  simp only [lookup_append, lookup_ifChanged]
  by_cases ha : i = a
  · simp [ha, hab, hac]
  · by_cases hb : i = b
    · simp [hb, hbc, Ne.symm hab]
    · simp [ha, hb]

theorem low_headState (k : Head) : Low (stHeadState + k.val) := by
  have := k.isLt
  simp only [Low, stHeadState, stFreeCount]
  omega

theorem low_misfires (k : Head) : Low (stMisfires + k.val) := by
  have := k.isLt
  simp only [Low, stMisfires, stFreeCount]
  omega

theorem low_of_lookup_append {L M : List (Nat × Word)} {a : Nat} (hL : (L.lookup a).isSome = true → Low a)
    (hM : (M.lookup a).isSome = true → Low a) (h : ((L ++ M).lookup a).isSome = true) : Low a := by
  rw [lookup_append, Option.isSome_or, Bool.or_eq_true] at h
  exact h.elim hL hM

/-- Settles O27. -/
theorem misfireCountsAndFaultsHead : Obligations.MisfireCountsAndFaultsHead := by
  intro s k at0 sh x hs hg ht hr ho n limit inOrder r g u y
  obtain ⟨hv, hcounted⟩ := State.misfireCounted_gives hs ht hr
  rw [State.maskedOrder_isSome] at hv
  obtain ⟨w, hw⟩ : ∃ w, w = ({ s.misfireCounted k with tube := some y } : State) := ⟨_, rfl⟩
  have hend : s.misfireShot k sh = (w.settleClosing.lateClamp k sh).closeIfDrained := by
    have htube : (s.misfireCounted k).tube = some (misfiredTube k (limit && inOrder) x) := by rw [hv]
    have htaken : (s.misfireCounted k).takeRecord r = w := (State.takeRecord_bare htube hr (by simp [r, bareRecord])).trans hw.symm
    exact (s.misfireShot_eq k sh).trans (congrArg (fun t : State => (t.settleClosing.lateClamp k sh).closeIfDrained) htaken)
  replace hcounted := hcounted.of_mem (s' := s) (t' := w) rfl (by rw [hw])
  generalize s.misfireCounted k = v at hv hw
  rw [hv] at hw
  have horder : w.tubeOrder = s.tubeOrder := State.tubeOrder_of_eq (by simp [hw, State.orderInUse, ht, y, tubeTakes]) (by rw [hw])
  have hchans : w.chans = s.chans := by rw [hw]
  have hflight : w.inFlight = none :=
    State.inFlight_of_phase (h := { head := k, startAt := at0, phase := .idle }) (by rw [hw]) rfl
  have hopen : w.tube = some y := by rw [hw]
  have hmisfire : exec .misfire s = .next (s.misfireShot k sh) := by
    have : s.misfire = s.misfireShot k sh := by
      unfold State.misfire
      simp only [hs]
    exact congrArg Host.Outcome.next this
  have hlow : ∀ b, ((ifChanged (limit && s.heads[k].state != .fault) (stHeadState + k.val) 1#16
      ++ ifChanged (s.heads[k].misfires ≠ n) (stMisfires + k.val) (BitVec.ofNat 16 n)).lookup b).isSome = true → Low b := fun b =>
    low_of_lookup_append (low_of_lookup_ifChanged (low_headState k)) (low_of_lookup_ifChanged (low_misfires k))
  obtain ⟨t, hstate, hwords, hends⟩ := State.endsWithoutStep (u := u) (hmisfire.trans (congrArg Host.Outcome.next hend)) hcounted hlow
    hopen hr (ho.imp_left fun h => by simp [y, tubeTakes, h]) hflight horder hchans rfl rfl (by rw [hw]; rfl)
  refine ⟨t, hstate, hwords.congr fun a _ => ?_, hends⟩
  rw [lookup_append _ (settledWords u y), lookup_append _ (settledWords u y), ← lookup_ifChanged_reverse (i := a)
    (by simp only [stHeadState]; omega) (by simp only [stMisfires]; omega) (by simp only [stHeadState, stMisfires]; omega)]
  rfl

/-! ### PERMIT losses (R30, R31) -/

/-- A PERMIT loss outside INIT, up to the abort of a shot (R30). -/
def State.permitLost (s : State) : State :=
  (({ ({ s with pins := { s.pins with permit := false } } : State).setFiring .suspended with resumePending := false } : State).raise
    causePermit).giveFlag tfPermitLost

theorem State.losePermit_eq {s : State} (h : s.gauge ≠ .init) : s.losePermit = s.permitLost.abortShot := if_neg h

theorem State.permitLost_gives (s : State) :
    s.permitLost = { s with
        mem := s.permitLost.mem, pins := { s.pins with permit := false }, firing := .suspended, resumePending := false
        attnCause := s.attnCause ||| causePermit
        tube := s.tube.map (fun x => if x.record.isSome then { x with flags := x.flags ||| tfPermitLost } else x) }
      ∧ Wrote s s.permitLost (ifChanged (s.firing ≠ .suspended) stFiring 0#16) :=
  ⟨rfl, (({ s with pins := { s.pins with permit := false } } : State).setFiring_wrote .suspended).of_mem rfl rfl⟩

theorem State.abortShot_none {s : State} (h : s.inFlight = none) : s.abortShot = s := by
  unfold State.abortShot
  rw [h]

/-- The shot in flight, of head `k`, is aborted: up to the close of the tube (R31, R41, R109). -/
theorem State.abortShot_some {s : State} {k : Head} {sh : Shot} (h : s.inFlight = some (k, sh)) :
    s.abortShot = ((((s.setPhase .idle).addTotals (fun t => { t with aborted := sat32 t.aborted 1 })).settleClosing).lateClamp k
      sh).closeIfDrained := by
  unfold State.abortShot
  rw [h]

theorem low_firing : Low stFiring := by
  simp only [Low, stFiring, stFreeCount]
  decide

/-- Settles O28. -/
theorem permitLossSuspendsAndAborts : Obligations.PermitLossSuspendsAndAborts := by
  refine ⟨fun s => ⟨rfl, fun hg => ?_, fun hg hf => ?_⟩, fun s k at0 p sh x hs hp hg ht hr ho => ?_⟩
  · exact congrArg Host.Outcome.next (if_pos hg)
  · obtain ⟨hlost, hwords⟩ := s.permitLost_gives
    have hflight : s.permitLost.inFlight = none := hf
    exact ⟨s.permitLost, congrArg Host.Outcome.next ((State.losePermit_eq hg).trans (State.abortShot_none hflight)), hlost, hwords⟩
  · intro g u y
    obtain ⟨hlost, hfiring⟩ := s.permitLost_gives
    obtain ⟨w, hw⟩ : ∃ w, w = (s.permitLost.setPhase .idle).addTotals (fun t => { t with aborted := sat32 t.aborted 1 }) := ⟨_, rfl⟩
    have hinit : s.gauge ≠ .init := by rcases hg with h | h <;> rw [h] <;> decide
    have hexec : exec .permitLoss s = .next (w.settleClosing.lateClamp k sh).closeIfDrained := by
      have hflight : s.permitLost.inFlight = some (k, sh) := by
        have : s.permitLost.slot = s.slot := rfl
        simp [State.inFlight, this, hs, hp]
      rw [hw]
      exact congrArg Host.Outcome.next ((State.losePermit_eq hinit).trans (State.abortShot_some hflight))
    have hlow : ∀ a, ((ifChanged (s.firing ≠ .suspended) stFiring 0#16).lookup a).isSome = true → Low a := fun a =>
      low_of_lookup_ifChanged low_firing
    have hwrote : Wrote s w (ifChanged (s.firing ≠ .suspended) stFiring 0#16) := hfiring.of_mem rfl (by rw [hw]; rfl)
    generalize s.permitLost = v at hlost hw
    have hstate : w = { v with slot := some { head := k, startAt := at0, phase := .idle }, tube := some y } := by
      have hvs : v.slot = some { head := k, startAt := at0, phase := p } := by rw [hlost]; exact hs
      have hvt : v.tube = some { x with flags := x.flags ||| tfPermitLost } := by rw [hlost]; simp [ht, hr]
      rw [hw, State.setPhase_eq hvs, State.addTotals]
      exact State.modOpen_eq (s := { v with slot := some { head := k, startAt := at0, phase := .idle } }) hvt hr _
    rw [hlost] at hstate
    obtain ⟨t, hnext, hwords, hends⟩ := State.endsWithoutStep (u := u) (y := y) hexec hwrote hlow (by rw [hstate]) hr
      (ho.imp_left fun h => h) (State.inFlight_of_phase (h := { head := k, startAt := at0, phase := .idle }) (by rw [hstate]) rfl)
      (State.tubeOrder_of_eq (by simp [hstate, State.orderInUse, ht, y]) (by rw [hstate])) (by rw [hstate]) rfl rfl (by rw [hstate])
    refine ⟨t, hnext, hwords.congr fun a _ => ?_, hends⟩
    rw [lookup_append _ (settledWords u y), lookup_append _ (settledWords u y),
      ← lookup_ifChanged_swap (by simp only [stFiring]; omega)]
    rfl

/-! ### Fire decisions without FIRE (R19 to R21) -/

theorem State.fireDecision_quiet {s : State} {k : Head} {at0 count : Nat}
    (hs : s.slot = some { head := k, startAt := at0, phase := .quiet count }) : s.fireDecision = s.takeDecision k count := by
  unfold State.fireDecision
  simp only [hs]

theorem State.maskedOrder_some {s : State} {k : Head} {n : Snapshot} (hn : s.tubeOrder = some n)
    (hm : inMask n.recipe.headMask k = true) : s.maskedOrder k = some n := by
  rw [State.maskedOrder, hn, Option.filter_some, if_pos hm]

/-- A slot whose gate counted more than the noise limit is NOISY (R20). -/
theorem State.takeDecision_noisy {s : State} {k : Head} {count : Nat} {n : Snapshot} (hn : s.tubeOrder = some n)
    (hm : inMask n.recipe.headMask k = true) (hfire : s.mayFire k = true) (hq : s.cfg.quietGate ≠ 0)
    (hcount : n.recipe.noiseLimit < count) : s.takeDecision k count = s.noisySlot k n := by
  unfold State.takeDecision
  simp only [State.maskedOrder_some hn hm, hfire, if_true, State.gateCount, hq, if_false]
  exact if_neg (Nat.not_le.2 hcount)

theorem State.takeDecision_dry {s : State} {k : Head} (count : Nat) (h : s.maskedOrder k = none ∨ s.mayFire k = false) :
    s.takeDecision k count = s.drySlot k := by
  unfold State.takeDecision
  cases hm : s.maskedOrder k with
  | none => rfl
  | some n =>
    have hfire : s.mayFire k = false := h.resolve_left (by simp [hm])
    simp only [hfire, Bool.false_eq_true, if_false]

/-- Whether a dry slot of head `k` is counted as suspended (R21). -/
theorem drySlot_counts_iff (s : State) (k : Head) :
    (s.gauge == .measuring && s.firing == .suspended && s.hasRecord && (s.maskedOrder k).isSome) = true
      ↔ s.gauge = .measuring ∧ s.firing = .suspended ∧ s.hasRecord = true
        ∧ ∃ n, s.tubeOrder = some n ∧ inMask n.recipe.headMask k = true := by
  rw [State.maskedOrder_isSome]
  simp only [Bool.and_eq_true, beq_iff_eq, decide_eq_true_eq, and_assoc]

/-- Settles O25. -/
theorem fireDecisionWithoutFire : Obligations.FireDecisionWithoutFire := by
  refine ⟨fun s k at0 count n x hs hg hn hm hfiring hon hq hcount ht hr => ?_, fun s k at0 count hs hdry => ?_⟩
  · intro r u
    have hmay : s.mayFire k = true := by simp [State.mayFire, hg, hfiring, hon, -Fin.getElem_fin]
    obtain ⟨v, hv⟩ : ∃ v, v = ({ u with tube := some (tubeTakes r x) } : State) := ⟨_, rfl⟩
    have hexec : exec .fireDecision s = .next v.settleClosing := by
      have htaken : (s.setPhase .idle).takeRecord r = v := by
        rw [State.setPhase_eq hs, hv]
        exact State.takeRecord_bare (s := u) ht hr (by simp [r])
      have hnoisy : s.noisySlot k n = v.settleClosing := congrArg State.settleClosing htaken
      rw [← hnoisy, ← State.takeDecision_noisy hn hm hmay hq hcount, ← State.fireDecision_quiet hs]
      rfl
    have hopen : v.tube = some (tubeTakes r x) := by rw [hv]
    have hflight : v.inFlight = none :=
      State.inFlight_of_phase (h := { head := k, startAt := at0, phase := .idle }) (by rw [hv]) rfl
    have horder : v.tubeOrder = s.tubeOrder :=
      State.tubeOrder_of_eq (by simp [hv, u, State.orderInUse, ht, tubeTakes]) (by rw [hv])
    have huorder : u.tubeOrder = v.tubeOrder := horder.symm
    refine ⟨fun hc => ?_, v.settleClosing, hexec, ?_⟩
    · rw [hexec, State.settleClosing_none hopen (by simp [tubeTakes, hc]), hv]
    · obtain ⟨hw, hwords⟩ := State.settleClosing_changes hopen hr (.inr (by rw [horder, hn]; rfl)) hflight
      have hsame : settledWords u (tubeTakes r x) = settledWords v (tubeTakes r x) :=
        settledWords_congr (by rw [hv]) huorder (by rw [hv]) _
      rw [hsame]
      have hchans : v.settleClosing.chans = s.chans := by
        simp only [State.settleClosing_frame]
        rw [hv]
      refine ⟨settled_of_settleClosing (chans := s.chans) hw ?_ (by rw [hv]) huorder, hwords.of_mem (by rw [hv]) rfl⟩
      rw [← hchans]
  · have hdecision : exec .fireDecision s = .next (s.drySlot k) := by
      refine congrArg Host.Outcome.next ((State.fireDecision_quiet hs).trans (State.takeDecision_dry count ?_))
      rcases hdry with h | h | h | h
      · exact .inr (by simp [State.mayFire, h])
      · exact .inr (by simp [State.mayFire, h])
      · exact .inr (by simp [State.mayFire, h, -Fin.getElem_fin])
      · refine .inl (Option.filter_eq_none_iff.2 fun n hn => by simp [h n hn])
    rw [hdecision]
    intro counts
    refine ⟨fun hc => ?_, fun hc => ?_⟩
    · have hidle : s.drySlot k = s.setPhase .idle := if_neg fun h => hc ((drySlot_counts_iff s k).1 h)
      rw [hidle, State.setPhase_eq hs]
    · have hidle : s.drySlot k = (s.setPhase .idle).addTotals (fun t => { t with suspended := sat32 t.suspended 1 }) :=
        if_pos ((drySlot_counts_iff s k).2 hc)
      obtain ⟨-, -, hrec, -⟩ := hc
      unfold State.hasRecord at hrec
      cases ht : s.tube with
      | none => simp [ht] at hrec
      | some x =>
        rw [ht] at hrec
        rw [hidle, State.setPhase_eq hs, State.addTotals]
        exact congrArg Host.Outcome.next
          (State.modOpen_eq (s := { s with slot := some { head := k, startAt := at0, phase := .idle } }) ht hrec _)

end Sys2Proof.Machine
end

section
/-! PROOFS. The four channels under an order (R38, R41, R42), and amendments at cycle starts (R40, R41, R106, R151, R152). -/

namespace Sys2Proof.Machine

open Safety

/-! ### The four channels, one after another -/

/-- An operation on channel `k` that changes only that channel, by `f`, and the words `w` that depend on it alone. -/
def OnChannel (F : State → Head → State) (f : Head → Channel → Channel) (w : Head → Channel → List (Nat × Word)) : Prop :=
  ∀ (u : State) (k : Head), F u k = { u with mem := (F u k).mem, chans := vset u.chans k (f k u.chans[k]) }
      ∧ Wrote u (F u k) (w k u.chans[k])

theorem vset_all (v : Vector Channel 4) (f : Head → Channel → Channel) :
    vset (vset (vset (vset v 0 (f 0 v[(0 : Head)])) 1 (f 1 v[(1 : Head)])) 2 (f 2 v[(2 : Head)])) 3 (f 3 v[(3 : Head)])
      = Vector.ofFn fun k : Head => f k v[k] := by
  ext i hi
  match i, hi with
  | 0, _ | 1, _ | 2, _ | 3, _ => simp [vset]

/-- What a channel operation leaves of the other channels. -/
theorem OnChannel.other {F : State → Head → State} {f : Head → Channel → Channel} {w : Head → Channel → List (Nat × Word)}
    (h : OnChannel F f w) (u : State) {k j : Head} (hj : k ≠ j) : (F u k).chans[j] = u.chans[j] := by
  rw [show (F u k).chans = vset u.chans k (f k u.chans[k]) by rw [(h u k).1], vset_getFin, if_neg hj]

/-- The four channels are done in ascending order, each on its own (R38, R41). -/
theorem OnChannel.forHeads {F : State → Head → State} {f : Head → Channel → Channel} {w : Head → Channel → List (Nat × Word)}
    (h : OnChannel F f w) (s : State) :
    forHeads F s = { s with mem := (forHeads F s).mem, chans := Vector.ofFn fun k : Head => f k s.chans[k] }
      ∧ Wrote s (forHeads F s)
        (w 3 s.chans[(3 : Head)] ++ (w 2 s.chans[(2 : Head)] ++ (w 1 s.chans[(1 : Head)] ++ w 0 s.chans[(0 : Head)]))) := by
  obtain ⟨ha, wa⟩ := h s 0
  obtain ⟨hb, wb⟩ := h (F s 0) 1
  obtain ⟨hc, wc⟩ := h (F (F s 0) 1) 2
  obtain ⟨hd, wd⟩ := h (F (F (F s 0) 1) 2) 3
  have h1 : (F s 0).chans[(1 : Head)] = s.chans[(1 : Head)] := OnChannel.other h s (by decide)
  have h2 : (F (F s 0) 1).chans[(2 : Head)] = s.chans[(2 : Head)] := by
    rw [OnChannel.other h _ (by decide), OnChannel.other h s (by decide)]
  have h3 : (F (F (F s 0) 1) 2).chans[(3 : Head)] = s.chans[(3 : Head)] := by
    rw [OnChannel.other h _ (by decide), OnChannel.other h _ (by decide), OnChannel.other h s (by decide)]
  rw [h1] at hb wb
  rw [h2] at hc wc
  rw [h3] at hd wd
  refine ⟨?_, ((wa.trans wb).trans wc).trans wd⟩
  rw [← vset_all]
  unfold Machine.forHeads
  generalize F (F (F s 0) 1) 2 = c at *
  generalize F (F s 0) 1 = b at *
  generalize F s 0 = a at *
  rw [hd, hc, hb, ha]

/-- One word of each channel, at consecutive addresses, may be given in ascending order. -/
theorem wrote_ascending {s t : State} {base : Nat} {c : Head → Bool} {v : Head → Word}
    (h : Wrote s t (ifChanged (c 3) (base + 3) (v 3) ++ (ifChanged (c 2) (base + 2) (v 2) ++ (ifChanged (c 1) (base + 1) (v 1)
      ++ ifChanged (c 0) (base + 0) (v 0))))) :
    Wrote s t ((List.finRange 4).flatMap fun k => ifChanged (c k) (base + k.val) (v k)) := by
  refine h.congr fun a _ => ?_
  have hlist : (List.finRange 4).flatMap (fun k => ifChanged (c k) (base + k.val) (v k))
      = ifChanged (c 0) (base + 0) (v 0) ++ (ifChanged (c 1) (base + 1) (v 1) ++ (ifChanged (c 2) (base + 2) (v 2)
        ++ (ifChanged (c 3) (base + 3) (v 3) ++ []))) := rfl
  rw [hlist, List.append_nil]
  simp only [lookup_append, lookup_ifChanged]
  by_cases h0 : a = base + 0
  · simp [h0]
  · by_cases h1 : a = base + 1
    · simp [h1]
    · by_cases h2 : a = base + 2
      · simp [h2]
      · simp only [h0, h1, h2, and_false, if_false, Option.none_or, Option.or_none]

/-- A channel as an amendment leaves it (R41). -/
def amendedChannel (r : Recipe) (skip : Option Head) (k : Head) (c : Channel) : Channel :=
  { c with gain := clampBut r skip k c.gain, dac := r.threshold }

/-- The gain word of a channel whose gain code becomes `g` (R37). -/
def gainWord (k : Head) (c : Channel) (g : Nat) : List (Nat × Word) := ifChanged (c.gain ≠ g) (stGain + k.val) (BitVec.ofNat 16 g)

theorem State.amendChannels_gives (s : State) (r : Recipe) (skip : Option Head) :
    s.amendChannels r skip = { s with
        mem := (s.amendChannels r skip).mem, chans := Vector.ofFn fun k : Head => amendedChannel r skip k s.chans[k] }
      ∧ Wrote s (s.amendChannels r skip)
        ((List.finRange 4).flatMap fun k => gainWord k s.chans[k] (clampBut r skip k s.chans[k].gain)) := by
  have one : OnChannel (fun u k => (if skip = some k then u else u.clampChannel r k).setDac k r.threshold) (amendedChannel r skip)
      (fun k c => gainWord k c (clampBut r skip k c.gain)) := by
    intro u k
    by_cases hk : skip = some k
    · have hgain : clampBut r skip k u.chans[k].gain = u.chans[k].gain := if_pos hk
      have hwords : gainWord k u.chans[k] u.chans[k].gain = [] := by simp [gainWord, ifChanged]
      dsimp only
      rw [if_pos hk, amendedChannel, hgain, hwords]
      exact ⟨rfl, (wrote_nil u u rfl).of_mem rfl rfl⟩
    · have hgain : clampBut r skip k u.chans[k].gain = clampGain r.gmin r.gmax u.chans[k].gain := if_neg hk
      dsimp only
      rw [if_neg hk, amendedChannel, hgain]
      refine ⟨?_, (u.setGain_wrote k _).of_mem rfl rfl⟩
      rw [State.clampChannel, State.setDac, State.setGain_chans, vset_vset, vset_getFin, if_pos rfl]
      rfl
  exact ⟨(one.forHeads s).1, wrote_ascending (one.forHeads s).2⟩

/-- A channel as a head event with an order loads it (R38, R42). -/
def loadedChannel (r : Recipe) (c : Channel) : Channel := { c with gain := r.g0, dac := r.threshold, polarity := r.polarity }

theorem State.loadChannels_gives (s : State) (r : Recipe) :
    s.loadChannels r = { s with mem := (s.loadChannels r).mem, chans := Vector.ofFn fun k : Head => loadedChannel r s.chans[k] }
      ∧ Wrote s (s.loadChannels r) ((List.finRange 4).flatMap fun k => gainWord k s.chans[k] r.g0) := by
  have one : OnChannel (fun u k => ((u.setGain k r.g0).setDac k r.threshold).setPolarity k r.polarity) (fun _ => loadedChannel r)
      (fun k c => gainWord k c r.g0) := by
    intro u k
    refine ⟨?_, (u.setGain_wrote k _).of_mem rfl rfl⟩
    have hchans : (((u.setGain k r.g0).setDac k r.threshold).setPolarity k r.polarity).chans
        = vset u.chans k (loadedChannel r u.chans[k]) := by
      simp only [State.setPolarity_chans, State.setDac_chans, State.setGain_chans, vset_vset, vset_getFin, if_true]
      rfl
    rw [← hchans]
    rfl
  exact ⟨(one.forHeads s).1, wrote_ascending (one.forHeads s).2⟩

/-! ### The application of an amendment (R41, R106, R152) -/

/-- The open tube, AMENDED (R106, R126). -/
def markedTube (x : Tube) : Tube :=
  { x with
    opened := x.opened.map (fun a => { a with flags := a.flags ||| sfAmended })
    flags := if x.record.isSome then x.flags ||| tfAmended else x.flags }

theorem State.markAmended_eq (s : State) : s.markAmended = { s with tube := s.tube.map markedTube } := by
  unfold State.markAmended State.giveFlag State.modOpen State.modTube
  cases s.tube with
  | none => rfl
  | some x =>
    simp only [Option.map_some, markedTube]
    split <;> rfl

/-- The slot whose shot was fired at this instant (R41). -/
def deferredSlot (fired : Bool) (h : HeadSlot) : HeadSlot :=
  { h with phase := match h.phase with
    | .awaitConf sh => .awaitConf { sh with clampDue := sh.clampDue || fired }
    | p => p }

/-- The shot in flight, if there is one, awaits its confirm: so it is with a shot that was fired just now. -/
def OnlyAwaits (s : State) : Prop := ∀ h, s.slot = some h → phaseShot h.phase = none ∨ ∃ sh, h.phase = .awaitConf sh

theorem State.deferClamp_eq {s : State} {fired : Bool} (h : fired = true → OnlyAwaits s) :
    (if fired then s.deferClamp else s) = { s with slot := s.slot.map (deferredSlot fired) } := by
  have hslot : s.slot = s.slot.map (deferredSlot false) := by
    cases hs : s.slot with
    | none => rfl
    | some hd =>
      obtain ⟨k, at0, p⟩ := hd
      cases p <;> simp [deferredSlot]
  cases fired with
  | false =>
    rw [if_neg Bool.false_ne_true, ← hslot]
  | true =>
    have honly := h rfl
    rw [if_pos rfl, State.deferClamp]
    cases hs : s.slot with
    | none => rfl
    | some hd =>
      obtain ⟨k, at0, p⟩ := hd
      have hp := honly _ hs
      cases p <;> simp_all [deferredSlot, phaseShot]

/-- The order in use goes over to the amended settings (R41, R106, R152). -/
theorem State.amendUse_gives {s : State} {fired : Bool} (h : fired = true → OnlyAwaits s) (r : Recipe) :
    let skip := if fired then s.inFlight.map Prod.fst else none
    s.amendUse r fired = { s with
        mem := (s.amendUse r fired).mem, slot := s.slot.map (deferredSlot fired)
        chans := Vector.ofFn fun k : Head => amendedChannel r skip k s.chans[k], tube := s.tube.map markedTube }
      ∧ Wrote s (s.amendUse r fired) ((List.finRange 4).flatMap fun k => gainWord k s.chans[k] (clampBut r skip k s.chans[k].gain)) := by
  intro skip
  have huse : s.amendUse r fired = (({ s with slot := s.slot.map (deferredSlot fired) } : State).amendChannels r skip).markAmended := by
    rw [← State.deferClamp_eq h]
    rfl
  obtain ⟨hchans, hwords⟩ := ({ s with slot := s.slot.map (deferredSlot fired) } : State).amendChannels_gives r skip
  rw [huse, State.markAmended_eq]
  refine ⟨?_, hwords.of_mem rfl rfl⟩
  rw [hchans]

theorem clampBut_ne_iff (r : Recipe) (skip : Option Head) (k : Head) (g : Nat) :
    g ≠ clampBut r skip k g ↔ (g < r.gmin ∨ r.gmax < g) ∧ skip ≠ some k := by
  unfold clampBut clampGain
  by_cases hs : skip = some k
  · simp [hs]
  · by_cases h1 : g < r.gmin
    · simp [hs, h1]; omega
    · by_cases h2 : r.gmax < g
      · simp [hs, h1, h2]; omega
      · simp [hs, h1, h2]

/-- A channel of an amended order, as `amended` says it. -/
theorem amendedChannel_eq (r : Recipe) (y : Amendment) (fired : Bool) (shot : Option Head) (v : Vector Channel 4) :
    (Vector.ofFn fun k : Head => amendedChannel (amendRecipe r y) (if fired then shot else none) k v[k])
      = Vector.ofFn fun k : Head => { v[k] with
        gain := if fired && decide (shot = some k) then v[k].gain
          else if v[k].gain < y.gmin then y.gmin else if y.gmax < v[k].gain then y.gmax else v[k].gain
        dac := y.threshold } := by
  refine congrArg Vector.ofFn (funext fun k => ?_)
  unfold amendedChannel clampBut clampGain
  cases fired <;> simp [amendRecipe] <;> rfl

/-- The gain word of a channel of an amended order, as `amendedWords` says it. -/
theorem gainWord_amended (r : Recipe) (y : Amendment) (fired : Bool) (shot : Option Head) (k : Head) (c : Channel) :
    gainWord k c (clampBut (amendRecipe r y) (if fired then shot else none) k c.gain)
      = ifChanged ((c.gain < y.gmin ∨ y.gmax < c.gain) ∧ ¬(fired = true ∧ shot = some k)) (0x24 + k.val)
        (BitVec.ofNat 16 (if c.gain < y.gmin then y.gmin else y.gmax)) := by
  have hskip : (if fired then shot else none) ≠ some k ↔ ¬(fired = true ∧ shot = some k) := by cases fired <;> simp
  unfold gainWord
  by_cases hmoved : (c.gain < y.gmin ∨ y.gmax < c.gain) ∧ ¬(fired = true ∧ shot = some k)
  · have hvalue : clampBut (amendRecipe r y) (if fired then shot else none) k c.gain = if c.gain < y.gmin then y.gmin else y.gmax := by
      unfold clampBut clampGain
      rw [if_neg (hskip.2 hmoved.2)]
      by_cases hlo : c.gain < y.gmin
      · simp [amendRecipe, hlo]
      · simp [amendRecipe, hlo, hmoved.1.resolve_left hlo]
    rw [decide_eq_true ((clampBut_ne_iff _ _ _ _).2 ⟨hmoved.1, hskip.2 hmoved.2⟩), decide_eq_true hmoved, hvalue]
    rfl
  · rw [decide_eq_false fun h => hmoved (((clampBut_ne_iff _ _ _ _).1 h).imp id hskip.1), decide_eq_false hmoved]
    rfl

/-- An amendment applied at a cycle start (R41, R106, R152). -/
theorem State.applyAtCycle_gives {s : State} {j : SlotNo} {n : Snapshot} {fired : Bool} (hn : s.slots[j].snapshot = some n)
    (h : fired = true → OnlyAwaits s) (y : Amendment) :
    s.applyAtCycle j y fired = { amended s j y fired with mem := (s.applyAtCycle j y fired).mem }
      ∧ Wrote s (s.applyAtCycle j y fired) (amendedWords s j y fired) := by
  by_cases hu : s.orderInUse = some j
  · have hx : (amendedSlot s.slots[j] y).snapshot = some (amendSnapshot n y) := by rw [amendedSlot, hn]; rfl
    have happ : s.applyAtCycle j y fired
        = ((s.setSlot j (amendedSlot s.slots[j] y)).amendUse (amendRecipe n.recipe y) fired).answerSlot j ansOk := by
      unfold State.applyAtCycle
      simp only [hx, decide_eq_true hu]
      rfl
    obtain ⟨huse, hgains⟩ := State.amendUse_gives (s := s.setSlot j (amendedSlot s.slots[j] y)) h (amendRecipe n.recipe y)
    rw [happ]
    generalize (s.setSlot j (amendedSlot s.slots[j] y)).amendUse (amendRecipe n.recipe y) fired = u at huse hgains
    have hslot : u.slots[j] = amendedSlot s.slots[j] y := by
      rw [show u.slots = vset s.slots j (amendedSlot s.slots[j] y) by rw [huse]; rfl, vset_getFin, if_pos rfl]
    have hanswer := (u.answerSlot_effect j ansOk).2
    rw [hslot] at hanswer
    refine ⟨State.eq_withMem _ _ ?_, ((hgains.of_mem rfl rfl).trans hanswer).congr fun a _ => ?_⟩
    · have hframe : { u.answerSlot j ansOk with mem := [] }
          = ({ u with mem := [], attnCause := u.attnCause ||| causeRequest } : State) := rfl
      rw [hframe, huse, amended, if_pos hu, amendedChannel_eq]
      rfl
    · refine congrArg (List.lookup a) ?_
      have hlist : (List.finRange 4).flatMap (fun k => gainWord k s.chans[k]
            (clampBut (amendRecipe n.recipe y) (if fired then s.inFlight.map Prod.fst else none) k s.chans[k].gain))
          = (List.finRange 4).flatMap fun k => ifChanged (s.orderInUse = some j ∧ (s.chans[k].gain < y.gmin ∨ y.gmax < s.chans[k].gain)
            ∧ ¬(fired = true ∧ s.inFlight.map Prod.fst = some k)) (0x24 + k.val)
            (BitVec.ofNat 16 (if s.chans[k].gain < y.gmin then y.gmin else y.gmax)) :=
        congrArg (List.flatMap · (List.finRange 4)) (funext fun k => by rw [gainWord_amended]; simp only [hu, true_and])
      exact congrArg ([(slotAddr j 1, 0#16), (slotAddr j 2, 1#16)] ++ ·) hlist.symm
  · have hwords : amendedWords s j y fired = [(slotAddr j 1, 0#16), (slotAddr j 2, 1#16)] := by
      simp [amendedWords, hu, ifChanged]
    rw [s.applyAtCycle_unused j y fired hu, hwords, amended, if_neg hu]
    exact ⟨rfl, wrote_setSlot_answer s j _ _⟩

end Sys2Proof.Machine
end

section
/-! PROOFS. Immediate amendments at cycle starts: in every order that the instant allows (R40, R41, R151, R152). -/

namespace Sys2Proof.Machine

open Safety

theorem State.dueAmendment_of {s : State} {j : SlotNo} {y : Amendment} (hc : s.current = some j) (hy : s.slots[j].amendment = some y)
    (hi : y.immediate = true) : s.dueAmendment = some (j, y) := by
  rw [State.dueAmendment, hc, Option.bind_some, hy, Option.filter_some, if_pos hi]
  rfl

theorem State.cycleAmend_due {s : State} {j : SlotNo} {y : Amendment} (h : s.dueAmendment = some (j, y)) (fired : Bool) :
    s.cycleAmend fired = s.applyAtCycle j y fired := by
  unfold State.cycleAmend
  simp only [h]

theorem amended_withMem (s : State) (m : Memory) (j : SlotNo) (y : Amendment) (fired : Bool) :
    amended { s with mem := m } j y fired = { amended s j y fired with mem := m } := by
  unfold amended
  change (if s.orderInUse = some j then _ else _) = _
  split <;> rfl

/-- An amendment, once applied, is due no more. -/
theorem State.applyAtCycle_notDue {s : State} {j : SlotNo} {n : Snapshot} {fired : Bool} (hn : s.slots[j].snapshot = some n)
    (h : fired = true → OnlyAwaits s) (hc : s.current = some j) (y : Amendment) : (s.applyAtCycle j y fired).dueAmendment = none := by
  obtain ⟨hgives, -⟩ := State.applyAtCycle_gives hn h y
  have hslots : (amended s j y fired).slots[j].amendment = none := by
    have : (amended s j y fired).slots = vset s.slots j { s.slots[j] with
        snapshot := s.slots[j].snapshot.map (fun n => { n with recipe := amendRecipe n.recipe y }), amendment := none } := by
      unfold amended
      dsimp only
      split <;> rfl
    rw [this, vset_getFin, if_pos rfl]
  have hcurrent : (amended s j y fired).current = some j := by
    unfold amended
    dsimp only
    split <;> exact hc
  rw [hgives, State.dueAmendment, hcurrent, Option.bind_some, hslots]
  rfl

theorem amendedWords_restarted (s : State) (j : SlotNo) (y : Amendment) (fired : Bool) :
    amendedWords s.restartFiring j y fired = amendedWords s j y fired := by
  have huse : s.restartFiring.orderInUse = s.orderInUse := by rw [State.orderInUse, s.restartFiring_eq.1]; rfl
  have hflight : s.restartFiring.inFlight = s.inFlight := State.inFlight_congr (by simp)
  have hchans : s.restartFiring.chans = s.chans := by simp
  rw [amendedWords, amendedWords, huse, hflight, hchans]

/-- The words of an amendment do not touch the firing-state word. -/
theorem amendedWords_firing (s : State) (j : SlotNo) (y : Amendment) (fired : Bool) :
    (amendedWords s j y fired).lookup stFiring = none := by
  have hslot : ∀ i v, ([(slotAddr j i, v)] : List (Nat × Word)).lookup stFiring = none := fun i v =>
    lookup_none_of_ne (by simp only [stFiring, slotAddr, Config.slotBase]; omega)
  have hgain : ∀ (c : Bool) (k : Nat) v, (ifChanged c (0x24 + k) v).lookup stFiring = none := fun c k v => by
    rw [lookup_ifChanged, if_neg (fun h => absurd h.2 (by simp only [stFiring]; omega))]
  have hflat : ∀ (c : Head → Bool) (v : Head → Word),
      ((List.finRange 4).flatMap fun k => ifChanged (c k) (0x24 + k.val) (v k)).lookup stFiring = none := fun c v => by
    have hlist : (List.finRange 4).flatMap (fun k => ifChanged (c k) (0x24 + k.val) (v k))
      = ifChanged (c 0) (0x24 + 0) (v 0) ++ (ifChanged (c 1) (0x24 + 1) (v 1) ++ (ifChanged (c 2) (0x24 + 2) (v 2)
        ++ (ifChanged (c 3) (0x24 + 3) (v 3) ++ []))) := rfl
    rw [hlist]
    simp only [lookup_append, hgain, List.lookup_nil, Option.or_none]
  have hpair : ([(slotAddr j 1, 0#16), (slotAddr j 2, 1#16)] : List (Nat × Word)) = [(slotAddr j 1, 0#16)] ++ [(slotAddr j 2, 1#16)] := rfl
  rw [amendedWords, hpair, lookup_append, lookup_append, hslot, hslot, hflat]
  rfl

/-- Firing may return, and then the amendment that is due is applied (R32, R33, R152). -/
theorem State.restart_amend_gives {s : State} {j : SlotNo} {n : Snapshot} {y : Amendment} (hc : s.current = some j)
    (hn : s.slots[j].snapshot = some n) (hy : s.slots[j].amendment = some y) (hi : y.immediate = true) :
    let u := s.restartFiring.cycleAmend false
    u = { amended (restarted s) j y false with mem := u.mem }
      ∧ Wrote s u (ifChanged (firingReturns s) stFiring 1#16 ++ amendedWords s j y false) ∧ Calm u ∧ u.slot = s.slot
      ∧ u.gauge = s.gauge := by
  intro u
  obtain ⟨hrestart, hfiring⟩ := s.restartFiring_eq
  have hn' : s.restartFiring.slots[j].snapshot = some n := by simpa using hn
  have hdue : s.restartFiring.dueAmendment = some (j, y) := State.dueAmendment_of (by simpa using hc) (by simpa using hy) hi
  have hu : u = s.restartFiring.applyAtCycle j y false := State.cycleAmend_due hdue false
  obtain ⟨hgives, hwords⟩ := State.applyAtCycle_gives hn' (fired := false) (fun h => absurd h Bool.false_ne_true) y
  rw [← hu] at hgives hwords
  rw [amendedWords_restarted] at hwords
  refine ⟨?_, (hfiring.trans hwords).congr fun a _ => ?_, ⟨?_, ?_⟩, ?_, ?_⟩
  · rw [hrestart, amended_withMem] at hgives
    exact hgives
  · rw [lookup_append, lookup_append, lookup_ifChanged]
    split
    · next h => rw [h.2, amendedWords_firing]; rfl
    · rw [Option.none_or, Option.or_none]
  · rw [hu]
    exact State.applyAtCycle_notDue hn' (fun h => absurd h Bool.false_ne_true) (by simpa using hc) y
  · have hsame : firingReturns u = firingReturns s.restartFiring := by simp [firingReturns, State.cfg, u]
    rw [hsame, firingReturns_restartFiring]
  · exact (State.cycleAmend_slot _).trans (by simp)
  · simp [u]

/-- After a fire decision the present slot has no shot in flight or awaits its confirm (R19 to R22). -/
theorem State.fireDecision_onlyAwaits {s : State} (h : s.inFlight = none) : OnlyAwaits s.fireDecision := by
  have hphase : ∀ (u : State) (p : Phase), (phaseShot p = none ∨ ∃ sh, p = .awaitConf sh) → OnlyAwaits (u.setPhase p) := by
    intro u p hp hd hs
    obtain ⟨e, -, rfl⟩ := Option.map_eq_some_iff.1 hs
    exact hp
  have hcongr : ∀ u v : State, v.slot = u.slot → OnlyAwaits u → OnlyAwaits v := fun u v hs hu hd hv => hu hd (hs ▸ hv)
  have hidle : ∀ u v : State, v.slot = (u.setPhase .idle).slot → OnlyAwaits v := fun u v hs =>
    hcongr _ v hs (hphase u .idle (.inl rfl))
  have hsame : OnlyAwaits s := fun hd hs => .inl (by
    unfold State.inFlight at h
    rwa [hs, Option.bind_some, Option.map_eq_none_iff] at h)
  have hdry : ∀ k, OnlyAwaits (s.drySlot k) := fun k => hidle s _ (by unfold State.drySlot; dsimp only; split <;> simp)
  unfold State.fireDecision
  split
  · split
    · unfold State.takeDecision
      split
      · exact hdry _
      · split
        · split
          · exact hcongr _ _ rfl (hphase s (.awaitConf _) (.inr ⟨_, rfl⟩))
          · exact hidle s _ (by simp [State.noisySlot])
        · exact hdry _
    · exact hsame
  · exact hsame

/-- Where a slot holds nothing but a shot that awaits its confirm, awaiting is having one in flight. -/
theorem OnlyAwaits.awaiting_eq {s : State} (h : OnlyAwaits s) : s.awaiting = decide (s.inFlight ≠ none) := by
  unfold State.awaiting State.inFlight
  cases hs : s.slot with
  | none => rfl
  | some hd =>
    obtain ⟨k, at0, p⟩ := hd
    have hp := h _ hs
    cases p <;> simp_all [phaseShot]

/-- Settles O19. -/
theorem immediateAmendmentIsAppliedAtCycleStart : Obligations.ImmediateAmendmentIsAppliedAtCycleStart := by
  intro s j n y o a hrun hc hn hy hi
  obtain ⟨hgives, hwords, hcalm, hslot, hgauge⟩ := State.restart_amend_gives hc hn hy hi
  refine ⟨fun hf ho => ?_, fun hnot => ?_, fun hf hq => ?_⟩
  · obtain ⟨hwait, hcut⟩ := State.cutSlot_none hf a
    have hfresh : s.freshCycle = (s.restartFiring.cycleAmend false).openCycle := rfl
    have hbegin : s.beginCycle o a = s.freshCycle := by
      cases o with
      | cutFirst => rw [State.beginCycle, hcut, State.ifRunning_runs hrun]
      | amendFirst =>
        rw [State.beginCycle, (State.cutSlot_none ((State.inFlight_congr hslot).trans hf) a).2,
          State.ifRunning_runs (by rw [hgauge]; exact hrun)]
        rfl
      | decisionFirst => rw [State.beginCycle, hcut, State.ifRunning_runs hrun, State.decidedCycle, if_neg (ho rfl)]
    refine ⟨_, congrArg Host.Outcome.next ((State.cycleStart_eq hrun hwait o a).trans (hbegin.trans hfresh)), ?_, hwords.of_mem rfl rfl⟩
    generalize s.restartFiring.cycleAmend false = u at hgives
    generalize amended (restarted s) j y false = v at hgives
    rw [hgives]
    rfl
  · have hwait : s.awaiting = false := by
      unfold State.awaiting
      cases hs : s.slot with
      | none => rfl
      | some hd =>
        obtain ⟨k, at0, p⟩ := hd
        cases p with
        | awaitConf sh => exact absurd hs (hnot k at0 sh)
        | idle | quiet | blanking | opened => rfl
    refine ⟨s.restartFiring.cycleAmend false, hgives, hwords, congrArg Host.Outcome.next ?_⟩
    have hfresh : ((s.restartFiring.cycleAmend false).cutSlot a).ifRunning State.openCycle
        = ((s.restartFiring.cycleAmend false).cutSlot a).ifRunning State.freshCycle := by
      unfold State.ifRunning
      rw [State.freshCycle_calm (State.cutSlot_calm hcalm a)]
    rw [State.cycleStart_eq hrun hwait, State.cycleStart_eq (by rw [hgauge]; exact hrun) ((State.awaiting_congr hslot).trans hwait)]
    exact hfresh
  · obtain ⟨hwait, hcut⟩ := State.cutSlot_none hf a
    obtain ⟨hrestart, hfiring⟩ := s.restartFiring_eq
    have honly : OnlyAwaits s.restartFiring.openCycle.fireDecision := State.fireDecision_onlyAwaits rfl
    have hn' : s.restartFiring.openCycle.fireDecision.slots[j].snapshot = some n := by simpa using hn
    have hdue : s.restartFiring.openCycle.fireDecision.dueAmendment = some (j, y) :=
      State.dueAmendment_of (by simpa using hc) (by simpa using hy) hi
    obtain ⟨hamend, hamended⟩ := State.applyAtCycle_gives hn'
      (fired := decide (s.restartFiring.openCycle.fireDecision.inFlight ≠ none)) (fun _ => honly) y
    refine ⟨s.restartFiring.openCycle, s.restartFiring.openCycle.fireDecision, _, ?_, hfiring.of_mem rfl rfl, rfl,
      ⟨hamend, hamended⟩, congrArg Host.Outcome.next ?_⟩
    · rw [State.openCycle, State.openSlot, hrestart]
      rfl
    · rw [State.cycleStart_eq hrun hwait, State.beginCycle, hcut, State.ifRunning_runs hrun, State.decidedCycle, if_pos hq]
      exact (State.cycleAmend_due hdue _).trans (by rw [honly.awaiting_eq])

end Sys2Proof.Machine
end

section
/-! PROOFS. The completion of the CLOSING section, and the writing of a section (R109, R129, R130, R132, R162, R163). -/

namespace Sys2Proof.Machine

open Safety

theorem State.flightFor_false {s : State} {i : Nat} (h : ∀ p, s.inFlight = some p → p.2.stamp.secIdx ≠ i) : s.flightFor i = false := by
  unfold State.flightFor
  cases hf : s.inFlight with
  | none => rfl
  | some p => exact beq_eq_false_iff_ne.2 (h p hf)

theorem completeAccum_endZ (lSec occMin : Nat) (a : Accum) (z : Nat) (f : Word) : (completeAccum lSec occMin a z f).endZ = z := by
  unfold completeAccum
  dsimp only
  split <;> rfl

theorem resultOf_endZ (r : Recipe) (a : Accum) (f : Word) : (resultOf r a f).endZ = (a.index + 1) * r.lSec :=
  completeAccum_endZ _ _ _ _ _

/-- A completed section that may leave at once is the whole of what the release pass writes (R109, R130). -/
theorem settled_alone {s : State} {x : Tube} {c : Accum} {r : RecNo} {n : Snapshot} (ht : s.tube = some x) (hc : x.closing = some c)
    (hr : x.record = some r) (hempty : x.holdback = []) (hn : s.tubeOrder = some n)
    (hleaves : (c.index + 1) * n.recipe.lSec + n.recipe.tailSkip ≤ s.passZ) :
    settled s x = sectionsWritten s r { x with closing := none } [resultOf n.recipe c 0#16]
      ∧ settledWords s x = sectionWords s.pool.free r { x with closing := none } [resultOf n.recipe c 0#16] := by
  have hz : s.passZ = x.zTail.getD s.tracker.z := by rw [State.passZ, ht]; rfl
  have hgoes : leaves n.recipe.tailSkip (x.zTail.getD s.tracker.z) (resultOf n.recipe c 0#16) = true := by
    rw [leaves, resultOf_endZ, ← hz]
    exact decide_eq_true hleaves
  have hdone : withClosingDone n.recipe x = { x with closing := none, holdback := [resultOf n.recipe c 0#16] } := by
    simp only [withClosingDone, hempty, hc, Option.toList_some, List.map_cons, List.map_nil, List.nil_append]
  unfold settled settledWords
  simp only [hc, hr, hn, hdone, released, releasedWords, List.takeWhile_cons, List.dropWhile_cons, hgoes, if_true, List.takeWhile_nil,
    List.dropWhile_nil]
  exact ⟨by rw [hempty], by cases s.pool.free <;> rfl⟩

/-- A word that no other one of a list is at may stand first or last. -/
theorem lookup_cons_last {M : List (Nat × Word)} {a : Nat} (v : Word) (h : M.lookup a = none) (i : Nat) :
    ((a, v) :: M).lookup i = (M ++ [(a, v)]).lookup i := by
  rw [lookup_append, lookup_single]
  by_cases hi : i = a
  · rw [hi, h, List.lookup_cons_self, if_pos rfl]
    rfl
  · rw [List.lookup_cons, beq_eq_false_iff_ne.2 hi, if_neg hi, Option.or_none]

theorem recAddr_lt_block (r : RecNo) {i : Nat} (hi : i < 128) : recAddr r i < Config.blockBase := by
  have := r.isLt
  simp only [recAddr, Config.recordBase, Config.recordWords, Config.blockBase]
  omega

/-- The sections-written word of a section that takes a block may stand last. -/
theorem lookup_written_last (r : RecNo) (b : BlockNo) (ws : List Word) {q : Nat} (hq : q ≠ recAddr r 11) (w v f : Word) (a : Nat) :
    ([(q, w)] ++ wordsAt (blkAddr b 0) ws ++ [(stFreeCount, f), (recAddr r 11, v)]).lookup a
      = ([(recAddr r 11, v), (q, w)] ++ wordsAt (blkAddr b 0) ws ++ [(stFreeCount, f)]).lookup a := by
  have hblock : ¬(blkAddr b 0 ≤ recAddr r 11 ∧ recAddr r 11 < blkAddr b 0 + ws.length) := by
    rintro ⟨hle, -⟩
    have := recAddr_lt_block r (i := 11) (by decide)
    simp only [blkAddr] at hle
    omega
  have hcount : recAddr r 11 ≠ stFreeCount := by
    simp only [recAddr, Config.recordBase, stFreeCount]
    omega
  have hnone : ([(q, w)] ++ wordsAt (blkAddr b 0) ws ++ [(stFreeCount, f)]).lookup (recAddr r 11) = none := by
    rw [lookup_append, lookup_append, lookup_none_of_ne hq.symm, lookup_wordsAt, if_neg hblock, lookup_none_of_ne hcount]
    rfl
  have hlast := lookup_cons_last v hnone a
  simp only [List.append_assoc, List.cons_append, List.nil_append] at hlast ⊢
  exact hlast.symm

/-- Settles O44. -/
theorem closingSectionCompletesAndIsWritten : Obligations.ClosingSectionCompletesAndIsWritten := by
  have first : ∀ (s : State) (x : Tube) (c : Accum) (r : RecNo) (n : Snapshot), s.tube = some x → x.closing = some c → x.record = some r →
      s.tubeOrder = some n → (∀ p, s.inFlight = some p → p.2.stamp.secIdx ≠ c.index) →
      ∃ t, exec .closingSectionCompletion s = .next t ∧ t = { settled s x with mem := t.mem } ∧ Wrote s t (settledWords s x) :=
    fun s x c r n ht hc hr hn hf => ⟨_, rfl, s.settleClosing_settled r x n ht hr hn fun d hd => by
      rw [hc] at hd
      exact State.flightFor_false (Option.some.inj hd ▸ hf)⟩
  refine ⟨first, fun s x c r n ht hc hr hempty hn hf hleaves => ?_⟩
  obtain ⟨t, hexec, hstate, hwords⟩ := first s x c r n ht hc hr hn hf
  obtain ⟨halone, hall⟩ := settled_alone ht hc hr hempty hn hleaves
  rw [halone] at hstate
  rw [hall] at hwords
  refine ⟨fun b rest hfree => ⟨t, hexec, ?_, ?_⟩, fun hfree => ⟨t, hexec, ?_, ?_⟩⟩
  · simp only [sectionsWritten, hfree] at hstate
    exact hstate
  · simp only [sectionWords, hfree, List.nil_append] at hwords
    cases hl : x.lastBlock with
    | none =>
      rw [hl] at hwords
      exact hwords.congr fun a _ => lookup_written_last r b _ (by simp [recAddr]) _ _ _ a
    | some p =>
      rw [hl] at hwords
      have hlink : blkAddr p 0 ≠ recAddr r 11 := fun h => by
        have := recAddr_lt_block r (i := 11) (by decide)
        rw [← h, blkAddr] at this
        omega
      exact hwords.congr fun a _ => lookup_written_last r b _ hlink _ _ _ a
  · simp only [sectionsWritten, hfree] at hstate
    exact hstate
  · simp only [sectionWords, hfree] at hwords
    exact hwords

end Sys2Proof.Machine
end

section
/-! PROOFS. Lists of sections that are written one part after another, and release passes after each part (R130, R132): the parts make
up the whole. -/

namespace Sys2Proof.Machine

open Safety

/-! ### The front of a list that may go -/

/-- Taking what may go from the front, and then again after more was appended, takes what would go at once. -/
theorem takeWhile_append_drop {α : Type} (p : α → Bool) (l m : List α) :
    (l ++ m).takeWhile p = l.takeWhile p ++ (l.dropWhile p ++ m).takeWhile p := by
  induction l with
  | nil => rfl
  | cons a l ih => by_cases h : p a = true <;> simp [h, ih]

theorem dropWhile_append_drop {α : Type} (p : α → Bool) (l m : List α) :
    (l ++ m).dropWhile p = (l.dropWhile p ++ m).dropWhile p := by
  induction l with
  | nil => rfl
  | cons a l ih => by_cases h : p a = true <;> simp [h, ih]

/-! ### The open tube after a list of sections (R132) -/

/-- The open tube `x` after the sections of a list were written or lost. -/
def writtenTube (free : List BlockNo) (x : Tube) : List SectionResult → Tube
  | [] => x
  | y :: ys => writtenTube free.tail (tubeAfter free x y) ys

theorem sectionsWritten_eq (ys : List SectionResult) (s : State) (r : RecNo) (x u : Tube) :
    sectionsWritten s r x ys = { sectionsWritten s r u ys with tube := some (writtenTube s.pool.free x ys) } := by
  induction ys generalizing s x u with
  | nil => rfl
  | cons y ys ih =>
    rw [sectionsWritten_cons, sectionsWritten_cons s r u]
    have hfree := (sectionsWritten_one_tube s r x y).2
    have hone : sectionsWritten s r x [y] = { sectionsWritten s r u [y] with tube := some (tubeAfter s.pool.free x y) } := by
      cases h : s.pool.free <;> simp [sectionsWritten, h, tubeAfter]
    rw [ih _ (tubeAfter s.pool.free x y) (tubeAfter s.pool.free u y), hfree, hone, sectionsWritten_withTube, writtenTube]

theorem sectionsWritten_tube (s : State) (r : RecNo) (x : Tube) (ys : List SectionResult) :
    (sectionsWritten s r x ys).tube = some (writtenTube s.pool.free x ys) := by
  rw [sectionsWritten_eq ys s r x x]

theorem sectionsWritten_free (s : State) (r : RecNo) (x : Tube) (ys : List SectionResult) :
    (sectionsWritten s r x ys).pool.free = s.pool.free.drop ys.length := by
  induction ys generalizing s x with
  | nil => rfl
  | cons y ys ih =>
    rw [sectionsWritten_cons, ih, (sectionsWritten_one_tube s r x y).2, List.length_cons, List.drop_tail]

/-- Sections written in two parts. -/
theorem sectionsWritten_append (s : State) (r : RecNo) (x : Tube) (ys zs : List SectionResult) :
    sectionsWritten s r x (ys ++ zs) = sectionsWritten (sectionsWritten s r x ys) r (writtenTube s.pool.free x ys) zs := by
  induction ys generalizing s x with
  | nil => exact (sectionsWritten_withTube zs s r x (some x)).symm
  | cons y ys ih =>
    rw [List.cons_append, sectionsWritten_cons, ih, sectionsWritten_cons s r x y ys, (sectionsWritten_one_tube s r x y).2, writtenTube]

theorem sectionWords_append (free : List BlockNo) (r : RecNo) (x : Tube) (ys zs : List SectionResult) :
    sectionWords free r x (ys ++ zs)
      = sectionWords (free.drop ys.length) r (writtenTube free x ys) zs ++ sectionWords free r x ys := by
  induction ys generalizing free x with
  | nil => exact (List.append_nil _).symm
  | cons y ys ih =>
    rw [List.cons_append, sectionWords_cons, ih, sectionWords_cons free r x y ys, List.length_cons, List.drop_tail, writtenTube,
      List.append_assoc]

/-! ### What the writing of sections leaves alone -/

/-- The writing of sections does not touch the accumulators and the queue of the tube. -/
theorem writtenTube_sections (ys : List SectionResult) (free : List BlockNo) (x : Tube) (o c : Option Accum) (h : List SectionResult) :
    writtenTube free { x with opened := o, closing := c, holdback := h } ys
      = { writtenTube free x ys with opened := o, closing := c, holdback := h } := by
  induction ys generalizing free x with
  | nil => rfl
  | cons y ys ih =>
    rw [writtenTube, writtenTube, ← ih]
    cases free <;> rfl

theorem writtenTube_kept (ys : List SectionResult) (free : List BlockNo) (x : Tube) :
    (writtenTube free x ys).record = x.record ∧ (writtenTube free x ys).order = x.order ∧ (writtenTube free x ys).zTail = x.zTail
      ∧ (writtenTube free x ys).opened = x.opened ∧ (writtenTube free x ys).closing = x.closing
      ∧ (writtenTube free x ys).holdback = x.holdback := by
  induction ys generalizing free x with
  | nil => exact ⟨rfl, rfl, rfl, rfl, rfl, rfl⟩
  | cons y ys ih =>
    have hone : ∀ z : Tube, z = tubeAfter free x y → z.record = x.record ∧ z.order = x.order ∧ z.zTail = x.zTail ∧ z.opened = x.opened
        ∧ z.closing = x.closing ∧ z.holdback = x.holdback := by
      rintro z rfl
      cases free <;> exact ⟨rfl, rfl, rfl, rfl, rfl, rfl⟩
    obtain ⟨h1, h2, h3, h4, h5, h6⟩ := hone _ rfl
    obtain ⟨g1, g2, g3, g4, g5, g6⟩ := ih free.tail (tubeAfter free x y)
    exact ⟨g1.trans h1, g2.trans h2, g3.trans h3, g4.trans h4, g5.trans h5, g6.trans h6⟩

/-- Flags given before sections are written, or after. -/
theorem writtenTube_flags (ys : List SectionResult) (free : List BlockNo) (x : Tube) (f : Word) :
    writtenTube free { x with flags := x.flags ||| f } ys
      = { writtenTube free x ys with flags := (writtenTube free x ys).flags ||| f } := by
  induction ys generalizing free x with
  | nil => rfl
  | cons y ys ih =>
    rw [writtenTube, writtenTube, ← ih]
    cases free with
    | nil =>
      have hflags : x.flags ||| f ||| tfPoolExhausted = x.flags ||| tfPoolExhausted ||| f := by
        rw [BitVec.or_assoc, BitVec.or_comm f, ← BitVec.or_assoc]
      simp only [tubeAfter, hflags]
    | cons b rest => rfl

/-- Attention causes raised before sections are written, or after. -/
theorem sectionsWritten_cause (ys : List SectionResult) (s : State) (r : RecNo) (x : Tube) (m : Byte) :
    sectionsWritten { s with attnCause := s.attnCause ||| m } r x ys
      = { sectionsWritten s r x ys with attnCause := (sectionsWritten s r x ys).attnCause ||| m } := by
  induction ys generalizing s x with
  | nil => rfl
  | cons y ys ih =>
    have hone : sectionsWritten { s with attnCause := s.attnCause ||| m } r x [y]
        = { sectionsWritten s r x [y] with attnCause := (sectionsWritten s r x [y]).attnCause ||| m } := by
      cases h : s.pool.free with
      | nil => simp only [sectionsWritten, h]
      | cons b rest =>
        have hswap : ∀ a b : Byte, a ||| m ||| b = a ||| b ||| m := fun a b => by
          rw [BitVec.or_assoc, BitVec.or_comm m, ← BitVec.or_assoc]
        have hcfg : ({ s with attnCause := s.attnCause ||| m } : State).cfg = s.cfg := rfl
        simp only [sectionsWritten, h, hcfg]
        congr 1
        split <;> simp only [hswap]
    rw [sectionsWritten_cons, sectionsWritten_cons s, hone, ih]

end Sys2Proof.Machine
end

section
/-! PROOFS. Position changes: the boundaries that z crosses, each with the completion of its sections, and the release pass that follows
(R97, R108 to R111, R130). -/

namespace Sys2Proof.Machine

open Safety

/-! ### Release passes, a part at a time (R130) -/

/-- `u` is `s` with the open tube on its way to `y`: some of the sections at the front of the queue of `y`, which may all go, have been
written already; the others are in the queue still. -/
structure Partly (s : State) (r : RecNo) (n : Snapshot) (y : Tube) (u : State) : Prop where
  record : y.record = some r
  going : y.zTail = none
  order : (y.order.bind fun j => s.slots[j].snapshot) = some n
  parts : ∃ gone rest, y.holdback = gone ++ rest ∧ (∀ a ∈ gone, leaves n.recipe.tailSkip s.tracker.z a = true)
    ∧ u = { sectionsWritten s r { y with holdback := rest } gone with mem := u.mem } ∧ Wrote s u (sectionWords s.pool.free r y gone)

/-- The writing of sections touches the pool, the causes, the tube and the memory alone. -/
theorem sectionsWritten_self (ys : List SectionResult) (s : State) (r : RecNo) (x : Tube) :
    sectionsWritten s r x ys = { s with
      pool := (sectionsWritten s r x ys).pool, attnCause := (sectionsWritten s r x ys).attnCause
      tube := (sectionsWritten s r x ys).tube } := sectionsWritten_congr ys rfl rfl rfl r x

/-- What the open tube of such a state shares with `y`, and what the state shares with `s`. -/
theorem Partly.shares {s u : State} {r : RecNo} {n : Snapshot} {y : Tube} (h : Partly s r n y u) :
    (∃ x, u.tube = some x ∧ x.record = some r ∧ x.order = y.order ∧ x.zTail = none ∧ x.opened = y.opened ∧ x.closing = y.closing)
      ∧ u.slots = s.slots ∧ u.tracker = s.tracker ∧ u.inFlight = s.inFlight := by
  obtain ⟨gone, rest, -, -, hu, -⟩ := h.parts
  obtain ⟨h1, h2, h3, h4, h5, -⟩ := writtenTube_kept gone s.pool.free { y with holdback := rest }
  have hframe := sectionsWritten_self gone s r { y with holdback := rest }
  have htube : u.tube = some (writtenTube s.pool.free { y with holdback := rest } gone) := by
    rw [hu]
    exact sectionsWritten_tube s r _ gone
  refine ⟨⟨_, htube, h1.trans h.record, h2, h3.trans h.going, h4, h5⟩, ?_, ?_, State.inFlight_congr ?_⟩
  all_goals rw [hu, hframe]

theorem Partly.tubeOrder {s u : State} {r : RecNo} {n : Snapshot} {y : Tube} (h : Partly s r n y u) : u.tubeOrder = some n := by
  obtain ⟨⟨x, hx, -, ho, -⟩, hslots, -⟩ := h.shares
  rw [State.tubeOrder, State.orderInUse, hx, Option.bind_some, ho, hslots, h.order]

theorem Partly.passZ {s u : State} {r : RecNo} {n : Snapshot} {y : Tube} (h : Partly s r n y u) : u.passZ = s.tracker.z := by
  obtain ⟨⟨x, hx, -, -, hz, -⟩, -, htracker, -⟩ := h.shares
  rw [State.passZ, hx, Option.bind_some, hz, htracker]
  rfl

theorem Partly.init {s : State} {r : RecNo} {n : Snapshot} {x : Tube} (ht : s.tube = some x) (hr : x.record = some r)
    (hz : x.zTail = none) (hn : s.tubeOrder = some n) : Partly s r n x s where
  record := hr
  going := hz
  order := by simpa [State.tubeOrder, State.orderInUse, ht] using hn
  parts := ⟨[], x.holdback, rfl, by simp, by rw [sectionsWritten, ← ht], wrote_nil s s rfl⟩

/-- The accumulators of the tube change, and results join the end of its queue. -/
theorem Partly.change {s u : State} {r : RecNo} {n : Snapshot} {y x : Tube} (h : Partly s r n y u) (hx : u.tube = some x)
    (o c : Option Accum) (m : List SectionResult) :
    Partly s r n { y with opened := o, closing := c, holdback := y.holdback ++ m }
      { u with tube := some { x with opened := o, closing := c, holdback := x.holdback ++ m } } where
  record := h.record
  going := h.going
  order := h.order
  parts := by
    obtain ⟨gone, rest, hsplit, hgone, hu, hwrote⟩ := h.parts
    have htube : u.tube = some (writtenTube s.pool.free { y with holdback := rest } gone) := by
      rw [hu]
      exact sectionsWritten_tube s r _ gone
    have hkept := writtenTube_kept gone s.pool.free { y with holdback := rest }
    obtain ⟨-, -, -, -, -, hrest⟩ := hkept
    have hxw : x = writtenTube s.pool.free { y with holdback := rest } gone := Option.some.inj (hx.symm.trans htube)
    refine ⟨gone, rest ++ m, by rw [hsplit, List.append_assoc], hgone, ?_, ?_⟩
    · have hnew := writtenTube_sections gone s.pool.free { y with holdback := rest } o c (rest ++ m)
      rw [sectionsWritten_eq gone s r _ { y with holdback := rest }, hnew, ← hxw]
      have hq : x.holdback = rest := by rw [hxw, hrest]
      rw [hq]
      generalize sectionsWritten s r { y with holdback := rest } gone = w at hu
      rw [hu]
    · exact (hwrote.of_mem rfl rfl).congr fun a _ =>
        congrArg (List.lookup a) (sectionWords_congr gone s.pool.free r _ y rfl rfl rfl)

/-- `u` is `s` with the open tube `y` after a release pass over the whole of its queue. -/
structure Whole (s : State) (r : RecNo) (n : Snapshot) (y : Tube) (u : State) : Prop where
  record : y.record = some r
  going : y.zTail = none
  order : (y.order.bind fun j => s.slots[j].snapshot) = some n
  state : u = { released s r n.recipe.tailSkip s.tracker.z y with mem := u.mem }
  words : Wrote s u (releasedWords s r n.recipe.tailSkip s.tracker.z y)

theorem Whole.partly {s u : State} {r : RecNo} {n : Snapshot} {y : Tube} (h : Whole s r n y u) : Partly s r n y u where
  record := h.record
  going := h.going
  order := h.order
  parts := ⟨_, _, (List.takeWhile_append_dropWhile).symm, fun _ ha => List.mem_takeWhile_imp ha, h.state, h.words⟩

/-- A release pass over what is left in the queue, as one over the whole of it. -/
theorem released_of_part {s u : State} {r : RecNo} {y x : Tube} {ts z : Nat} {gone rest : List SectionResult}
    (hsplit : y.holdback = gone ++ rest) (hgone : ∀ a ∈ gone, leaves ts z a = true)
    (hx : x = writtenTube s.pool.free { y with holdback := rest } gone)
    (hu : u = { sectionsWritten s r { y with holdback := rest } gone with mem := u.mem }) :
    released u r ts z x = { released s r ts z y with mem := u.mem }
      ∧ releasedWords s r ts z y = releasedWords u r ts z x ++ sectionWords s.pool.free r y gone := by
  have htake : y.holdback.takeWhile (leaves ts z) = gone ++ rest.takeWhile (leaves ts z) := by
    rw [hsplit, List.takeWhile_append_of_pos hgone]
  have hdrop : y.holdback.dropWhile (leaves ts z) = rest.dropWhile (leaves ts z) := by
    rw [hsplit, List.dropWhile_append_of_pos hgone]
  have hq : x.holdback = rest := by
    obtain ⟨-, -, -, -, -, h⟩ := writtenTube_kept gone s.pool.free { y with holdback := rest }
    rw [hx, h]
  have hnew : writtenTube s.pool.free { y with holdback := rest.dropWhile (leaves ts z) } gone
      = { x with holdback := rest.dropWhile (leaves ts z) } := by
    have h := writtenTube_sections gone s.pool.free { y with holdback := rest } y.opened y.closing (rest.dropWhile (leaves ts z))
    obtain ⟨-, -, -, ho, hc, -⟩ := writtenTube_kept gone s.pool.free { y with holdback := rest }
    rw [← hx] at h ho hc
    exact h.trans (by rw [← ho, ← hc])
  have hfree : u.pool.free = s.pool.free.drop gone.length := by
    rw [hu]
    exact sectionsWritten_free s r _ gone
  constructor
  · have hpart := sectionsWritten_eq gone s r { y with holdback := rest.dropWhile (leaves ts z) } { y with holdback := rest }
    rw [hnew] at hpart
    rw [released, released, htake, hdrop, hq, sectionsWritten_append, hnew, hpart]
    generalize sectionsWritten s r { y with holdback := rest } gone = w at hu
    have hmem : ∀ (v : Tube) (l : List SectionResult),
        sectionsWritten u r v l = { sectionsWritten w r v l with mem := u.mem } := fun v l =>
      (congrArg (fun a => sectionsWritten a r v l) hu).trans (sectionsWritten_withMem l w r v u.mem)
    have hcut : ∀ (v : Tube) (l : List SectionResult) (a : Option Tube),
        sectionsWritten { w with tube := a } r v l = sectionsWritten w r v l := fun v l a => sectionsWritten_withTube l w r v a
    rw [hmem]
    exact congrArg (fun a : State => { a with mem := u.mem }) (hcut _ _ _).symm
  · rw [releasedWords, releasedWords, htake, hq, sectionWords_append, hfree]
    congr 1
    have h := writtenTube_sections gone s.pool.free { y with holdback := rest } y.opened y.closing y.holdback
    rw [← hx] at h
    have hy : writtenTube s.pool.free y gone = { x with opened := y.opened, closing := y.closing, holdback := y.holdback } := h
    rw [hy]
    exact sectionWords_congr _ _ r _ x rfl rfl rfl

/-- A release pass completes what was done a part at a time. -/
theorem Partly.release {s u : State} {r : RecNo} {n : Snapshot} {y : Tube} (h : Partly s r n y u) : Whole s r n y u.releasePass := by
  obtain ⟨gone, rest, hsplit, hgone, hu, hwrote⟩ := h.parts
  obtain ⟨⟨x, hx, hxr, -⟩, -⟩ := h.shares
  have htube : x = writtenTube s.pool.free { y with holdback := rest } gone := by
    have : u.tube = some (writtenTube s.pool.free { y with holdback := rest } gone) := by
      rw [hu]
      exact sectionsWritten_tube s r _ gone
    exact Option.some.inj (hx.symm.trans this)
  have hskip : u.tailSkip = n.recipe.tailSkip := by rw [State.tailSkip, h.tubeOrder]; rfl
  obtain ⟨hstate, hwords⟩ := State.releasePass_released u r x hx hxr
  rw [hskip, h.passZ] at hstate hwords
  obtain ⟨hwhole, hlist⟩ := released_of_part hsplit hgone htube hu
  rw [hwhole] at hstate
  refine ⟨h.record, h.going, h.order, hstate, ?_⟩
  rw [hlist]
  exact hwrote.trans hwords

/-! ### Completed sections (R113, R129, R130) -/

/-- A completed accumulator with its head-zone mark is the result of its section (R113, R129). -/
theorem markHead_completeAccum (r : Recipe) (c : Accum) (f : Word) :
    markHead r.lSec r.headSkip (completeAccum r.lSec r.occMin c ((c.index + 1) * r.lSec) f) = resultOf r c f := by
  have hindex : (completeAccum r.lSec r.occMin c ((c.index + 1) * r.lSec) f).index = c.index := by
    unfold completeAccum
    dsimp only
    split <;> rfl
  unfold markHead resultOf
  rw [hindex]
  by_cases h : c.index * r.lSec < r.headSkip <;> simp [h, hindex, giveIf, flagIf]

/-- The open tube with a result at the end of its queue. -/
def withHeld (x : Tube) (y : SectionResult) : Tube := { x with holdback := x.holdback ++ [y] }

theorem State.appendHeld_eq {s : State} {x : Tube} {n : Snapshot} (ht : s.tube = some x) (hn : s.tubeOrder = some n) (c : Accum)
    (f : Word) :
    s.appendHeld (completeAccum s.lSec s.occMin c ((c.index + 1) * s.lSec) f)
      = { s with tube := some (withHeld x (resultOf n.recipe c f)) } := by
  have hmark := markHead_completeAccum n.recipe c f
  simp only [State.appendHeld, State.modTube, ht, State.lSec, State.headSkip, State.occMin, hn, Option.map_some, Option.getD_some, hmark,
    withHeld]

/-- A section completes and the release pass follows (R113, R130). -/
theorem Partly.complete {s u : State} {r : RecNo} {n : Snapshot} {y : Tube} (h : Partly s r n y u) (c : Accum) (f : Word) :
    Whole s r n (withHeld y (resultOf n.recipe c f)) (u.completeSection c f) := by
  obtain ⟨⟨x, hx, -, -, -, ho, hc⟩, -⟩ := h.shares
  have hchange := h.change hx x.opened x.closing [resultOf n.recipe c f]
  rw [ho, hc] at hchange
  rw [State.completeSection, State.appendHeld_eq hx h.tubeOrder]
  refine Partly.release ?_
  rw [← ho, ← hc] at hchange
  have hy : withHeld y (resultOf n.recipe c f)
      = { y with opened := x.opened, closing := x.closing, holdback := y.holdback ++ [resultOf n.recipe c f] } := by
    rw [ho, hc, withHeld]
  rw [hy]
  exact hchange

/-- The accumulators of the open tube change. -/
theorem Partly.accums {s u : State} {r : RecNo} {n : Snapshot} {y : Tube} (h : Partly s r n y u) {f : Tube → Tube} (o c : Option Accum)
    (hf : ∀ x : Tube, x.opened = y.opened → x.closing = y.closing → f x = { x with opened := o, closing := c }) :
    Partly s r n { y with opened := o, closing := c } (u.modTube f) := by
  obtain ⟨⟨x, hx, -, -, -, ho, hc⟩, -⟩ := h.shares
  have hchange := h.change hx o c []
  rw [List.append_nil, List.append_nil] at hchange
  rw [State.modTube, hx, Option.map_some, hf x ho hc]
  exact hchange

/-! ### Crossings (R108, R110, R111) -/

theorem State.flightFor_eq (s : State) (i : Nat) : s.flightFor i = stampedFor s i := by
  unfold State.flightFor stampedFor
  cases s.inFlight with
  | none => simp
  | some p => simp [Bool.beq_eq_decide_eq]

theorem Partly.flightFor {s u : State} {r : RecNo} {n : Snapshot} {y : Tube} (h : Partly s r n y u) (i : Nat) :
    u.flightFor i = stampedFor s i := by
  obtain ⟨-, -, -, hflight⟩ := h.shares
  rw [State.flightFor_eq, stampedFor, stampedFor, hflight]

/-- The open tube after its CLOSING section, if it has one, was completed by a crossing (R110). -/
def forcedTube (s : State) (r : Recipe) (x : Tube) : Tube :=
  { x with
    closing := none
    holdback := x.holdback ++ x.closing.toList.map (fun c => resultOf r c (if stampedFor s c.index then sfLate else 0#16)) }

theorem Partly.force {s u : State} {r : RecNo} {n : Snapshot} {y : Tube} (h : Partly s r n y u) :
    Partly s r n (forcedTube s n.recipe y) u.forceClosing := by
  obtain ⟨⟨x, hx, -, -, -, -, hc⟩, -⟩ := h.shares
  unfold State.forceClosing
  rw [hx, Option.bind_some, hc]
  cases hy : y.closing with
  | none =>
    have hsame : forcedTube s n.recipe y = y := by
      simp only [forcedTube, hy, Option.toList_none, List.map_nil, List.append_nil]
      rw [← hy]
    rw [hsame]
    exact h
  | some c =>
    have hflag : flagIf (u.flightFor c.index) sfLate = if stampedFor s c.index then sfLate else 0#16 := by
      rw [h.flightFor, flagIf]
    dsimp only
    rw [hflag]
    have hcleared := h.accums (f := fun t => { t with closing := none }) y.opened none fun x ho _ => by rw [← ho]
    have hwhole := hcleared.complete c (if stampedFor s c.index then sfLate else 0#16)
    have hforced : forcedTube s n.recipe y
        = withHeld { y with opened := y.opened, closing := none }
          (resultOf n.recipe c (if stampedFor s c.index then sfLate else 0#16)) := by
      simp only [forcedTube, hy, withHeld, Option.toList_some, List.map_cons, List.map_nil]
    rw [hforced]
    exact hwhole.partly

/-- One crossing (R108, R110). -/
theorem Partly.crossOne {s u : State} {r : RecNo} {n : Snapshot} {y : Tube} (h : Partly s r n y u) {a : Accum} (ha : y.opened = some a)
    (mark : Word) : Partly s r n (crossEnd s n.recipe mark y) (u.crossOne a mark) := by
  have hforced := h.force
  have hopened := hforced.accums (f := fun t => { t with opened := some (newAccum (a.index + 1) mark) })
    (some (newAccum (a.index + 1) mark)) none fun x _ hc => by
      have : x.closing = none := hc
      rw [← this]
  unfold State.crossOne
  dsimp only
  rw [hforced.flightFor]
  cases hs : stampedFor s a.index with
  | true =>
    have hclosing := hopened.accums (f := fun t => { t with closing := some { a with flags := a.flags ||| mark } })
      (some (newAccum (a.index + 1) mark)) (some { a with flags := a.flags ||| mark }) fun x ho _ => by
        have : x.opened = some (newAccum (a.index + 1) mark) := ho
        rw [← this]
    have hcross : crossEnd s n.recipe mark y
        = { forcedTube s n.recipe y with
            opened := some (newAccum (a.index + 1) mark), closing := some { a with flags := a.flags ||| mark } } := by
      simp only [crossEnd, ha, hs, if_true, forcedTube]
    rw [hcross]
    exact hclosing
  | false =>
    have hwhole := hopened.complete { a with flags := a.flags ||| mark } 0#16
    have hcross : crossEnd s n.recipe mark y
        = withHeld { forcedTube s n.recipe y with opened := some (newAccum (a.index + 1) mark), closing := none }
          (resultOf n.recipe { a with flags := a.flags ||| mark } 0#16) := by
      simp only [crossEnd, ha, hs, Bool.false_eq_true, if_false, forcedTube, withHeld]
    rw [hcross]
    exact hwhole.partly

theorem crossEnd_opened {s : State} {r : Recipe} {mark : Word} {y : Tube} {a : Accum} (ha : y.opened = some a) :
    (crossEnd s r mark y).opened = some (newAccum (a.index + 1) mark) := by
  simp only [crossEnd, ha]
  split <;> rfl

/-- The crossings of a position change, in ascending order (R111). -/
theorem Partly.crossings {s u : State} {r : RecNo} {n : Snapshot} {y : Tube} {a : Accum} (mark : Word) (before after k : Nat)
    (h : Partly s r n y u) (ha : y.opened = some a)
    (hk : ∀ i < k, before < (a.index + i + 1) * n.recipe.lSec ∧ (a.index + i + 1) * n.recipe.lSec ≤ after) :
    Partly s r n (crossEnds s n.recipe mark k y) (u.crossings mark before after k) := by
  induction k generalizing u y a with
  | zero => exact h
  | succ k ih =>
    obtain ⟨⟨x, hx, -, -, -, ho, -⟩, -⟩ := h.shares
    have hl : u.lSec = n.recipe.lSec := by rw [State.lSec, h.tubeOrder]; rfl
    have hcond := hk 0 (Nat.succ_pos k)
    rw [Nat.add_zero] at hcond
    have hstep : u.crossings mark before after (k + 1) = (u.crossOne a mark).crossings mark before after k := by
      rw [State.crossings, hx, Option.bind_some, ho, ha, hl]
      exact if_pos hcond
    rw [hstep, crossEnds]
    refine ih (h.crossOne ha mark) (crossEnd_opened ha) fun i hi => ?_
    have hnext := hk (i + 1) (Nat.succ_lt_succ hi)
    have hindex : (newAccum (a.index + 1) mark).index + i + 1 = a.index + (i + 1) + 1 := by
      simp only [newAccum]
      omega
    rw [hindex]
    exact hnext

end Sys2Proof.Machine
end

section
/-! PROOFS. What a position change does to the sections and the pool, as one move (R97, R111, R130). -/

namespace Sys2Proof.Machine

open Safety

/-! ### The move, in a state that differs elsewhere -/

theorem crossEnd_congr {s t : State} (hf : t.inFlight = s.inFlight) (r : Recipe) (mark : Word) (x : Tube) :
    crossEnd t r mark x = crossEnd s r mark x := by
  have hstamped : stampedFor t = stampedFor s := funext fun i => by rw [stampedFor, stampedFor, hf]
  unfold crossEnd
  rw [hstamped]

theorem crossEnds_congr {s t : State} (hf : t.inFlight = s.inFlight) (r : Recipe) (mark : Word) (k : Nat) (x : Tube) :
    crossEnds t r mark k x = crossEnds s r mark k x := by
  induction k generalizing x with
  | zero => rfl
  | succ k ih => rw [crossEnds, crossEnds, crossEnd_congr hf, ih]

theorem crossedTo_congr {s t : State} (hf : t.inFlight = s.inFlight) (hz : t.tracker.z = s.tracker.z) (n : Snapshot) (synthetic : Bool)
    (z : Nat) (x : Tube) : crossedTo t n synthetic z x = crossedTo s n synthetic z x := by
  rw [crossedTo, crossedTo, hz, crossEnds_congr hf]

/-- A move depends on the pool, the setup, the order, the shot in flight and the present z; causes raised before stay raised. -/
theorem movedTo_congr {s t : State} {m : Byte} (hset : t.setup = s.setup) (hpool : t.pool = s.pool)
    (hcause : t.attnCause = s.attnCause ||| m) (horder : t.tubeOrder = s.tubeOrder) (hf : t.inFlight = s.inFlight)
    (hz : t.tracker.z = s.tracker.z) (synthetic : Bool) (z : Nat) (x : Tube) :
    movedTo t synthetic z x = { t with
        pool := (movedTo s synthetic z x).pool, attnCause := (movedTo s synthetic z x).attnCause ||| m
        tube := (movedTo s synthetic z x).tube }
      ∧ movedWords t synthetic z x = movedWords s synthetic z x := by
  have hopen : ({ t with tube := some x } : State) = { t with pool := s.pool, attnCause := s.attnCause ||| m, tube := some x } := by
    rw [← hpool, ← hcause]
  unfold movedTo movedWords
  rw [horder]
  cases x.record with
  | none => exact ⟨hopen, rfl⟩
  | some r =>
    cases s.tubeOrder with
    | none => exact ⟨hopen, rfl⟩
    | some n =>
      dsimp only
      rw [crossedTo_congr hf hz]
      refine ⟨?_, by rw [releasedWords, releasedWords, hpool]⟩
      have hraised := sectionsWritten_cause ((crossedTo s n synthetic z x).holdback.takeWhile (leaves n.recipe.tailSkip z)) s r
        { crossedTo s n synthetic z x with
          holdback := (crossedTo s n synthetic z x).holdback.dropWhile (leaves n.recipe.tailSkip z) } m
      have hsame := released_congr (s := { s with attnCause := s.attnCause ||| m }) (t := t) hset hpool hcause r n.recipe.tailSkip z
        (crossedTo s n synthetic z x)
      unfold released at hsame ⊢
      rw [hraised] at hsame
      exact hsame

/-! ### Flags given before or after (R126) -/

/-- The open tube with a flag more. -/
def flagged (f : Word) (x : Tube) : Tube := { x with flags := x.flags ||| f }

theorem crossEnd_flagged (s : State) (r : Recipe) (mark f : Word) (x : Tube) :
    crossEnd s r mark (flagged f x) = flagged f (crossEnd s r mark x) := by
  have hopened : (flagged f x).opened = x.opened := rfl
  unfold crossEnd
  rw [hopened]
  cases x.opened with
  | none => rfl
  | some a =>
    change (if stampedFor s a.index = true then _ else _) = flagged f (if stampedFor s a.index = true then _ else _)
    split <;> rfl

theorem crossEnds_flagged (s : State) (r : Recipe) (mark f : Word) (k : Nat) (x : Tube) :
    crossEnds s r mark k (flagged f x) = flagged f (crossEnds s r mark k x) := by
  induction k generalizing x with
  | zero => rfl
  | succ k ih => rw [crossEnds, crossEnds, crossEnd_flagged, ih]

theorem movedTo_flagged (s : State) (synthetic : Bool) (z : Nat) (f : Word) (x : Tube) :
    movedTo s synthetic z (flagged f x)
        = { movedTo s synthetic z x with tube := (movedTo s synthetic z x).tube.map (flagged f) }
      ∧ movedWords s synthetic z (flagged f x) = movedWords s synthetic z x := by
  unfold movedTo movedWords
  have hr : (flagged f x).record = x.record := rfl
  rw [hr]
  cases x.record with
  | none => exact ⟨rfl, rfl⟩
  | some r =>
    cases s.tubeOrder with
    | none => exact ⟨rfl, rfl⟩
    | some n =>
      have hc : crossedTo s n synthetic z (flagged f x) = flagged f (crossedTo s n synthetic z x) := crossEnds_flagged _ _ _ _ _ _
      dsimp only
      rw [hc]
      generalize crossedTo s n synthetic z x = y
      constructor
      · have hw := writtenTube_flags (y.holdback.takeWhile (leaves n.recipe.tailSkip z)) s.pool.free
          { y with holdback := y.holdback.dropWhile (leaves n.recipe.tailSkip z) } f
        have hs := sectionsWritten_eq (y.holdback.takeWhile (leaves n.recipe.tailSkip z)) s r
          (flagged f { y with holdback := y.holdback.dropWhile (leaves n.recipe.tailSkip z) })
          { y with holdback := y.holdback.dropWhile (leaves n.recipe.tailSkip z) }
        unfold released
        rw [sectionsWritten_tube]
        exact hs.trans (congrArg (fun v => ({ sectionsWritten s r _ _ with tube := some v } : State)) hw)
      · exact sectionWords_congr _ _ r _ y rfl rfl rfl

/-! ### The move itself (R97, R111, R130) -/

/-- A queue without sections has nothing to release. -/
theorem State.releasePass_empty {s : State} {x : Tube} (ht : s.tube = some x) (h : x.holdback = []) : s.releasePass = s := by
  have hx : ({ x with holdback := [] } : Tube) = x := by rw [← h]
  simp only [State.releasePass, State.held, State.modTube, ht, Option.map_some, Option.getD_some, h, List.dropWhile_nil,
    List.takeWhile_nil, State.writeSections, hx]
  rw [← ht]

theorem crossEnds_none {s : State} {r : Recipe} {mark : Word} {x : Tube} (h : x.opened = none) (k : Nat) :
    crossEnds s r mark k x = x := by
  induction k with
  | zero => rfl
  | succ k ih =>
    rw [crossEnds]
    have : crossEnd s r mark x = x := by simp only [crossEnd, h]
    rw [this, ih]

theorem movedTo_none {s : State} {synthetic : Bool} {z : Nat} {x : Tube} (h : x.opened = none) (hq : x.holdback = []) :
    movedTo s synthetic z x = { s with tube := some x } ∧ movedWords s synthetic z x = [] := by
  have hx : ({ x with holdback := [] } : Tube) = x := by rw [← hq]
  unfold movedTo movedWords
  cases x.record with
  | none => exact ⟨rfl, rfl⟩
  | some r =>
    cases s.tubeOrder with
    | none => exact ⟨rfl, rfl⟩
    | some n =>
      simp only [crossedTo, crossEnds_none h, released, releasedWords, hq, List.takeWhile_nil, List.dropWhile_nil, sectionsWritten, hx,
        sectionWords, and_self]

/-- Each boundary between two positions is crossed (R97). -/
theorem boundaries_between {l z0 z k i : Nat} (hk : k = z / l - z0 / l) (hi : i < k) :
    z0 < (z0 / l + i + 1) * l ∧ (z0 / l + i + 1) * l ≤ z := by
  have hl : 0 < l := by
    rcases Nat.eq_zero_or_pos l with h | h
    · subst h; simp at hk; omega
    · exact h
  have hle : z0 / l + i + 1 ≤ z / l := by omega
  refine ⟨?_, (Nat.le_div_iff_mul_le hl).1 hle⟩
  have h1 : z0 < (z0 / l + 1) * l := by
    rw [← Nat.div_lt_iff_lt_mul hl]
    omega
  exact Nat.lt_of_lt_of_le h1 (Nat.mul_le_mul_right l (by omega))

theorem State.crossings_none {s : State} {x : Tube} (ht : s.tube = some x) (h : x.opened = none) (mark : Word) (before after k : Nat) :
    s.crossings mark before after k = s := by
  cases k with
  | zero => rfl
  | succ k => rw [State.crossings, ht, Option.bind_some, h]

/-- The sections and the release pass of a position change from the z of `s` to that of `v`, which differ in the tracker alone
(R97, R111, R130). -/
theorem State.takeChange_moved {s v : State} {x : Tube} (ht : s.tube = some x) (hz : FollowsZ s x)
    (hv : v = { s with mem := v.mem, tracker := v.tracker }) (synthetic : Bool) :
    let t := v.takeChange synthetic s.tracker.z v.tracker.z
    t = { movedTo s synthetic v.tracker.z x with mem := t.mem, tracker := v.tracker }
      ∧ Wrote v t (movedWords s synthetic v.tracker.z x) := by
  intro t
  have hvt : v.tube = some x := by rw [hv]; exact ht
  have hvo : v.tubeOrder = s.tubeOrder := by rw [hv]; rfl
  have hvf : v.inFlight = s.inFlight := by rw [hv]; rfl
  obtain ⟨hgoing, ⟨hnone, hempty⟩ | ⟨n, a, hn, hr, ha, hindex⟩⟩ := hz
  · obtain ⟨hmoved, hwords⟩ := movedTo_none (s := s) (synthetic := synthetic) (z := v.tracker.z) hnone hempty
    have htv : t = v := by
      simp only [t, State.takeChange, State.crossings_none hvt hnone, State.releasePass_empty hvt hempty]
    rw [hmoved, hwords, htv, ← ht]
    exact ⟨hv, wrote_nil v v rfl⟩
  · obtain ⟨r, hr⟩ := Option.isSome_iff_exists.1 hr
    have hl : v.lSec = n.recipe.lSec := by rw [State.lSec, hvo, hn]; rfl
    have hinit : Partly v r n x v := Partly.init hvt hr hgoing (hvo.trans hn)
    have hcrossed := hinit.crossings (flagIf synthetic sfEstimated) s.tracker.z v.tracker.z
      (v.tracker.z / n.recipe.lSec - s.tracker.z / n.recipe.lSec) ha fun i hi => hindex ▸ boundaries_between rfl hi
    have hwhole := hcrossed.release
    have htube : crossEnds v n.recipe (flagIf synthetic sfEstimated) (v.tracker.z / n.recipe.lSec - s.tracker.z / n.recipe.lSec) x
        = crossedTo s n synthetic v.tracker.z x := by
      rw [crossEnds_congr hvf]
      rfl
    rw [htube, ← hl] at hwhole
    have hstate : t = { released v r n.recipe.tailSkip v.tracker.z (crossedTo s n synthetic v.tracker.z x) with mem := t.mem } :=
      hwhole.state
    have hmoved : movedTo s synthetic v.tracker.z x
        = released s r n.recipe.tailSkip v.tracker.z (crossedTo s n synthetic v.tracker.z x) := by
      unfold movedTo
      rw [hr, hn]
    have hwords : movedWords s synthetic v.tracker.z x
        = releasedWords v r n.recipe.tailSkip v.tracker.z (crossedTo s n synthetic v.tracker.z x) := by
      unfold movedWords releasedWords
      rw [hr, hn, show v.pool = s.pool by rw [hv]]
    rw [hmoved, hwords]
    refine ⟨?_, hwhole.words⟩
    rw [released_congr (s := s) (t := v) (by rw [hv]) (by rw [hv]) (by rw [hv])] at hstate
    have hself := released_congr (s := s) (t := s) rfl rfl rfl r n.recipe.tailSkip v.tracker.z (crossedTo s n synthetic v.tracker.z x)
    generalize released s r n.recipe.tailSkip v.tracker.z (crossedTo s n synthetic v.tracker.z x) = w at hstate hself ⊢
    rw [hstate, hself]
    rw [hv]

end Sys2Proof.Machine
end

section
/-! PROOFS. Commands that change the position (R87 to R98, R126, R128): their own bookkeeping, the move, and what ends it. -/

namespace Sys2Proof.Machine

open Safety

/-! ### The open tube of a move -/

theorem crossEnd_kept (s : State) (r : Recipe) (mark : Word) (x : Tube) :
    (crossEnd s r mark x).record = x.record ∧ (crossEnd s r mark x).order = x.order ∧ (crossEnd s r mark x).zTail = x.zTail := by
  unfold crossEnd
  cases x.opened with
  | none => exact ⟨rfl, rfl, rfl⟩
  | some a =>
    dsimp only
    split <;> exact ⟨rfl, rfl, rfl⟩

theorem crossEnds_kept (s : State) (r : Recipe) (mark : Word) (k : Nat) (x : Tube) :
    (crossEnds s r mark k x).record = x.record ∧ (crossEnds s r mark k x).order = x.order
      ∧ (crossEnds s r mark k x).zTail = x.zTail := by
  induction k generalizing x with
  | zero => exact ⟨rfl, rfl, rfl⟩
  | succ k ih =>
    obtain ⟨h1, h2, h3⟩ := ih (crossEnd s r mark x)
    obtain ⟨g1, g2, g3⟩ := crossEnd_kept s r mark x
    exact ⟨h1.trans g1, h2.trans g2, h3.trans g3⟩

/-- A move keeps the open tube's record, order and z_tail. -/
theorem movedTo_tube (s : State) (synthetic : Bool) (z : Nat) (x : Tube) :
    ∃ y, (movedTo s synthetic z x).tube = some y ∧ y.record = x.record ∧ y.order = x.order ∧ y.zTail = x.zTail := by
  unfold movedTo
  split
  · next r n _ _ =>
    obtain ⟨h1, h2, h3⟩ := crossEnds_kept s n.recipe (if synthetic then sfEstimated else 0#16)
      (z / n.recipe.lSec - s.tracker.z / n.recipe.lSec) x
    refine ⟨_, sectionsWritten_tube _ _ _ _, ?_⟩
    have hkept := fun y => writtenTube_kept ((crossedTo s n synthetic z x).holdback.takeWhile (leaves n.recipe.tailSkip z)) s.pool.free y
    obtain ⟨g1, g2, g3, -⟩ := hkept { crossedTo s n synthetic z x with
      holdback := (crossedTo s n synthetic z x).holdback.dropWhile (leaves n.recipe.tailSkip z) }
    exact ⟨g1.trans h1, g2.trans h2, g3.trans h3⟩
  · exact ⟨x, rfl, rfl, rfl, rfl⟩

/-- A move changes the pool, the causes and the tube alone. -/
theorem movedTo_self (s : State) (synthetic : Bool) (z : Nat) (x : Tube) :
    movedTo s synthetic z x = { s with
      pool := (movedTo s synthetic z x).pool, attnCause := (movedTo s synthetic z x).attnCause
      tube := (movedTo s synthetic z x).tube } := by
  unfold movedTo
  split
  · exact sectionsWritten_self _ _ _ _
  · rfl

theorem movedWords_low {a : Nat} (h : Low a) (s : State) (synthetic : Bool) (z : Nat) (x : Tube) :
    (movedWords s synthetic z x).lookup a = none := by
  unfold movedWords
  split
  · exact sectionWords_low h _ _ _ _
  · rfl

/-! ### A command up to its position change (R87, R91 to R93) -/

/-- What of a command's own effects the rest turns on: z stands, the tracker is TRACKING or DEAD_RECKONING, only an episode can be
spent, and its words lie among the status words other than those that the change itself may write. -/
structure Plain (s : State) (d : Advance) : Prop where
  z : d.tracker.z = s.tracker.z
  state : d.tracker.state = .tracking ∨ d.tracker.state = .deadReckoning
  spent : d.spent = true → d.tracker.state = .deadReckoning
  words : ∀ a, (d.words.lookup a).isSome = true → Low a ∧ a ≠ stPosition ∧ a ≠ stGauge

/-- The causes that a command raises before the position changes. -/
def raisedBy (d : Advance) : Byte := if d.alarm then causeTrack else 0#8

/-- `w` is `s` after all that the command does before the position changes. -/
structure Prepared (s : State) (d : Advance) (x : Tube) (w : State) : Prop where
  state : w = { s with
    mem := w.mem, tracker := d.tracker, attnCause := s.attnCause ||| raisedBy d, tube := some (d.give 0#16 x) }
  words : Wrote s w d.words

/-- `w` after the position change, up to what it may end (R96, R97). -/
def State.shifted (w : State) (d : Advance) (z : Nat) : State := (w.setZ z).takeChange d.synthetic w.tracker.z z

theorem give_kept (d : Advance) (f : Word) (x : Tube) :
    (d.give f x).record = x.record ∧ (d.give f x).order = x.order ∧ (d.give f x).zTail = x.zTail
      ∧ (d.give f x).opened = x.opened ∧ (d.give f x).holdback = x.holdback := by
  unfold Advance.give
  split <;> exact ⟨rfl, rfl, rfl, rfl, rfl⟩

theorem Prepared.kept {s w : State} {d : Advance} {x : Tube} (h : Prepared s d x w) (hp : Plain s d) (ht : s.tube = some x) :
    w.tubeOrder = s.tubeOrder ∧ w.tracker.z = s.tracker.z ∧ w.inFlight = s.inFlight ∧ w.cfg = s.cfg ∧ w.gauge = s.gauge := by
  obtain ⟨-, horder, -⟩ := give_kept d 0#16 x
  refine ⟨State.tubeOrder_of_eq ?_ (by rw [h.state]), ?_, State.inFlight_congr (by rw [h.state]), ?_, by rw [h.state]⟩
  · rw [h.state]
    simp only [State.orderInUse, ht, Option.bind_some, horder]
  · rw [h.state]
    exact hp.z
  · rw [h.state]
    rfl

/-- The move of a command (R96, R97, R111, R130). -/
theorem Prepared.shifted {s w : State} {d : Advance} {x : Tube} (h : Prepared s d x w) (hp : Plain s d) (ht : s.tube = some x)
    (hz : FollowsZ s x) :
    let m := movedTo s d.synthetic (d.z s) (d.give 0#16 x)
    let u := w.shifted d (d.z s)
    u = { m with mem := u.mem, tracker := { d.tracker with z := d.z s }, attnCause := m.attnCause ||| raisedBy d }
      ∧ Wrote s u (movedWords s d.synthetic (d.z s) (d.give 0#16 x) ++ d.position s ++ d.words) := by
  intro m u
  obtain ⟨horder, hwz, hflight, hcfg, -⟩ := h.kept hp ht
  obtain ⟨h1, h2, h3, h4, h5⟩ := give_kept d 0#16 x
  have hwt : w.tube = some (d.give 0#16 x) := by rw [h.state]
  have hfollows : FollowsZ w (d.give 0#16 x) := by
    obtain ⟨hgoing, hsec⟩ := hz
    refine ⟨h3.trans hgoing, hsec.imp (fun ⟨a, b⟩ => ⟨h4.trans a, h5.trans b⟩) ?_⟩
    rintro ⟨n, a, hn, hr, ha, hi⟩
    exact ⟨n, a, horder.trans hn, by rw [h1]; exact hr, h4.trans ha, by rw [hwz]; exact hi⟩
  obtain ⟨hmove, hmoved⟩ := State.takeChange_moved (s := w) (v := w.setZ (d.z s)) hwt hfollows rfl d.synthetic
  obtain ⟨hcongr, hsame⟩ := movedTo_congr (s := s) (t := w) (m := raisedBy d) (by rw [h.state]) (by rw [h.state]) (by rw [h.state]) horder
    hflight hwz d.synthetic (d.z s) (d.give 0#16 x)
  have hposition : Wrote w (w.setZ (d.z s)) (d.position s) := by
    have := w.setZ_wrote (d.z s)
    rw [hwz] at this
    exact this
  refine ⟨?_, ?_⟩
  · have hu : u = { movedTo w d.synthetic (d.z s) (d.give 0#16 x) with mem := u.mem, tracker := (w.setZ (d.z s)).tracker } := hmove
    have hself := movedTo_self s d.synthetic (d.z s) (d.give 0#16 x)
    rw [hcongr] at hu
    have htracker : (w.setZ (d.z s)).tracker = { d.tracker with z := d.z s } := by
      rw [State.setZ_tracker, h.state]
    rw [htracker] at hu
    refine hu.trans ?_
    simp only [m]
    generalize movedTo s d.synthetic (d.z s) (d.give 0#16 x) = m' at hself
    generalize u.mem = mem
    rw [hself, h.state]
  · rw [List.append_assoc, ← hsame]
    exact (h.words.trans hposition).trans hmoved

/-! ### LOST (R95, R98) -/

/-- The tube of a tracker that enters LOST (R98, R126). -/
def lostTube (x : Tube) : Tube := if x.record.isSome then { x with flags := x.flags ||| tfTrackingLost } else x

theorem State.enterLost_gives {u : State} (h : u.tracker.state ≠ .lost) :
    u.enterLost = { u with
        mem := u.enterLost.mem, attnCause := u.attnCause ||| causeTrack
        tracker := { u.tracker with state := .lost, stallLimit := none, fresh := false }, tube := u.tube.map lostTube }
      ∧ Wrote u u.enterLost [(stTracking, 3#16)] := by
  refine ⟨rfl, ?_⟩
  have hwords := ({ u with tracker := { u.tracker with stallLimit := none, fresh := false } } : State).setTrack_wrote .lost
  have hchanged : decide (u.tracker.state ≠ .lost) = true := decide_eq_true h
  exact (hwords.of_mem (s' := u) (t' := u.enterLost) rfl rfl).congr fun a _ => by
    change _ = (ifChanged (decide (u.tracker.state ≠ .lost)) stTracking (trackCode .lost)).lookup a
    rw [hchanged]
    rfl

/-! ### Measuring goes on (R94, R96, R98) -/

/-- A command after its position change: the episode may be spent (R94). -/
def State.finished (w : State) (d : Advance) : State :=
  let p := w.positionChange d.steps d.synthetic
  if d.spent = true ∧ p.tracker.state = .deadReckoning then p.enterLost else p

theorem Prepared.positionChange_eq {s w : State} {d : Advance} {x : Tube} (h : Prepared s d x w) (hp : Plain s d) (ht : s.tube = some x) :
    w.positionChange d.steps d.synthetic
      = if d.z s = Config.zMax ∧ (w.shifted d (d.z s)).judgeLength.gauge = .measuring then (w.shifted d (d.z s)).judgeLength.enterLost
        else (w.shifted d (d.z s)).judgeLength := by
  obtain ⟨-, hwz, -, hcfg, -⟩ := h.kept hp ht
  have hafter : advanced w.tracker.z d.steps w.cfg.encStep = d.z s := by rw [hwz, hcfg]; rfl
  unfold State.positionChange
  dsimp only
  rw [hafter]
  rfl

/-- What stands after the move: z, the gauge state, the order, and the shot in flight. -/
theorem Prepared.shifted_kept {s w : State} {d : Advance} {x : Tube} (h : Prepared s d x w) (hp : Plain s d) (ht : s.tube = some x)
    (hz : FollowsZ s x) :
    (w.shifted d (d.z s)).gauge = s.gauge ∧ (w.shifted d (d.z s)).tubeOrder = s.tubeOrder
      ∧ (w.shifted d (d.z s)).tracker = { d.tracker with z := d.z s } ∧ (w.shifted d (d.z s)).inFlight = s.inFlight := by
  obtain ⟨hstate, -⟩ := h.shifted hp ht hz
  obtain ⟨y, hy, -, horder, -⟩ := movedTo_tube s d.synthetic (d.z s) (d.give 0#16 x)
  obtain ⟨-, hgive, -⟩ := give_kept d 0#16 x
  have hself := movedTo_self s d.synthetic (d.z s) (d.give 0#16 x)
  refine ⟨?_, State.tubeOrder_of_eq ?_ ?_, by rw [hstate], State.inFlight_congr ?_⟩
  · rw [hstate, hself]
  · rw [hstate]
    simp only [State.orderInUse, hy, ht, Option.bind_some, horder, hgive]
  · rw [hstate, hself]
  · rw [hstate, hself]

theorem Prepared.notOverlong {s w : State} {d : Advance} {x : Tube} (h : Prepared s d x w) (hp : Plain s d) (ht : s.tube = some x)
    (hz : FollowsZ s x) (hlong : ¬d.Overlong s) : (w.shifted d (d.z s)).judgeLength = w.shifted d (d.z s) := by
  obtain ⟨-, horder, htracker, -⟩ := h.shifted_kept hp ht hz
  have hno : (w.shifted d (d.z s)).overlong = false := by
    unfold State.overlong
    rw [horder, htracker]
    cases hn : s.tubeOrder with
    | none => simp
    | some n =>
      have : ¬n.recipe.maxLen ≤ d.z s := fun hle => hlong ⟨n, hn, hle⟩
      simp [this]
  rw [State.judgeLength, hno]
  exact if_neg Bool.false_ne_true

/-- The flag that goes with LOST may be given before the move. -/
theorem give_lost (d : Advance) (x : Tube) :
    d.give tfTrackingLost x = if x.record.isSome then flagged tfTrackingLost (d.give 0#16 x) else d.give 0#16 x := by
  unfold Advance.give flagged
  split
  · simp
  · rfl

theorem Prepared.finished_eq {s w : State} {d : Advance} {x : Tube} (h : Prepared s d x w) (hp : Plain s d) (hg : s.gauge = .measuring)
    (ht : s.tube = some x) (hz : FollowsZ s x) (hlong : ¬d.Overlong s) :
    w.finished d = if d.lost s then (w.shifted d (d.z s)).enterLost else w.shifted d (d.z s) := by
  obtain ⟨hgauge, -, htracker, -⟩ := h.shifted_kept hp ht hz
  have hchange := h.positionChange_eq hp ht
  rw [h.notOverlong hp ht hz hlong, hgauge, hg] at hchange
  unfold State.finished Advance.lost
  dsimp only
  rw [hchange]
  by_cases hmax : d.z s = 67108863
  · have hlost : (w.shifted d (d.z s)).enterLost.tracker.state ≠ .deadReckoning := by
      have : (w.shifted d (d.z s)).enterLost.tracker.state = .lost := rfl
      rw [this]
      decide
    rw [if_pos (c := d.z s = Config.zMax ∧ _) ⟨hmax, rfl⟩, if_neg fun hc => hlost hc.2, decide_eq_true hmax, Bool.or_true, if_pos rfl]
  · rw [if_neg (c := d.z s = Config.zMax ∧ _) fun hc => hmax hc.1, decide_eq_false hmax, Bool.or_false]
    by_cases hspent : d.spent = true
    · rw [if_pos ⟨hspent, by rw [htracker]; exact hp.spent hspent⟩, if_pos hspent]
    · rw [if_neg fun hc => hspent hc.1, if_neg hspent]

/-- The words of a command in the order in which the statements list them. -/
theorem lookup_advance_words {s : State} {d : Advance} (hp : Plain s d) (y : Tube) (L : List (Nat × Word)) (a : Nat) :
    (L ++ d.words ++ d.position s ++ movedWords s d.synthetic (d.z s) y).lookup a
      = (L ++ (movedWords s d.synthetic (d.z s) y ++ d.position s ++ d.words)).lookup a := by
  have hposition : ∀ v, (d.position s).lookup a = some v → a = stPosition := fun v hv => by
    rw [Advance.position, lookup_ifChanged] at hv
    split at hv
    · next hc => exact hc.2
    · exact absurd hv (by simp)
  rw [List.append_assoc, List.append_assoc, lookup_append, lookup_append L]
  congr 1
  rw [lookup_append, lookup_append, lookup_append, lookup_append]
  cases hw : d.words.lookup a with
  | some v =>
    obtain ⟨hlow, hne, -⟩ := hp.words a (by rw [hw]; rfl)
    cases hpos : (d.position s).lookup a with
    | some v' => exact absurd (hposition v' hpos) hne
    | none => rw [movedWords_low hlow]; rfl
  | none =>
    cases hpos : (d.position s).lookup a with
    | some v' =>
      have hlow : Low a := by
        rw [hposition v' hpos]
        simp only [Low, stPosition, stFreeCount]
        decide
      rw [movedWords_low hlow]
      rfl
    | none => cases (movedWords s d.synthetic (d.z s) y).lookup a <;> rfl

theorem or_raisedBy (d : Advance) (a : Byte) : a ||| raisedBy d = if d.alarm then a ||| causeTrack else a := by
  unfold raisedBy
  split
  · rfl
  · exact BitVec.or_zero

theorem or_raisedBy_track (d : Advance) (a : Byte) : a ||| raisedBy d ||| causeTrack = a ||| causeTrack := by
  unfold raisedBy
  split
  · rw [BitVec.or_assoc, BitVec.or_self]
  · rw [BitVec.or_zero]

/-- The flag that goes with LOST, given before the move or after it. -/
theorem movedTo_lost (s : State) (d : Advance) (z : Nat) (x : Tube) :
    movedTo s d.synthetic z (d.give tfTrackingLost x)
        = { movedTo s d.synthetic z (d.give 0#16 x) with tube := (movedTo s d.synthetic z (d.give 0#16 x)).tube.map lostTube }
      ∧ movedWords s d.synthetic z (d.give tfTrackingLost x) = movedWords s d.synthetic z (d.give 0#16 x) := by
  obtain ⟨y, hy, hyr, -⟩ := movedTo_tube s d.synthetic z (d.give 0#16 x)
  obtain ⟨hgr, -⟩ := give_kept d 0#16 x
  rw [give_lost, hy, Option.map_some]
  cases hr : x.record.isSome with
  | true =>
    rw [if_pos rfl]
    obtain ⟨hmoved, hwords⟩ := movedTo_flagged s d.synthetic z tfTrackingLost (d.give 0#16 x)
    have hlost : lostTube y = flagged tfTrackingLost y := if_pos (by rw [hyr, hgr]; exact hr)
    rw [hy, Option.map_some, ← hlost] at hmoved
    exact ⟨hmoved, hwords⟩
  | false =>
    have hlost : lostTube y = y := if_neg (by rw [hyr, hgr, hr]; exact Bool.false_ne_true)
    rw [if_neg Bool.false_ne_true, hlost, ← hy]
    exact ⟨rfl, rfl⟩

/-- A command that changes the position where measuring goes on. -/
theorem Prepared.goesOn {s w : State} {d : Advance} {x : Tube} (h : Prepared s d x w) (hp : Plain s d) (hg : s.gauge = .measuring)
    (ht : s.tube = some x) (hz : FollowsZ s x) (hlong : ¬d.Overlong s) :
    w.finished d = { d.goesOn s x with mem := (w.finished d).mem } ∧ Wrote s (w.finished d) (d.goesOnWords s x) := by
  obtain ⟨hstate, hwords⟩ := h.shifted hp ht hz
  have hfin := h.finished_eq hp hg ht hz hlong
  unfold Advance.goesOn Advance.goesOnWords Advance.after
  cases hl : d.lost s with
  | false =>
    rw [hl, if_neg Bool.false_ne_true] at hfin
    rw [hfin]
    simp only [Bool.false_eq_true, if_false, Bool.or_false, ← or_raisedBy]
    exact ⟨hstate, hwords.congr fun a _ => lookup_advance_words hp _ [] a⟩
  | true =>
    rw [hl, if_pos rfl] at hfin
    rw [hfin]
    simp only [if_true, Bool.or_true]
    obtain ⟨-, -, htracker, -⟩ := h.shifted_kept hp ht hz
    have hnot : (w.shifted d (d.z s)).tracker.state ≠ .lost := by
      rw [htracker]
      rcases hp.state with hs | hs
      · exact fun hc => TrackState.noConfusion (hs.symm.trans hc)
      · exact fun hc => TrackState.noConfusion (hs.symm.trans hc)
    obtain ⟨hlost, hlostWords⟩ := State.enterLost_gives hnot
    obtain ⟨hflag, hsame⟩ := movedTo_lost s d (d.z s) x
    rw [hflag, hsame]
    refine ⟨?_, (hwords.trans hlostWords).congr fun a _ => lookup_advance_words hp _ [(stTracking, 3#16)] a⟩
    generalize (w.shifted d (d.z s)).enterLost = t at hlost
    generalize w.shifted d (d.z s) = u at hstate hlost
    rw [hstate] at hlost
    dsimp only at hlost
    rw [or_raisedBy_track] at hlost
    exact hlost

end Sys2Proof.Machine
end

section
/-! PROOFS. Position changes that end measuring (R90, R111, R128, R134), and the real, stalled and synthetic steps themselves. -/

namespace Sys2Proof.Machine

open Safety

/-! ### Overlength (R128) -/

/-- The gauge leaves CLOSING with the tracker idle, and never into MEASURING (R14, R137). -/
theorem State.leaveClosing_idle {s : State} (h : s.tracker.state = .idle) :
    s.leaveClosing.tracker.state = .idle ∧ s.leaveClosing.gauge ≠ .measuring := by
  unfold State.leaveClosing
  dsimp only
  split
  · exact ⟨rfl, GaugeState.noConfusion⟩
  · refine ⟨by simpa using h, ?_⟩
    rw [State.setGauge_gauge]
    split <;> exact GaugeState.noConfusion

theorem State.closeIfDrained_idle {s : State} (h : s.tracker.state = .idle) (hg : s.gauge = .closing) :
    s.closeIfDrained.tracker.state = .idle ∧ s.closeIfDrained.gauge ≠ .measuring := by
  unfold State.closeIfDrained
  split
  · unfold State.closeTube
    split
    · exact State.leaveClosing_idle (by simpa using h)
    · exact State.leaveClosing_idle h
  · exact ⟨h, by rw [hg]; exact GaugeState.noConfusion⟩

theorem map_some_of {α β : Type} {o : Option α} {a : α} (h : o = some a) (f : α → β) : o.map f = some (f a) := by rw [h]; rfl

/-- A command that brings the tube to max_len ends measuring (R90, R128). -/
theorem Prepared.ends {s w : State} {d : Advance} {x : Tube} (h : Prepared s d x w) (hp : Plain s d) (hg : s.gauge = .measuring)
    (ht : s.tube = some x) (hz : FollowsZ s x) (hlong : d.Overlong s) :
    let e := (w.shifted d (d.z s)).endMeasuring (some .overlength)
    e = { d.ends s x with mem := e.mem } ∧ Wrote s e (d.endsWords s x) ∧ w.finished d = e.closeIfDrained
      ∧ e.inFlight = s.inFlight ∧ e.gauge = .closing := by
  intro e
  obtain ⟨hgauge, horder, htracker, hflight⟩ := h.shifted_kept hp ht hz
  obtain ⟨hstate, hwords⟩ := h.shifted hp ht hz
  have heq := (w.shifted d (d.z s)).endMeasuring_eq (some .overlength)
  have hend := (w.shifted d (d.z s)).endMeasuring_wrote (some .overlength)
  have hmoving : d.tracker.state ≠ .idle := by rcases hp.state with hs | hs <;> rw [hs] <;> exact TrackState.noConfusion
  have htrackWord : ifChanged ((w.shifted d (d.z s)).tracker.state ≠ .idle) stTracking 0#16 = [(stTracking, 0#16)] := by
    rw [htracker]
    exact if_pos (decide_eq_true hmoving)
  rw [htrackWord] at hend
  have hidle : e.tracker.state = .idle ∧ e.gauge = .closing := ⟨rfl, rfl⟩
  obtain ⟨hclosed, hleft⟩ := State.closeIfDrained_idle hidle.1 hidle.2
  refine ⟨?_, (hwords.trans hend).congr fun a _ => lookup_advance_words hp _ [(stGauge, 4#16), (stTracking, 0#16)] a, ?_, ?_, hidle.2⟩
  · simp only [Advance.ends, ← or_raisedBy]
    refine heq.trans ?_
    change ({ w.shifted d (d.z s) with
      mem := e.mem, gauge := .closing
      tracker := { (w.shifted d (d.z s)).tracker with state := .idle, stallLimit := none, episode := 0, fresh := false }
      tube := (w.shifted d (d.z s)).tube.map (fun x => { x with
        zTail := some (w.shifted d (d.z s)).tracker.z, outcome := .overlength }) } : State) = _
    generalize e.mem = m
    generalize w.shifted d (d.z s) = u at hstate
    rw [hstate]
  · have hover : (w.shifted d (d.z s)).overlong = true := by
      obtain ⟨n, hn, hle⟩ := hlong
      unfold State.overlong
      rw [hgauge, hg, horder, hn, htracker]
      simpa using hle
    have hjudged : (w.shifted d (d.z s)).judgeLength = e.closeIfDrained := if_pos hover
    have hchange := h.positionChange_eq hp ht
    rw [hjudged, if_neg fun hc => hleft hc.2] at hchange
    unfold State.finished
    dsimp only
    rw [hchange]
    exact if_neg fun hc => TrackState.noConfusion (hclosed.symm.trans hc.2)
  · exact (State.inFlight_congr rfl).trans hflight

/-! ### Real steps (R87, R88, R91, R93) -/

theorem low_speed : Low stSpeed ∧ stSpeed ≠ stPosition ∧ stSpeed ≠ stGauge := by
  simp only [Low, stSpeed, stFreeCount, stPosition, stGauge]
  decide

theorem low_tracking : Low stTracking ∧ stTracking ≠ stPosition ∧ stTracking ≠ stGauge := by
  simp only [Low, stTracking, stFreeCount, stPosition, stGauge]
  decide

theorem plain_single {a b : Nat} {v : Word} (h : Low a ∧ a ≠ stPosition ∧ a ≠ stGauge)
    (hl : (([(a, v)] : List (Nat × Word)).lookup b).isSome = true) : Low b ∧ b ≠ stPosition ∧ b ≠ stGauge := by
  rw [lookup_single] at hl
  split at hl
  · next e => exact e ▸ h
  · exact absurd hl (by simp)

theorem plain_ifChanged {c : Bool} {a b : Nat} {v : Word} (h : Low a ∧ a ≠ stPosition ∧ a ≠ stGauge)
    (hl : ((ifChanged c a v).lookup b).isSome = true) : Low b ∧ b ≠ stPosition ∧ b ≠ stGauge := by
  rw [lookup_ifChanged] at hl
  split at hl
  · next e => exact e.2 ▸ h
  · exact absurd hl (by simp)

/-- The period measurement of a real step (R88). -/
theorem State.measure_gives (s : State) (us : Nat) :
    s.measure us = { s with
        mem := (s.measure us).mem, tracker := { s.tracker with pLast := periodAfter s us, fresh := true, stepAt := s.now } }
      ∧ Wrote s (s.measure us) (speedWrite s (periodAfter s us)) := by
  unfold State.measure periodAfter
  cases hf : s.tracker.fresh with
  | true => exact ⟨rfl, (s.setPLast_wrote (some (periodOf us))).of_mem rfl rfl⟩
  | false =>
    refine ⟨rfl, ((wrote_nil s s rfl).of_mem rfl rfl).congr fun a _ => ?_⟩
    simp [speedWrite, ifChanged]

theorem give_nothing {d : Advance} (hf : d.flags = 0#16) (hs : d.synthetic = false) (x : Tube) : d.give 0#16 x = x := by
  unfold Advance.give
  split
  · rw [hf, hs]
    simp
  · rfl

theorem plain_realAdvance {s : State} (h : s.tracker.state = .tracking) (us : Nat) : Plain s (realAdvance s us) where
  z := rfl
  state := .inl h
  spent := fun hc => absurd hc Bool.false_ne_true
  words := fun _ => plain_ifChanged low_speed

theorem prepared_realAdvance {s : State} {x : Tube} (ht : s.tube = some x) (us : Nat) :
    Prepared s (realAdvance s us) x (s.measure us).restartStall where
  state := by
    obtain ⟨hm, -⟩ := s.measure_gives us
    have hlimit : stallLimitOf (s.measure us).cfg.stallMin (s.measure us).tracker.pLast = stallTime s (periodAfter s us) := by
      rw [hm]
      rfl
    have hraised : s.attnCause ||| raisedBy (realAdvance s us) = s.attnCause := BitVec.or_zero
    rw [give_nothing rfl rfl, hraised, State.restartStall, hlimit, ← ht]
    generalize s.measure us = m at hm
    rw [hm]
    rfl
  words := (s.measure_gives us).2.of_mem rfl rfl

theorem plain_returnAdvance (s : State) : Plain s (returnAdvance s) where
  z := rfl
  state := .inl rfl
  spent := fun hc => absurd hc Bool.false_ne_true
  words := fun _ => plain_single low_tracking

theorem prepared_returnAdvance {s : State} {x : Tube} (ht : s.tube = some x) (h : s.tracker.state = .deadReckoning) :
    Prepared s (returnAdvance s) x s.endEpisode where
  state := by
    have hraised : s.attnCause ||| raisedBy (returnAdvance s) = s.attnCause := BitVec.or_zero
    rw [give_nothing rfl rfl, hraised, ← ht]
    rfl
  words := by
    have hwords := ({ s with tracker := { s.tracker with episode := 0, fresh := true, stepAt := s.now } } : State).setTrack_wrote .tracking
    have hchanged : decide (s.tracker.state ≠ .tracking) = true := by rw [h]; rfl
    refine (hwords.of_mem (s' := s) (t' := s.endEpisode) rfl rfl).congr fun a _ => ?_
    change _ = (ifChanged (decide (s.tracker.state ≠ .tracking)) stTracking (trackCode .tracking)).lookup a
    rw [hchanged]
    rfl

end Sys2Proof.Machine
end

section
/-! PROOFS. Real steps, stalls and synthetic steps, in every tracking state (R87 to R98, R126, R128). -/

namespace Sys2Proof.Machine

open Safety

/-! ### Dead reckoning (R91, R92) -/

theorem State.modOpen_some {s : State} {x : Tube} (ht : s.tube = some x) (f : Tube → Tube) :
    s.modOpen f = { s with tube := some (if x.record.isSome then f x else x) } := by
  rw [State.modOpen, State.modTube, ht, Option.map_some]

/-- The open tube with `n` synthetic steps counted (R92, R126). -/
def countedTube (n : Nat) (x : Tube) : Tube :=
  if x.record.isSome then { x with totals := { x.totals with deadReckoned := min (x.totals.deadReckoned + n) 4294967295 } } else x

/-- The open tube as dead reckoning begins (R98, R126). -/
def reckonedTube (x : Tube) : Tube := if x.record.isSome then { x with flags := x.flags ||| tfDeadReckoned } else x

theorem give_stall (s : State) (p limit : Nat) (x : Tube) :
    (stallAdvance s p limit).give 0#16 x = countedTube (min (limit / p) s.cfg.drMax) (reckonedTube x) := by
  unfold Advance.give countedTube reckonedTube
  cases hr : x.record.isSome with
  | true => simp [stallAdvance, hr]
  | false => simp [hr]

/-- The steps of an episode, counted (R92, R126). -/
theorem State.countSynthetic_eq {s : State} {x : Tube} (ht : s.tube = some x) (n : Nat) :
    s.countSynthetic n = { s with
      tracker := { s.tracker with episode := s.tracker.episode + n }
      tube := some (countedTube n x) } := by
  exact State.modOpen_some (s := { s with tracker := { s.tracker with episode := s.tracker.episode + n } }) ht _

/-- The entry of DEAD_RECKONING (R91, R98). -/
theorem State.enterReckoning_gives {s : State} {x : Tube} (ht : s.tube = some x) (hs : s.tracker.state = .tracking) :
    s.enterReckoning = { s with
        mem := s.enterReckoning.mem, attnCause := s.attnCause ||| causeTrack
        tracker := { s.tracker with state := .deadReckoning, episode := 0, fresh := false, stallLimit := none, synthAt := s.now }
        tube := some (reckonedTube x) }
      ∧ Wrote s s.enterReckoning [(stTracking, 2#16)] := by
  have hset := ({ s with tracker := { s.tracker with
    episode := 0, fresh := false, stallLimit := none, synthAt := s.now } } : State).setTrack_wrote .deadReckoning
  have hchanged : decide (s.tracker.state ≠ .deadReckoning) = true := by rw [hs]; rfl
  constructor
  · refine State.eq_withMem _ { s with
      attnCause := s.attnCause ||| causeTrack
      tracker := { s.tracker with state := .deadReckoning, episode := 0, fresh := false, stallLimit := none, synthAt := s.now }
      tube := some (reckonedTube x) } ?_
    have htube : s.enterReckoning.tube = some (reckonedTube x) :=
      map_some_of ht _
    rw [← htube]
    rfl
  · refine (hset.of_mem (s' := s) (t' := s.enterReckoning) rfl rfl).congr fun a _ => ?_
    change _ = (ifChanged (decide (s.tracker.state ≠ .deadReckoning)) stTracking (trackCode .deadReckoning)).lookup a
    rw [hchanged]
    rfl

theorem plain_stallAdvance (s : State) (p limit : Nat) : Plain s (stallAdvance s p limit) where
  z := rfl
  state := .inr rfl
  spent := fun _ => rfl
  words := fun _ => plain_single low_tracking

theorem prepared_stallAdvance {s : State} {x : Tube} (ht : s.tube = some x) (hs : s.tracker.state = .tracking) (p limit : Nat) :
    Prepared s (stallAdvance s p limit) x (s.enterReckoning.countSynthetic (min (limit / p) s.cfg.drMax)) where
  state := by
    obtain ⟨hentered, -⟩ := State.enterReckoning_gives ht hs
    have hraised : s.attnCause ||| raisedBy (stallAdvance s p limit) = s.attnCause ||| causeTrack := rfl
    have htube : s.enterReckoning.tube = some (reckonedTube x) := by
      rw [hentered]
    have htracker : ({ s.enterReckoning.tracker with
        episode := s.enterReckoning.tracker.episode + min (limit / p) s.cfg.drMax } : Tracker) = (stallAdvance s p limit).tracker := by
      rw [hentered]
      simp [stallAdvance]
    rw [hraised, State.countSynthetic_eq htube, htracker, give_stall]
    generalize s.enterReckoning = u at hentered
    rw [hentered]
  words := by
    obtain ⟨hentered, hwords⟩ := State.enterReckoning_gives ht hs
    have htube : s.enterReckoning.tube = some (reckonedTube x) := by
      rw [hentered]
    rw [State.countSynthetic_eq htube]
    exact hwords.of_mem rfl rfl

theorem plain_syntheticAdvance {s : State} (h : s.tracker.state = .deadReckoning) (p : Nat) : Plain s (syntheticAdvance s p) where
  z := rfl
  state := .inr h
  spent := fun _ => h
  words := fun _ hc => absurd hc Bool.false_ne_true

theorem prepared_syntheticAdvance {s : State} {x : Tube} (ht : s.tube = some x) (p : Nat) :
    Prepared s (syntheticAdvance s p) x
      (({ s with tracker := { s.tracker with synthAt := s.tracker.synthAt + 25 * p } } : State).countSynthetic 1) where
  state := by
    have hraised : s.attnCause ||| raisedBy (syntheticAdvance s p) = s.attnCause := BitVec.or_zero
    have hcounted := State.countSynthetic_eq
      (s := { s with tracker := { s.tracker with synthAt := s.tracker.synthAt + 25 * p } }) (x := x) ht 1
    rw [hraised]
    refine hcounted.trans ?_
    refine congrArg (fun y => ({ s with tracker := (syntheticAdvance s p).tracker, tube := some y } : State)) ?_
    unfold Advance.give countedTube
    split
    · simp [syntheticAdvance]
    · rfl
  words := by
    have hcounted := State.countSynthetic_eq
      (s := { s with tracker := { s.tracker with synthAt := s.tracker.synthAt + 25 * p } }) (x := x) ht 1
    rw [hcounted]
    exact (wrote_nil s s rfl).of_mem rfl rfl

/-! ### The commands -/

theorem State.finished_unspent {w : State} {d : Advance} (h : d.spent = false) : w.finished d = w.positionChange d.steps d.synthetic := by
  unfold State.finished
  dsimp only
  rw [h, if_neg fun hc => Bool.false_ne_true hc.1]

theorem State.endIfSpent_eq {p : State} {s : State} (hset : p.setup = s.setup) (n : Nat) :
    p.endIfSpent n = if decide (s.cfg.drMax ≤ n) = true ∧ p.tracker.state = .deadReckoning then p.enterLost else p := by
  have hcfg : p.cfg = s.cfg := by rw [State.cfg, State.cfg, hset]
  simp only [State.endIfSpent, hcfg, decide_eq_true_eq]

theorem State.realStep_tracking {s : State} (h : s.tracker.state = .tracking) (us : Nat) :
    s.realStep us = (s.measure us).restartStall.finished (realAdvance s us) := by
  rw [State.finished_unspent rfl, State.realStep, h]
  rfl

theorem State.realStep_reckoning {s : State} (h : s.tracker.state = .deadReckoning) (us : Nat) :
    s.realStep us = s.endEpisode.finished (returnAdvance s) := by
  rw [State.finished_unspent rfl, State.realStep, h]
  rfl

theorem State.stall_known {s : State} {p limit : Nat} (h : s.tracker.state = .tracking) (hp : s.tracker.pLast = some p)
    (hl : s.tracker.stallLimit = some limit) :
    s.stall = (s.enterReckoning.countSynthetic (min (limit / p) s.cfg.drMax)).finished (stallAdvance s p limit) := by
  have hspent := State.endIfSpent_eq (s := s) (p := (s.enterReckoning.countSynthetic (min (limit / p) s.cfg.drMax)).positionChange
    (min (limit / p) s.cfg.drMax) true) (by simp) (min (limit / p) s.cfg.drMax)
  unfold State.stall
  rw [if_pos h, hp, hl]
  exact hspent

theorem State.syntheticStep_known {s : State} {p : Nat} (h : s.tracker.state = .deadReckoning) (hp : s.tracker.pLast = some p) :
    s.syntheticStep = (({ s with tracker := { s.tracker with synthAt := s.tracker.synthAt + 25 * p } } : State).countSynthetic 1).finished
      (syntheticAdvance s p) := by
  have hspent := State.endIfSpent_eq (s := s)
    (p := (({ s with tracker := { s.tracker with synthAt := s.tracker.synthAt + 25 * p } } : State).countSynthetic 1).positionChange 1 true)
    (by simp) (s.tracker.episode + 1)
  unfold State.syntheticStep
  rw [if_pos h, hp]
  exact hspent

/-- Settles O36. -/
theorem realStepAdvancesPosition : Obligations.RealStepAdvancesPosition := by
  intro s us
  refine ⟨fun h => ?_, fun h => ?_, fun d x hd hg ht hz hlong => ?_⟩
  · exact congrArg Host.Outcome.next (by rw [State.realStep, h])
  · have hstep : s.realStep us = s.measure us := by rw [State.realStep, h]
    obtain ⟨hm, hw⟩ := s.measure_gives us
    exact ⟨s.measure us, congrArg Host.Outcome.next hstep, hm, hw⟩
  · rcases hd with ⟨h, rfl⟩ | ⟨h, rfl⟩
    · obtain ⟨hstate, hwords⟩ := (prepared_realAdvance ht us).goesOn (plain_realAdvance h us) hg ht hz hlong
      exact ⟨_, congrArg Host.Outcome.next (State.realStep_tracking h us), hstate, hwords⟩
    · obtain ⟨hstate, hwords⟩ := (prepared_returnAdvance ht h).goesOn (plain_returnAdvance s) hg ht hz hlong
      exact ⟨_, congrArg Host.Outcome.next (State.realStep_reckoning h us), hstate, hwords⟩

/-- Settles O37. -/
theorem stallAndSyntheticSteps : Obligations.StallAndSyntheticSteps := by
  intro s
  refine ⟨fun h => congrArg Host.Outcome.next (if_neg h), fun h => congrArg Host.Outcome.next (if_neg h), fun h hp => ?_,
    fun p limit x h hp hl hg ht hz hlong => ?_, fun p x h hp hg ht hz hlong => ?_⟩
  · have hstall : s.stall = s.enterLost := by
      unfold State.stall
      rw [if_pos h, hp]
    obtain ⟨hlost, hwords⟩ := State.enterLost_gives (u := s) (by rw [h]; exact TrackState.noConfusion)
    exact ⟨s.enterLost, congrArg Host.Outcome.next hstall, hlost, hwords⟩
  · obtain ⟨hstate, hwords⟩ := (prepared_stallAdvance ht h p limit).goesOn (plain_stallAdvance s p limit) hg ht hz hlong
    exact ⟨_, congrArg Host.Outcome.next (State.stall_known h hp hl), hstate, hwords⟩
  · obtain ⟨hstate, hwords⟩ := (prepared_syntheticAdvance ht p).goesOn (plain_syntheticAdvance h p) hg ht hz hlong
    exact ⟨_, congrArg Host.Outcome.next (State.syntheticStep_known h hp), hstate, hwords⟩

end Sys2Proof.Machine
end

section
/-! PROOFS. Position changes that end measuring by overlength, or end with z saturated (R90, R96, R98, R128, R134). -/

namespace Sys2Proof.Machine

open Safety

/-- What the move of a position change leaves as it was, whatever the sections say of z (R97). -/
theorem State.moved_kept (w : State) (synthetic : Bool) (z : Nat) :
    let u := (w.setZ z).takeChange synthetic w.tracker.z z
    u.gauge = w.gauge ∧ u.tracker = { w.tracker with z := z } ∧ u.inFlight = w.inFlight ∧ u.tubeOrder = w.tubeOrder
      ∧ u.tube.map Tube.view = w.tube.map Tube.view := by
  intro u
  have hfills : Fills (w.setZ z) u := State.takeChange_fills _ _ _ _
  have hview := Alloc.same hfills.1
  exact ⟨by simp [u], by simp [u], State.inFlight_congr (by simp [u]), hfills.tubeOrder, by
    have := congrArg View.tube hview
    exact this⟩

/-- A position change that brings the tube to max_len while a shot is in flight (R90, R128). -/
theorem State.positionChange_overlong {w : State} {o : Snapshot} {x : Tube} (hg : w.gauge = .measuring) (ho : w.tubeOrder = some o)
    (hx : w.tube = some x) (hstate : w.tracker.state ≠ .idle) (n : Nat) (synthetic : Bool)
    (hlong : o.recipe.maxLen ≤ advanced w.tracker.z n w.cfg.encStep) (hf : w.inFlight ≠ none) :
    let t := w.positionChange n synthetic
    ∃ y, t.gauge = .closing ∧ t.tracker.state = .idle ∧ t.tracker.z = advanced w.tracker.z n w.cfg.encStep ∧ t.tube = some y
      ∧ y.outcome = .overlength ∧ y.zTail = some t.tracker.z ∧ y.record = x.record ∧ y.order = x.order
      ∧ memRead t.mem stGauge = 4#16 ∧ memRead t.mem stTracking = 0#16 := by
  intro t
  obtain ⟨hgauge, htracker, hflight, horder, htube⟩ := w.moved_kept synthetic (advanced w.tracker.z n w.cfg.encStep)
  generalize hu : (w.setZ (advanced w.tracker.z n w.cfg.encStep)).takeChange synthetic w.tracker.z
    (advanced w.tracker.z n w.cfg.encStep) = u at *
  have hover : u.overlong = true := by
    unfold State.overlong
    rw [hgauge, hg, horder, ho, htracker]
    simpa using hlong
  have hends : u.judgeLength = u.endMeasuring (some .overlength) := by
    rw [State.judgeLength, if_pos hover]
    exact State.closeIfDrained_inFlight_ne ((State.inFlight_congr rfl).trans hflight ▸ hf)
  have ht : t = u.endMeasuring (some .overlength) := by
    simp only [t, State.positionChange, hu, hends]
    exact if_neg fun hc => GaugeState.noConfusion hc.2
  have heq := u.endMeasuring_eq (some .overlength)
  have hwords := u.endMeasuring_wrote (some .overlength)
  rw [hx, Option.map_some] at htube
  obtain ⟨y, hy, hview⟩ := Option.map_eq_some_iff.1 htube
  have hchanged : decide (u.tracker.state ≠ .idle) = true := decide_eq_true (by rw [htracker]; exact hstate)
  rw [hchanged] at hwords
  rw [ht]
  refine ⟨{ y with zTail := some u.tracker.z, outcome := .overlength }, rfl, rfl, by rw [heq, htracker], ?_, rfl, ?_,
    congrArg TubeView.record hview, congrArg TubeView.order hview, ?_, ?_⟩
  · rw [heq, hy]
    rfl
  · rw [heq]
  · rw [hwords stGauge (by decide)]
    rfl
  · rw [hwords stTracking (by decide)]
    rfl

/-- A position change that brings z to the end of its range in a tube that does not become overlength (R96, R98). -/
theorem State.positionChange_saturated {w : State} (hg : w.gauge = .measuring) (hstate : w.tracker.state ≠ .lost) (n : Nat)
    (synthetic : Bool) (hz : advanced w.tracker.z n w.cfg.encStep = Config.zMax)
    (hshort : ∀ o, w.tubeOrder = some o → ¬o.recipe.maxLen ≤ Config.zMax) :
    let t := w.positionChange n synthetic
    t.gauge = .measuring ∧ t.tracker.state = .lost ∧ t.tracker.z = Config.zMax ∧ t.attnCause &&& causeTrack = causeTrack
      ∧ memRead t.mem stTracking = 3#16 := by
  intro t
  obtain ⟨hgauge, htracker, -, horder, -⟩ := w.moved_kept synthetic Config.zMax
  generalize hu : (w.setZ Config.zMax).takeChange synthetic w.tracker.z Config.zMax = u at *
  have hover : u.overlong = false := by
    unfold State.overlong
    rw [horder, htracker]
    cases ho : w.tubeOrder with
    | none => simp
    | some o => simp [Nat.lt_of_not_le (hshort o ho)]
  have hjudged : u.judgeLength = u := by
    rw [State.judgeLength, hover]
    exact if_neg Bool.false_ne_true
  have ht : t = u.enterLost := by
    simp only [t, State.positionChange, hz, hu, hjudged]
    exact if_pos ⟨trivial, hgauge.trans hg⟩
  obtain ⟨hlost, hwords⟩ := State.enterLost_gives (u := u) (by rw [htracker]; exact hstate)
  rw [ht]
  refine ⟨by rw [hlost]; exact hgauge.trans hg, by rw [hlost], by rw [hlost, htracker], ?_, ?_⟩
  · rw [hlost]
    exact BitVec.eq_of_getElem_eq fun i hi => by simpa using Or.inr
  · rw [hwords stTracking (by decide)]
    rfl

/-- Every command that changes the position is prepared, and ends as `finished` says. -/
theorem exec_advance {s : State} {i : Instr} {d : Advance} {x : Tube} (ht : s.tube = some x)
    (h : (∃ us, i = .realStep us ∧ ((s.tracker.state = .tracking ∧ d = realAdvance s us)
          ∨ (s.tracker.state = .deadReckoning ∧ d = returnAdvance s)))
      ∨ (∃ p limit, i = .stall ∧ s.tracker.state = .tracking ∧ s.tracker.pLast = some p ∧ s.tracker.stallLimit = some limit
          ∧ d = stallAdvance s p limit)
      ∨ ∃ p, i = .syntheticStep ∧ s.tracker.state = .deadReckoning ∧ s.tracker.pLast = some p ∧ d = syntheticAdvance s p) :
    ∃ w, Prepared s d x w ∧ Plain s d ∧ exec i s = .next (w.finished d) := by
  rcases h with ⟨us, rfl, ⟨h, rfl⟩ | ⟨h, rfl⟩⟩ | ⟨p, limit, rfl, h, hp, hl, rfl⟩ | ⟨p, rfl, h, hp, rfl⟩
  · exact ⟨_, prepared_realAdvance ht us, plain_realAdvance h us, congrArg Host.Outcome.next (State.realStep_tracking h us)⟩
  · exact ⟨_, prepared_returnAdvance ht h, plain_returnAdvance s, congrArg Host.Outcome.next (State.realStep_reckoning h us)⟩
  · exact ⟨_, prepared_stallAdvance ht h p limit, plain_stallAdvance s p limit,
      congrArg Host.Outcome.next (State.stall_known h hp hl)⟩
  · exact ⟨_, prepared_syntheticAdvance ht p, plain_syntheticAdvance h p, congrArg Host.Outcome.next (State.syntheticStep_known h hp)⟩

/-- A command whose position change saturates z (R96, R98). -/
theorem Prepared.saturates {s w : State} {d : Advance} {x : Tube} (h : Prepared s d x w) (hp : Plain s d) (hg : s.gauge = .measuring)
    (ht : s.tube = some x) (hlong : ¬d.Overlong s) (hz : 67108863 ≤ s.tracker.z + d.steps * s.cfg.encStep) :
    let t := w.finished d
    t.gauge = .measuring ∧ t.tracker.state = .lost ∧ t.tracker.z = 67108863
      ∧ t.attnCause &&& causeTrack = causeTrack ∧ memRead t.mem stTracking = 3#16 := by
  intro t
  obtain ⟨horder, hwz, -, hcfg, hgauge⟩ := h.kept hp ht
  have hnot : w.tracker.state ≠ .lost := by
    rw [h.state]
    rcases hp.state with hs | hs <;> rw [hs] <;> exact TrackState.noConfusion
  have hmax : d.z s = 67108863 := Nat.min_eq_right hz
  have hafter : advanced w.tracker.z d.steps w.cfg.encStep = Config.zMax := by
    rw [hwz, hcfg]
    exact hmax
  have hend := State.positionChange_saturated (hgauge.trans hg) hnot d.steps d.synthetic hafter fun o ho hle =>
    hlong ⟨o, horder ▸ ho, by rw [hmax]; exact hle⟩
  have ht : t = w.positionChange d.steps d.synthetic := by
    simp only [t, State.finished]
    exact if_neg fun hc => TrackState.noConfusion (hend.2.1.symm.trans hc.2)
  rw [ht]
  exact hend

/-- Settles O38: the move first, then the overlength judgement or the end of z's range. -/
theorem positionChangeEndsMeasuringOrSaturates : Obligations.PositionChangeEndsMeasuringOrSaturates := by
  refine ⟨fun s us h hg => ?_, fun s i d x hg ht hz hd => ?_⟩
  · have hstep : exec (.realStep us) s = .next ((s.measure us).restartStall.positionChange 1 false) :=
      congrArg Host.Outcome.next (by rw [State.realStep, h])
    obtain ⟨hm, -⟩ := s.measure_gives us
    generalize hw : (s.measure us).restartStall = w at hstep
    have hkept : w.gauge = s.gauge ∧ w.tracker.z = s.tracker.z ∧ w.tracker.state = s.tracker.state ∧ w.cfg = s.cfg
        ∧ w.tubeOrder = s.tubeOrder ∧ w.tube = s.tube ∧ w.inFlight = s.inFlight := by
      rw [← hw]
      generalize s.measure us = m at hm
      rw [hm]
      exact ⟨rfl, rfl, rfl, rfl, rfl, rfl, rfl⟩
    obtain ⟨hwg, hwz, hws, hwc, hwo, hwt, hwf⟩ := hkept
    have hafter : advanced w.tracker.z 1 w.cfg.encStep = min (s.tracker.z + s.cfg.encStep) 67108863 := by
      rw [hwz, hwc, advanced, Nat.one_mul]
      rfl
    constructor
    · intro n x hn hx hlong hf
      obtain ⟨y, hgauge, hstate, hz, htube, hout⟩ := State.positionChange_overlong (hwg.trans hg) (hwo.trans hn) (hwt.trans hx)
        (by rw [hws, h]; exact TrackState.noConfusion) 1 false (hafter ▸ hlong) (hwf ▸ hf)
      exact ⟨_, y, hstep, hgauge, hstate, hz.trans hafter, htube, hout⟩
    · intro hn hz
      exact ⟨_, hstep, State.positionChange_saturated (hwg.trans hg) (by rw [hws, h]; exact TrackState.noConfusion) 1 false
        (hafter.trans (Nat.min_eq_right hz)) fun o ho => absurd (hwo.symm.trans ho) (by simp [hn])⟩
  · obtain ⟨w, hw, hp, hexec⟩ := exec_advance ht hd
    rw [hexec]
    refine ⟨fun hlong => ?_, fun hlong hsat => ⟨_, rfl, hw.saturates hp hg ht hlong hsat⟩⟩
    obtain ⟨hstate, hwords, hfin, hflight, hclosing⟩ := hw.ends hp hg ht hz hlong
    refine ⟨_, hstate, hwords, ?_⟩
    rw [hfin]
    split
    · rw [exec_closeCompletion]
    · next hf => rw [State.closeIfDrained_inFlight_ne (hflight ▸ hf)]

end Sys2Proof.Machine
end

section
/-! PROOFS. The crossing of one boundary where no section leaves the holdback queue (R108 to R111, R130). -/

namespace Sys2Proof.Machine

open Safety

/-- Every section of a list lies less than tail_skip behind `z`, so that a release pass leaves it in the queue (R130). -/
def Stays (r : Recipe) (z : Nat) (ys : List SectionResult) : Prop := ∀ y ∈ ys, z < y.endZ + r.tailSkip

theorem stays_append {r : Recipe} {z : Nat} {xs ys : List SectionResult} : Stays r z (xs ++ ys) ↔ Stays r z xs ∧ Stays r z ys := by
  simp only [Stays, List.forall_mem_append]

theorem stays_result {r : Recipe} {z : Nat} {a : Accum} {f : Word} (h : z < (a.index + 1) * r.lSec + r.tailSkip) :
    Stays r z [resultOf r a f] := by
  simpa only [Stays, List.forall_mem_singleton, resultOf_endZ] using h

theorem State.tubeOrder_withTube {s : State} {x y : Tube} (ht : s.tube = some x) (h : y.order = x.order) :
    ({ s with tube := some y } : State).tubeOrder = s.tubeOrder := by
  simp only [State.tubeOrder, State.orderInUse, ht, Option.bind_some, h]

/-- A release pass over sections that stay changes nothing (R130). -/
theorem State.releasePass_stays {s : State} {x : Tube} {n : Snapshot} (ht : s.tube = some x) (hn : s.tubeOrder = some n)
    (hz : x.zTail = none) (h : Stays n.recipe s.tracker.z x.holdback) : s.releasePass = s := by
  have hpass : s.passZ = s.tracker.z := by rw [State.passZ, ht, Option.bind_some, hz]; rfl
  have hskip : s.tailSkip = n.recipe.tailSkip := by rw [State.tailSkip, hn]; rfl
  have hheld : s.held = x.holdback := by rw [State.held, ht]; rfl
  have hfront : ∀ y ∈ x.holdback.head?, decide (y.endZ + s.tailSkip ≤ s.passZ) = false := fun y hy => by
    have := h y (List.mem_of_mem_head? hy)
    rw [hpass, hskip]
    exact decide_eq_false (by omega)
  unfold State.releasePass
  dsimp only
  rw [hheld]
  cases hx : x.holdback with
  | nil =>
    have hsame : ({ x with holdback := [] } : Tube) = x := by rw [← hx]
    simp only [State.modTube, ht, hx, Option.map_some, List.dropWhile_nil, List.takeWhile_nil, State.writeSections, hsame]
    rw [← ht]
  | cons y ys =>
    have hstays := hfront y (by rw [hx]; rfl)
    have hsame : ({ x with holdback := y :: ys } : Tube) = x := by rw [← hx]
    simp only [State.modTube, ht, hx, Option.map_some, List.dropWhile_cons, List.takeWhile_cons, hstays, Bool.false_eq_true, if_false,
      State.writeSections, hsame]
    rw [← ht]

theorem State.completeSection_stays {s : State} {x : Tube} {n : Snapshot} (ht : s.tube = some x) (hn : s.tubeOrder = some n)
    (hz : x.zTail = none) (c : Accum) (f : Word) (h : Stays n.recipe s.tracker.z (x.holdback ++ [resultOf n.recipe c f])) :
    s.completeSection c f = { s with tube := some (withHeld x (resultOf n.recipe c f)) } := by
  rw [State.completeSection, State.appendHeld_eq ht hn]
  exact State.releasePass_stays (x := withHeld x (resultOf n.recipe c f)) (n := n) rfl ((State.tubeOrder_withTube ht rfl).trans hn) hz h

theorem State.forceClosing_stays {s : State} {x : Tube} {n : Snapshot} (ht : s.tube = some x) (hn : s.tubeOrder = some n)
    (hz : x.zTail = none) (h : Stays n.recipe s.tracker.z (forcedTube s n.recipe x).holdback) :
    s.forceClosing = { s with tube := some (forcedTube s n.recipe x) } := by
  unfold State.forceClosing
  rw [ht, Option.bind_some]
  cases hc : x.closing with
  | none =>
    have hsame : forcedTube s n.recipe x = x := by
      simp only [forcedTube, hc, Option.toList_none, List.map_nil, List.append_nil]
      rw [← hc]
    rw [hsame, ← ht]
  | some c =>
    have hforced : forcedTube s n.recipe x
        = withHeld { x with closing := none } (resultOf n.recipe c (if stampedFor s c.index then sfLate else 0#16)) := by
      simp only [forcedTube, hc, withHeld, Option.toList_some, List.map_cons, List.map_nil]
    have hopen : s.modTube (fun t => { t with closing := none }) = { s with tube := some { x with closing := none } } := by
      rw [State.modTube, ht, Option.map_some]
    rw [hforced] at h ⊢
    dsimp only
    rw [hopen, State.flightFor_eq]
    exact State.completeSection_stays (s := { s with tube := some { x with closing := none } }) (x := { x with closing := none }) rfl
       ((State.tubeOrder_withTube ht rfl).trans hn) hz c _ h

theorem crossEnd_of_forced {s : State} {r : Recipe} {mark : Word} {x : Tube} {a : Accum} (ha : x.opened = some a) :
    crossEnd s r mark x =
      if stampedFor s a.index then
        { forcedTube s r x with
          opened := some (newAccum (a.index + 1) mark), closing := some { a with flags := a.flags ||| mark } }
      else withHeld { forcedTube s r x with opened := some (newAccum (a.index + 1) mark) }
        (resultOf r { a with flags := a.flags ||| mark } 0#16) := by
  unfold crossEnd forcedTube
  rw [ha]
  dsimp only
  split <;> rfl

/-- The crossing of one boundary where no section leaves the queue (R108, R110). -/
theorem State.crossOne_stays {s : State} {x : Tube} {n : Snapshot} {a : Accum} (ht : s.tube = some x) (hn : s.tubeOrder = some n)
    (hz : x.zTail = none) (ha : x.opened = some a) (mark : Word)
    (h : Stays n.recipe s.tracker.z (crossEnd s n.recipe mark x).holdback) :
    s.crossOne a mark = { s with tube := some (crossEnd s n.recipe mark x) } := by
  have hforced : (forcedTube s n.recipe x).zTail = none ∧ (forcedTube s n.recipe x).order = x.order := ⟨hz, rfl⟩
  rw [crossEnd_of_forced ha] at h ⊢
  have hfirst : Stays n.recipe s.tracker.z (forcedTube s n.recipe x).holdback := by
    split at h
    · exact h
    · exact (stays_append.1 h).1
  unfold State.crossOne
  rw [State.forceClosing_stays ht hn hz hfirst]
  have hflight : ({ s with tube := some (forcedTube s n.recipe x) } : State).flightFor a.index = stampedFor s a.index :=
    State.flightFor_eq _ _
  dsimp only
  rw [hflight]
  split
  · next hs =>
    rw [if_pos hs] at h
    rfl
  · next hs =>
    rw [if_neg hs] at h
    refine State.completeSection_stays (s := { s with tube := some { forcedTube s n.recipe x with
      opened := some (newAccum (a.index + 1) mark) } }) (x := { forcedTube s n.recipe x with
      opened := some (newAccum (a.index + 1) mark) }) rfl ((State.tubeOrder_withTube ht hforced.2).trans hn) hforced.1 _ _ h

/-- A step shorter than a section that crosses a boundary crosses one (R111). -/
theorem one_boundary {l z0 z i : Nat} (hstep : z < z0 + l) (hbefore : z0 < (i + 1) * l) (hafter : (i + 1) * l ≤ z) :
    z / l - z0 / l = 1 := by
  have hl : 0 < l := by
    rcases Nat.eq_zero_or_pos l with h | h
    · subst h; omega
    · exact h
  have h1 : (i + 1) * l = i * l + l := by ring
  have h2 : (i + 1 + 1) * l = i * l + l + l := by ring
  have hz : z / l = i + 1 := Nat.div_eq_of_lt_le hafter (by omega)
  have hz0 : z0 / l = i := Nat.div_eq_of_lt_le (by omega) hbefore
  omega

/-- A real step that crosses one boundary, with all sections to stay in the queue (R108, R110, R111). -/
theorem exec_realStep_crosses {s : State} {x : Tube} {n : Snapshot} {a : Accum} (hs : s.tracker.state = .tracking)
    (ht : s.tube = some x) (hn : s.tubeOrder = some n) (hz : x.zTail = none) (ha : x.opened = some a)
    (hshort : s.cfg.encStep < n.recipe.lSec) (hbefore : s.tracker.z < (a.index + 1) * n.recipe.lSec)
    (hafter : (a.index + 1) * n.recipe.lSec ≤ s.tracker.z + s.cfg.encStep) (hlong : s.tracker.z + s.cfg.encStep < n.recipe.maxLen)
    (hmax : s.tracker.z + s.cfg.encStep < 67108863) (us : Nat)
    (h : Stays n.recipe (s.tracker.z + s.cfg.encStep) (crossEnd s n.recipe 0#16 x).holdback) :
    ∃ t, exec (.realStep us) s = .next t ∧ t.tube = some (crossEnd s n.recipe 0#16 x) := by
  have hstep : s.realStep us = (s.measure us).restartStall.positionChange 1 false := by rw [State.realStep, hs]
  obtain ⟨hm, -⟩ := s.measure_gives us
  generalize hw : (s.measure us).restartStall = w at hstep
  have hkept : w.tracker.z = s.tracker.z ∧ w.cfg = s.cfg ∧ w.tubeOrder = s.tubeOrder ∧ w.tube = s.tube ∧ w.inFlight = s.inFlight := by
    rw [← hw]
    generalize s.measure us = m at hm
    rw [hm]
    exact ⟨rfl, rfl, rfl, rfl, rfl⟩
  obtain ⟨hwz, hwc, hwo, hwt, hwf⟩ := hkept
  have hz' : advanced w.tracker.z 1 w.cfg.encStep = s.tracker.z + s.cfg.encStep := by
    rw [hwz, hwc, advanced, Nat.one_mul]
    exact Nat.min_eq_left (Nat.le_of_lt hmax)
  generalize hv : w.setZ (s.tracker.z + s.cfg.encStep) = v
  have hvt : v.tube = some x := by rw [← hv]; exact hwt.trans ht
  have hvn : v.tubeOrder = some n := by rw [← hv]; exact hwo.trans hn
  have hvz : v.tracker.z = s.tracker.z + s.cfg.encStep := by rw [← hv]; rfl
  have hvl : v.lSec = n.recipe.lSec := by rw [State.lSec, hvn]; rfl
  have hsame : crossEnd v n.recipe 0#16 x = crossEnd s n.recipe 0#16 x := by
    have hvf : v.inFlight = s.inFlight := by rw [← hv]; exact hwf
    exact crossEnds_congr hvf n.recipe 0#16 1 x
  have hcross := State.crossOne_stays hvt hvn hz ha 0#16 (by rw [hvz, hsame]; exact h)
  rw [hsame] at hcross
  obtain ⟨-, horder, htail⟩ := crossEnd_kept s n.recipe 0#16 x
  generalize hu : ({ v with tube := some (crossEnd s n.recipe 0#16 x) } : State) = u at hcross
  have huo : u.tubeOrder = some n := by
    rw [← hu]
    exact (State.tubeOrder_withTube hvt horder).trans hvn
  have hut : u.tube = some (crossEnd s n.recipe 0#16 x) := by rw [← hu]
  have huz : u.tracker.z = s.tracker.z + s.cfg.encStep := by rw [← hu]; exact hvz
  have hchange : v.takeChange false s.tracker.z (s.tracker.z + s.cfg.encStep) = u := by
    have hone := one_boundary (i := a.index) (by omega) hbefore hafter
    simp only [State.takeChange, hvl, hone, State.crossings, hvt, Option.bind_some, ha]
    rw [if_pos ⟨hbefore, hafter⟩]
    have hmark : flagIf false sfEstimated = 0#16 := rfl
    rw [hmark, hcross]
    exact State.releasePass_stays hut huo (htail.trans hz) (by rw [huz]; exact h)
  have hover : u.overlong = false := by
    unfold State.overlong
    rw [huo, huz]
    simp [hlong]
  have hjudged : u.judgeLength = u := by rw [State.judgeLength, hover]; exact if_neg Bool.false_ne_true
  refine ⟨u, congrArg Host.Outcome.next ?_, hut⟩
  rw [hstep]
  unfold State.positionChange
  dsimp only
  rw [hz', hv, hwz, hchange, hjudged]
  exact if_neg fun hc => Nat.ne_of_lt hmax hc.1

/-- Settles O47: one boundary is crossed, and nothing leaves the queue. -/
theorem crossingClosesAndOpensSections : Obligations.CrossingClosesAndOpensSections := by
  intro s us x j n a _ hs ht ho hsnap htail ha hheld z r hshort hbefore hafter hlong hmax result stamped
  have hn : s.tubeOrder = some n := by
    simp only [State.tubeOrder, State.orderInUse, ht, Option.bind_some, ho, hsnap]
  have hresult : ∀ b f, result b f = resultOf r b f := markHead_completeAccum r
  have hstamped : ∀ i, stamped i ↔ stampedFor s i = true := fun i => by
    simp only [stamped, stampedFor]
    cases s.inFlight <;> simp
  have hunmarked : ({ a with flags := a.flags ||| 0#16 } : Accum) = a := by rw [BitVec.or_zero]
  refine ⟨fun hc hst => ?_, fun hc hst hwait => ?_, fun c hc hci hst hwait => ?_⟩
  · have hcrossed : crossEnd s r 0#16 x = { x with opened := some (newAccum (a.index + 1) 0#16), closing := some a } := by
      simp only [crossEnd, ha, hc, (hstamped _).1 hst, if_true, hunmarked, Option.toList_none, List.map_nil, List.append_nil]
    obtain ⟨t, hexec, htube⟩ := exec_realStep_crosses hs ht hn htail ha hshort hbefore hafter hlong hmax us (by
      rw [hcrossed, hheld]
      exact fun y hy => absurd hy List.not_mem_nil)
    exact ⟨t, _, hexec, htube.trans (congrArg some hcrossed), rfl, rfl, hheld⟩
  · have hcrossed : crossEnd s r 0#16 x
        = { x with opened := some (newAccum (a.index + 1) 0#16), closing := none, holdback := [resultOf r a 0#16] } := by
      have hno : stampedFor s a.index = false := Bool.eq_false_iff.2 fun h => hst ((hstamped _).2 h)
      simp [crossEnd, ha, hc, hno, hheld]
    obtain ⟨t, hexec, htube⟩ := exec_realStep_crosses hs ht hn htail ha hshort hbefore hafter hlong hmax us (by
      rw [hcrossed]
      exact stays_result hwait)
    exact ⟨t, _, hexec, htube.trans (congrArg some hcrossed), rfl, rfl, by rw [hresult]⟩
  · have hno : stampedFor s a.index = false := by
      obtain ⟨p, hp, hi⟩ := hst
      simp only [stampedFor, hp]
      simp
      omega
    have hcrossed : crossEnd s r 0#16 x
        = { x with
            opened := some (newAccum (a.index + 1) 0#16), closing := none
            holdback := [resultOf r c sfLate] ++ [resultOf r a 0#16] } := by
      simp [crossEnd, ha, hc, hno, hheld, (hstamped _).1 hst]
    have hlater : (c.index + 1) * r.lSec ≤ (a.index + 1) * r.lSec := Nat.mul_le_mul_right _ (by omega)
    have hlast : z < (a.index + 1) * r.lSec + r.tailSkip := by omega
    obtain ⟨t, hexec, htube⟩ := exec_realStep_crosses hs ht hn htail ha hshort hbefore hafter hlong hmax us (by
      rw [hcrossed]
      exact stays_append.2 ⟨stays_result hwait, stays_result hlast⟩)
    exact ⟨t, _, hexec, htube.trans (congrArg some hcrossed), rfl, rfl, by rw [hresult, hresult]; rfl⟩

end Sys2Proof.Machine
end

section
/-! PROOFS. The filtered edges of PRESENT, and the head event but for the order manager (R90, R120 to R127). -/

namespace Sys2Proof.Machine

open Safety

/-! ### The filtered edges (R121, R127) -/

/-- Settles O43. -/
theorem tailAndPresenceEdges : Obligations.TailAndPresenceEdges := by
  intro s
  refine ⟨fun hg => ?_, fun hg => ?_, fun high hg => ?_, fun high hg => ?_⟩
  · generalize hv : ({ s with pins := { s.pins with present := false }, presence := { level := false, run := 0 } } : State) = v
    have hexec : exec .tailEvent s = .next (v.endMeasuring none).closeIfDrained := by
      refine congrArg Host.Outcome.next ?_
      have hrun : runs s.gauge = true := by rw [hg]; rfl
      unfold State.filteredEdge
      rw [if_pos hrun, hv]
      have hvg : v.gauge = .measuring := by rw [← hv]; exact hg
      unfold State.takeEdge
      rw [hvg]
      rfl
    have hflight : (v.endMeasuring none).inFlight = s.inFlight := State.inFlight_congr (by rw [← hv]; rfl)
    have heq := v.endMeasuring_eq none
    refine ⟨v.endMeasuring none, ?_, ?_, ?_⟩
    · refine heq.trans ?_
      generalize (v.endMeasuring none).mem = m
      rw [← hv]
      rfl
    · have hwords := v.endMeasuring_wrote none
      rw [← hv] at hwords ⊢
      exact hwords.of_mem (s' := s) rfl rfl
    · rw [hexec]
      split
      · rw [exec_closeCompletion]
      · next hf => rw [State.closeIfDrained_inFlight_ne (hflight ▸ hf)]
  · generalize hv : ({ s with pins := { s.pins with present := false }, presence := { level := false, run := 0 } } : State) = v
    have hedge : s.filteredEdge false = v.setGauge .armed := by
      have hrun : runs s.gauge = true := by rw [hg]; rfl
      unfold State.filteredEdge
      rw [if_pos hrun, hv]
      have hvg : v.gauge = .waitClear := by rw [← hv]; exact hg
      unfold State.takeEdge
      rw [hvg]
    refine ⟨v.setGauge .armed, congrArg Host.Outcome.next hedge, ?_, ?_⟩
    · rw [← hv]
      rfl
    · exact (v.setGauge_wrote .armed).of_mem (by rw [← hv]) rfl
  · refine congrArg Host.Outcome.next ?_
    have hrun : runs s.gauge = true := by rw [hg]; rfl
    unfold State.filteredEdge State.takeEdge
    rw [if_pos hrun, hg]
  · refine congrArg Host.Outcome.next (if_neg ?_)
    rcases hg with hg | hg <;> rw [hg] <;> exact Bool.false_ne_true

/-! ### The record of a tube (R122, R123) -/

/-- The search finds the first FREE record from the next-search index upward (R123). -/
theorem State.findRecord_first {s : State} {d : Nat} {r : RecNo} (hd : d < 16) (hr : r.val = (s.nextSearch.val + d) % 16)
    (hfree : s.records[r] = .free)
    (hbusy : ∀ (i : Nat) (q : RecNo), i < d → q.val = (s.nextSearch.val + i) % 16 → s.records[q] ≠ .free) : s.findRecord = some r := by
  refine List.find?_eq_some_iff_getElem.2 ⟨by simpa using hfree, d, by simpa using hd, ?_, fun i hi => ?_⟩
  · refine Fin.ext ?_
    simp [Fin.val_add, hr]
  · have := hbusy i (s.nextSearch + ⟨i, by omega⟩) hi (by simp [Fin.val_add])
    simpa using this

theorem State.findRecord_none {s : State} (h : ∀ r : RecNo, s.records[r] ≠ .free) : s.findRecord = none :=
  List.find?_eq_none.2 fun r _ => by simpa using h r

theorem State.findRecord_isSome {s : State} (h : ∃ r : RecNo, s.records[r] = .free) : ∃ r, s.findRecord = some r := by
  obtain ⟨r, hr⟩ := h
  refine Option.isSome_iff_exists.1 (List.find?_isSome.2 ⟨r, List.mem_map.2 ⟨r - s.nextSearch, List.mem_finRange _, ?_⟩, by simpa using hr⟩)
  exact add_sub_cancel _ _

/-! ### The start of a tube (R90, R124) -/

/-- The tracker at the start of a tube (R90). -/
def startedTracker (s : State) : Tracker :=
  { s.tracker with
    state := .tracking, z := 0, pLast := none, fresh := false, episode := 0, stallLimit := some (1000 * s.cfg.stallMin), stallAt := s.now }

theorem State.startTracking_gives (s : State) :
    s.startTracking = { s with mem := s.startTracking.mem, tracker := startedTracker s }
      ∧ Wrote s s.startTracking [(stTracking, 1#16), (stSpeed, 0#16), (stPosition, 0#16)] := by
  refine ⟨rfl, ?_⟩
  have hposition := wrote_put ({ s with tracker := startedTracker s } : State) stPosition 0#16 (by decide)
  have hspeed := wrote_put (({ s with tracker := startedTracker s } : State).put stPosition 0#16) stSpeed 0#16 (by decide)
  have htracking := wrote_put ((({ s with tracker := startedTracker s } : State).put stPosition 0#16).put stSpeed 0#16) stTracking 1#16
    (by decide)
  exact ((hposition.trans hspeed).trans htracking).of_mem rfl rfl

/-- Step 4 of R124: record `r` is OPEN, the gauge MEASURING and the tracker started. -/
def State.begun (s : State) (r : RecNo) : State := ((s.setRecState r .opened).setGauge .measuring).startTracking

/-- The words with which a tube of record `r` begins. -/
def begunWords (r : RecNo) : List (Nat × Word) :=
  [(stGauge, 3#16), (stPosition, 0#16), (stSpeed, 0#16), (stTracking, 1#16), (recAddr r 0, 1#16)]

theorem recAddr_zero_le (r : RecNo) : 0x0A00 ≤ recAddr r 0 := by
  simp only [recAddr, Config.recordBase]
  omega

theorem begunWords_nodup (r : RecNo) : ((begunWords r).map Prod.fst).Nodup := by
  have h := recAddr_zero_le r
  simp only [begunWords, List.map_cons, List.map_nil, stGauge, stPosition, stSpeed, stTracking, List.nodup_cons, List.mem_cons,
    List.not_mem_nil, or_false, not_or, not_false_eq_true, List.nodup_nil, and_true]
  omega

theorem State.begun_gives (s : State) (r : RecNo) :
    s.begun r = { s with
        mem := (s.begun r).mem, gauge := .measuring, records := vset s.records r .opened, tracker := startedTracker s }
      ∧ Wrote s (s.begun r) (begunWords r) := by
  refine ⟨rfl, ?_⟩
  have hrec := s.setRecState_wrote r .opened
  have hgauge := (s.setRecState r .opened).setGauge_wrote .measuring
  obtain ⟨-, htracking⟩ := ((s.setRecState r .opened).setGauge .measuring).startTracking_gives
  refine ((hrec.trans hgauge).trans htracking).congr fun a _ => lookup_eq_of_perm ?_ (begunWords_nodup r) a
  exact (List.reverse_perm [(stTracking, 1#16), (stSpeed, 0#16), (stPosition, 0#16), (stGauge, 3#16)]).append_right [(recAddr r 0, 1#16)]

/-- Step 1 of R124: the words that it writes. -/
def clearedWords (r : RecNo) (serial : Nat) : List (Nat × Word) :=
  wordsAt (recAddr r 2) ([0#16, BitVec.ofNat 16 serial] ++ List.replicate 6 0#16 ++ [0xFFFF#16] ++ List.replicate 117 0#16)

theorem recAddr_run (r : RecNo) (off n : Nat) (h : off + n ≤ 128) : recAddr r off + n ≤ 65536 := by
  have := r.isLt
  simp only [recAddr, Config.recordBase, Config.recordWords]
  omega

theorem State.put_putList_self (s : State) (a b : Nat) (v : Word) (vs : List Word) :
    (s.put a v).putList b vs = { s with mem := ((s.put a v).putList b vs).mem } := rfl

theorem State.clearRecord_gives (s : State) (r : RecNo) :
    s.clearRecord r = { s with mem := (s.clearRecord r).mem }
      ∧ Wrote s (s.clearRecord r) (clearedWords r s.serial ++ [(recAddr r 0, 0#16)]) := by
  refine ⟨s.put_putList_self _ _ _ _, ?_⟩
  have hfirst := wrote_put s (recAddr r 0) 0#16 (recAddr_lt r 0 (by decide))
  exact hfirst.trans (wrote_putList _ (recAddr r 2) _ (recAddr_run r 2 126 (by decide)))

/-- Words written over a run of words. -/
theorem lookup_overlay {b k : Nat} {xs ys : List Word} (h : k + ys.length ≤ xs.length) (a : Nat) :
    (wordsAt (b + k) ys ++ wordsAt b xs).lookup a = (wordsAt b (xs.take k ++ ys ++ xs.drop (k + ys.length))).lookup a := by
  have hlen : (xs.take k ++ ys ++ xs.drop (k + ys.length)).length = xs.length := by
    simp only [List.length_append, List.length_take, List.length_drop]
    omega
  rw [lookup_append, lookup_wordsAt, lookup_wordsAt, lookup_wordsAt, hlen]
  by_cases ha : b ≤ a ∧ a < b + xs.length
  · simp only [if_pos ha]
    have hk : (xs.take k).length = k := by rw [List.length_take]; omega
    by_cases hy : b + k ≤ a ∧ a < b + k + ys.length
    · rw [if_pos hy, Option.some_or]
      congr 1
      rw [List.getD_append _ _ _ _ (by rw [List.length_append, hk]; omega), List.getD_append_right _ _ _ _ (by omega), hk]
      congr 1
      omega
    · rw [if_neg hy, Option.none_or]
      congr 1
      by_cases hlow : a < b + k
      · rw [List.append_assoc, List.getD_append _ _ _ _ (by omega), List.getD_eq_getElem?_getD, List.getD_eq_getElem?_getD,
          List.getElem?_take_of_lt (by omega)]
      · rw [List.getD_append_right _ _ _ _ (by rw [List.length_append, hk]; omega), List.getD_eq_getElem?_getD,
          List.getD_eq_getElem?_getD, List.getElem?_drop, List.length_append, hk]
        congr 2
        omega
  · simp only [if_neg ha]
    rw [if_neg fun hc => ha ⟨by omega, by omega⟩]
    rfl

/-- A word that is written over is not seen. -/
theorem lookup_covered {X Y : List (Nat × Word)} {b : Nat} {v : Word} (h : (X.lookup b).isSome = true) (a : Nat) :
    (X ++ (Y ++ [(b, v)])).lookup a = (X ++ Y).lookup a := by
  rw [lookup_append, lookup_append, lookup_append, lookup_single]
  by_cases ha : a = b
  · obtain ⟨w, hw⟩ := Option.isSome_iff_exists.1 h
    rw [ha, hw]
    rfl
  · rw [if_neg ha, Option.or_none]

theorem begunWords_record (r : RecNo) : ((begunWords r).lookup (recAddr r 0)).isSome = true := by
  have h := recAddr_zero_le r
  simp only [List.lookup_isSome_iff]
  exact ⟨(recAddr r 0, 1#16), by simp [begunWords], by simp⟩

/-! ### A head event without an order or without a record (R123, R125, R146) -/

/-- The part as the edge reaches it, the serial counted (R120, R122). -/
def State.arrived (s : State) : State :=
  { s with
    pins := { s.pins with present := true }, presence := { level := true, run := 0 }
    serial := if s.serial < 65535 then s.serial + 1 else 1 }

theorem exec_headEvent {s : State} (hg : s.gauge = .armed) :
    exec .headEvent s = .next (match s.arrived.findRecord with
      | some r => s.arrived.openRecord r
      | none => s.arrived.missTube) := by
  refine congrArg Host.Outcome.next ?_
  have hrun : runs s.gauge = true := by rw [hg]; rfl
  generalize hv : ({ s with pins := { s.pins with present := true }, presence := { level := true, run := 0 } } : State) = v
  have hvg : v.gauge = .armed := by rw [← hv]; exact hg
  unfold State.filteredEdge
  rw [if_pos hrun, hv]
  unfold State.takeEdge
  rw [hvg]
  have harrived : s.arrived = { v with serial := nextSerial v.serial } := by rw [← hv]; rfl
  rw [harrived]
  rfl

/-- Step 1 of R124, with the next-search index (R123). -/
def State.cleared (s : State) (r : RecNo) : State := ({ s with nextSearch := r + 1 } : State).clearRecord r

theorem State.openRecord_eq (s : State) (r : RecNo) : s.openRecord r = ((s.cleared r).giveOrder r).begun r := rfl

/-- Step 3 of R124 for a tube without an order. -/
theorem State.openWithout_gives (s : State) (r : RecNo) :
    s.openWithout r = { s with
        mem := (s.openWithout r).mem
        tube := some (newTube (some r) none s.serial .noOrder (if s.firing = .suspended then tfPermitLost else 0#16) none) }
      ∧ Wrote s (s.openWithout r) (wordsAt (recAddr r 2 + 2) [0xFFFF#16]) := by
  have hflag : flagIf (s.firing = .suspended) tfPermitLost = if s.firing = .suspended then tfPermitLost else 0#16 := by
    simp only [flagIf, decide_eq_true_eq]
  refine ⟨?_, (wrote_put s (recAddr r 4) 0xFFFF#16 (recAddr_lt r 4 (by decide))).of_mem rfl rfl⟩
  rw [← hflag]
  rfl

theorem State.missTube_wrote (s : State) :
    Wrote s s.missTube ([(stGauge, 3#16), (stPosition, 0#16), (stSpeed, 0#16), (stTracking, 1#16)]
      ++ ifChanged (s.tubesMissed ≠ min (s.tubesMissed + 1) 65535) stMissed (BitVec.ofNat 16 (min (s.tubesMissed + 1) 65535))) := by
  have hmissed := wrote_putIf ({ s with tubesMissed := sat16 s.tubesMissed } : State) (s.tubesMissed ≠ sat16 s.tubesMissed) stMissed
    (toWord (sat16 s.tubesMissed)) (by decide)
  have hall : Wrote s s.missTube ([(stTracking, 1#16), (stSpeed, 0#16), (stPosition, 0#16)] ++ ([(stGauge, 3#16)]
      ++ ifChanged (s.tubesMissed ≠ sat16 s.tubesMissed) stMissed (toWord (sat16 s.tubesMissed)))) :=
    Wrote.trans (Wrote.trans (hmissed.of_mem rfl rfl) (State.setGauge_wrote _ .measuring)) (State.startTracking_gives _).2
  refine hall.congr fun a _ => ?_
  rw [← List.append_assoc, lookup_append, lookup_append]
  congr 1
  exact lookup_eq_of_perm (List.reverse_perm [(stTracking, 1#16), (stSpeed, 0#16), (stPosition, 0#16), (stGauge, 3#16)])
    (by decide) a

/-- A NO_ORDER tube: step 3 of R124 where no order is at hand (R146). -/
theorem State.giveOrder_none {s : State} (hc : s.current = none) (hq : s.queue = []) (r : RecNo) : s.giveOrder r = s.openWithout r := by
  have hyield : s.yieldLot = s := by rw [State.yieldLot, hc]
  have hpromote : s.promote = s := by rw [State.promote, hc, hq]
  have hhead : s.headAmend = s := by
    have : s.headAmendment = none := by rw [State.headAmendment, hc]; rfl
    rw [State.headAmend, this]
  have huse : s.useOrder = s := by rw [State.useOrder, hc]
  have hselect : s.selectOrder = s := by rw [State.selectOrder, State.selected, hyield, hpromote, hhead, huse]
  have hcurrent : s.currentOrder = none := by rw [State.currentOrder, hc]; rfl
  unfold State.giveOrder
  dsimp only
  rw [hselect, hcurrent]

/-- Settles O40. -/
theorem headEventWithoutOrderOrRecord : Obligations.HeadEventWithoutOrderOrRecord := by
  intro s hg serial tracker
  refine ⟨fun d r hd hr hfree hbusy hc hq => ?_, fun hbusy => ?_⟩
  · have hfind : s.arrived.findRecord = some r := State.findRecord_first hd hr hfree hbusy
    have hexec := exec_headEvent hg
    rw [hfind] at hexec
    obtain ⟨hcleared, hclearedWords⟩ := ({ s.arrived with nextSearch := r + 1 } : State).clearRecord_gives r
    generalize hu : (s.arrived.cleared r) = u at *
    have huc : ({ s.arrived with nextSearch := r + 1 } : State).clearRecord r = u := hu
    rw [huc] at hcleared hclearedWords
    have hgive : u.giveOrder r = u.openWithout r := State.giveOrder_none (by rw [hcleared]; exact hc) (by rw [hcleared]; exact hq) r
    obtain ⟨hbegun, hbegunWords⟩ := (u.openWithout r).begun_gives r
    obtain ⟨hopened, hopen⟩ := u.openWithout_gives r
    refine ⟨_, hexec, ?_, ?_⟩
    · dsimp only
      rw [State.openRecord_eq, hu, hgive]
      refine hbegun.trans ?_
      generalize ((u.openWithout r).begun r).mem = m
      generalize u.openWithout r = w at hopened
      rw [hopened, hcleared]
      rfl
    · dsimp only
      rw [State.openRecord_eq, hu, hgive]
      have hall := ((hclearedWords.of_mem (s' := s) rfl rfl).trans hopen).trans hbegunWords
      refine hall.congr fun a _ => ?_
      rw [← List.append_assoc (wordsAt _ _), lookup_covered (begunWords_record r), lookup_append, lookup_append (begunWords r)]
      unfold clearedWords
      rw [lookup_overlay (by simp)]
      rfl
  · have hfind : s.arrived.findRecord = none := State.findRecord_none hbusy
    have hexec := exec_headEvent hg
    rw [hfind] at hexec
    refine ⟨_, hexec, ?_, ?_⟩
    · rfl
    · exact (State.missTube_wrote s.arrived).of_mem rfl rfl

end Sys2Proof.Machine
end

section
/-! PROOFS. The order manager's answer to a head event, and the tube with an order (R38, R42, R102, R124, R144 to R148, R152). -/

namespace Sys2Proof.Machine

open Safety

/-! ### The steps of the selection (R146) -/

theorem State.yieldLot_stays {s : State} {j : SlotNo} (hc : s.current = some j) (h : s.openLot j = true → s.queue = []) :
    s.yieldLot = s := by
  unfold State.yieldLot
  rw [hc]
  refine if_neg fun hboth => ?_
  obtain ⟨hopen, hqueue⟩ := Bool.and_eq_true_iff.1 hboth
  rw [h hopen] at hqueue
  exact Bool.false_ne_true hqueue

theorem State.yieldLot_idle {s : State} (hc : s.current = none) : s.yieldLot = s := by
  rw [State.yieldLot, hc]

theorem State.promote_stays {s : State} {j : SlotNo} (hc : s.current = some j) : s.promote = s := by
  rw [State.promote, hc]

/-- The front of the queue becomes the current order (R145, R146). -/
theorem State.promote_gives {s : State} {j : SlotNo} {q : List SlotNo} (hc : s.current = none) (hq : s.queue = j :: q) :
    s.promote = { s with
        mem := s.promote.mem, slots := vset s.slots j { s.slots[j] with state := .active }, queue := q, current := some j }
      ∧ Wrote s s.promote ([(stCurrent, BitVec.ofNat 16 j.val)] ++ (queueWords q ++ [(slotAddr j 0, 2#16)])) := by
  generalize hp : s.promote = p
  unfold State.promote at hp
  rw [hc, hq] at hp
  dsimp only at hp
  generalize hv : ({ s.setSlot j { s.slots[j] with state := .active } with queue := q, current := some j } : State) = v at hp
  have hmem : v.mem = s.mem := by rw [← hv]; rfl
  have hstate : slotCode v.slots[j].state = 2#16 := by rw [← hv]; simp [State.setSlot, slotCode]
  have hqueue : (v.putSlotState j).queue = q := by rw [← hv]; rfl
  have hcurrent : slotWord (v.putSlotState j).putQueue.current = BitVec.ofNat 16 j.val := by rw [← hv]; rfl
  have hfirst : Wrote v (v.putSlotState j) [(slotAddr j 0, slotCode v.slots[j].state)] := wrote_put v _ _ (slotAddr_lt j 0 (by decide))
  have hsecond := (v.putSlotState j).putQueue_wrote
  have hthird : Wrote (v.putSlotState j).putQueue (v.putSlotState j).putQueue.putCurrent
      [(stCurrent, slotWord (v.putSlotState j).putQueue.current)] := wrote_put _ stCurrent _ (by decide)
  rw [hstate] at hfirst
  rw [hqueue] at hsecond
  rw [hcurrent] at hthird
  have hall := (hfirst.trans hsecond).trans hthird
  rw [hp] at hall
  refine ⟨?_, hall.of_mem hmem.symm rfl⟩
  rw [← hp, ← hv]
  rfl

theorem State.headAmend_stays {s : State} {j : SlotNo} (hc : s.current = some j) (ha : s.slots[j].amendment = none) :
    s.headAmendment = none ∧ s.headAmend = s := by
  have hnone : s.headAmendment = none := by rw [State.headAmendment, hc, Option.bind_some, ha]; rfl
  exact ⟨hnone, by rw [State.headAmend, hnone]⟩

/-- A pending amendment of the current order is applied and answered (R146, R152). -/
theorem State.headAmend_gives {s : State} {j : SlotNo} {y : Amendment} (hc : s.current = some j)
    (ha : s.slots[j].amendment = some y) :
    s.headAmendment.isSome = true
      ∧ s.headAmend = { s with
          mem := s.headAmend.mem, slots := vset s.slots j (amendedSlot s.slots[j] y), attnCause := s.attnCause ||| causeRequest }
      ∧ Wrote s s.headAmend [(slotAddr j 1, 0#16), (slotAddr j 2, 1#16)] := by
  have hsome : s.headAmendment = some (j, y) := by rw [State.headAmendment, hc, Option.bind_some, ha]; rfl
  have hhead : s.headAmend = (s.setSlot j (amendedSlot s.slots[j] y)).answerSlot j ansOk := by rw [State.headAmend, hsome]
  rw [hhead]
  exact ⟨by rw [hsome]; rfl, rfl, wrote_setSlot_answer s j (amendedSlot s.slots[j] y) ansOk⟩

/-- The tube takes the current order (R144, R146). -/
theorem State.useOrder_gives {s : State} {j : SlotNo} (hc : s.current = some j) :
    s.useOrder = { s with mem := s.useOrder.mem, slots := vset s.slots j (takeTube s.slots[j]) }
      ∧ Wrote s s.useOrder
        (ifChanged (s.slots[j].taken ≠ min (s.slots[j].taken + 1) 65535) (slotAddr j 4)
          (BitVec.ofNat 16 (min (s.slots[j].taken + 1) 65535))) := by
  have huse : s.useOrder = (s.setSlot j (takeTube s.slots[j])).putIf (s.slots[j].taken ≠ sat16 s.slots[j].taken) (slotAddr j 4)
      (toWord (sat16 s.slots[j].taken)) := by rw [State.useOrder, hc]
  rw [huse]
  exact ⟨rfl, (wrote_putIf _ _ _ _ (slotAddr_lt j 4 (by decide))).of_mem rfl rfl⟩

/-! ### The tube with its order (R124) -/

theorem settingsWords_length (n : Snapshot) : (settingsWords n).length = 34 := rfl

theorem State.faultIn_eq (s : State) (m : BitVec 4) :
    s.faultIn m = decide (∃ k : Head, inMask m k = true ∧ s.heads[k].state = .fault) := by
  refine Bool.eq_iff_iff.2 ?_
  simp [State.faultIn]

/-- The flags of a tube as its head event gives them (R27, R30, R106, R126, Table 8-2). -/
def headFlags (s : State) (n : Snapshot) (amended : Bool) : Word :=
  flagIf n.clamped tfWindowClamped ||| flagIf (s.faultIn n.recipe.headMask) tfHeadFault
    ||| flagIf (s.firing = .suspended) tfPermitLost ||| flagIf amended tfAmended

/-- The words of the order in a record, by their offsets (Table 11-7). -/
def orderWords (r : RecNo) (j : SlotNo) (taken : Nat) (n : Snapshot) : List (Nat × Word) :=
  wordsAt (recAddr r 2 + 52) (settingsWords n)
    ++ wordsAt (recAddr r 2 + 2) ([BitVec.ofNat 16 j.val, BitVec.ofNat 16 taken] ++ n.recipe.tag.toList)

theorem State.putOrder_gives (s : State) (r : RecNo) (j : SlotNo) (n : Snapshot) :
    s.putOrder r j n = { s with mem := (s.putOrder r j n).mem } ∧ Wrote s (s.putOrder r j n) (orderWords r j s.slots[j].taken n) := by
  refine ⟨rfl, ?_⟩
  have htag := wrote_putList s (recAddr r 4) ([toWord j.val, toWord s.slots[j].taken] ++ n.recipe.tag.toList)
    (recAddr_run r 4 _ (by simp))
  exact htag.trans (wrote_putList _ (recAddr r 54) (settingsWords n) (recAddr_run r 54 34 (by decide)))

theorem State.openWith_gives (s : State) (r : RecNo) (j : SlotNo) (n : Snapshot) (amended : Bool) :
    s.openWith r j n amended = { s with
        mem := (s.openWith r j n amended).mem, chans := Vector.ofFn fun k : Head => loadedChannel n.recipe s.chans[k]
        tube := some (newTube (some r) (some j) s.serial .normal (headFlags s n amended)
          (some (newAccum 0 (flagIf amended sfAmended)))) }
      ∧ Wrote s (s.openWith r j n amended)
        (((List.finRange 4).flatMap fun k => gainWord k s.chans[k] n.recipe.g0) ++ orderWords r j s.slots[j].taken n) := by
  have hopen : s.openWith r j n amended = { (s.putOrder r j n).loadChannels n.recipe with
      tube := some (newTube (some r) (some j) s.serial .normal (headFlags s n amended)
        (some (newAccum 0 (flagIf amended sfAmended)))) } := rfl
  obtain ⟨hput, hputWords⟩ := s.putOrder_gives r j n
  obtain ⟨hload, hloadWords⟩ := (s.putOrder r j n).loadChannels_gives n.recipe
  constructor
  · have hmem : (s.openWith r j n amended).mem = ((s.putOrder r j n).loadChannels n.recipe).mem := by rw [hopen]
    rw [hmem, hopen]
    generalize s.putOrder r j n = u at hput hload
    generalize u.loadChannels n.recipe = v at hload
    rw [hload, hput]
  · have hall := hputWords.trans hloadWords
    have hchans : (s.putOrder r j n).chans = s.chans := by rw [hput]
    rw [hchans] at hall
    rw [hopen]
    exact hall.of_mem rfl rfl

/-- A record is given the order that the selection leaves current (R124, R146). -/
theorem State.giveOrder_eq {s v : State} {j : SlotNo} {n : Snapshot} (hv : s.selectOrder = v) (hc : v.current = some j)
    (hn : v.slots[j].snapshot = some n) (r : RecNo) : s.giveOrder r = v.openWith r j n s.amendsAtHead := by
  have horder : v.currentOrder = some (j, n) := by rw [State.currentOrder, hc, Option.bind_some, hn]; rfl
  unfold State.giveOrder
  dsimp only
  rw [hv, horder]

/-! ### The words of a head event, in regions -/

/-- The addresses of record `r`. -/
def InRecord (r : RecNo) (a : Nat) : Prop := recAddr r 0 ≤ a ∧ a < recAddr r 0 + 128

theorem recAddr_eq (r : RecNo) (off : Nat) : recAddr r off = recAddr r 0 + off := rfl

theorem lookup_wordsAt_record {r : RecNo} {off : Nat} {vs : List Word} (h : off + vs.length ≤ 128) {a : Nat} (ha : ¬InRecord r a) :
    (wordsAt (recAddr r off) vs).lookup a = none := by
  rw [lookup_wordsAt, recAddr_eq]
  exact if_neg fun hc => ha ⟨by omega, by omega⟩

theorem lookup_orderWords {r : RecNo} {a : Nat} (ha : ¬InRecord r a) (j : SlotNo) (taken : Nat) (n : Snapshot) :
    (orderWords r j taken n).lookup a = none := by
  have h1 : (wordsAt (recAddr r 54) (settingsWords n)).lookup a = none := lookup_wordsAt_record (by simp [settingsWords_length]) ha
  have h2 : (wordsAt (recAddr r 4) ([BitVec.ofNat 16 j.val, BitVec.ofNat 16 taken] ++ n.recipe.tag.toList)).lookup a = none :=
    lookup_wordsAt_record (by simp) ha
  rw [orderWords, lookup_append]
  exact (congrArg₂ Option.or h1 h2)

theorem lookup_clearedWords {r : RecNo} {a : Nat} (ha : ¬InRecord r a) (serial : Nat) : (clearedWords r serial).lookup a = none :=
  lookup_wordsAt_record (by simp) ha

theorem splice_settings {front settings : List Word} (hf : front.length = 8) (hs : settings.length = 34) :
    (front ++ [0xFFFF#16] ++ List.replicate 117 0#16).take 52 ++ settings
        ++ (front ++ [0xFFFF#16] ++ List.replicate 117 0#16).drop (52 + settings.length)
      = front ++ [0xFFFF#16] ++ List.replicate 43 0#16 ++ settings ++ List.replicate 40 0#16 := by
  have htake : front.take 52 = front := List.take_of_length_le (by omega)
  have hdrop : front.drop 86 = [] := List.drop_eq_nil_of_le (by omega)
  simp only [hs, List.take_append, List.drop_append, List.length_append, hf, htake, hdrop, List.take_replicate, List.drop_replicate,
    List.length_singleton]
  rfl

/-- The whole record of a tube with an order, but for its state and its request word (Table 11-7). -/
theorem lookup_recordWords (r : RecNo) (serial : Nat) (j : SlotNo) (taken : Nat) (n : Snapshot) (a : Nat) :
    (orderWords r j taken n ++ clearedWords r serial).lookup a
      = (wordsAt (recAddr r 2) ([0#16, BitVec.ofNat 16 serial, BitVec.ofNat 16 j.val, BitVec.ofNat 16 taken]
          ++ n.recipe.tag.toList ++ [0xFFFF#16] ++ List.replicate 43 0#16 ++ settingsWords n ++ List.replicate 40 0#16)).lookup a := by
  have hinner : ∀ b, (wordsAt (recAddr r 2 + 2) ([BitVec.ofNat 16 j.val, BitVec.ofNat 16 taken] ++ n.recipe.tag.toList)
      ++ clearedWords r serial).lookup b
      = (wordsAt (recAddr r 2) ([0#16, BitVec.ofNat 16 serial, BitVec.ofNat 16 j.val, BitVec.ofNat 16 taken]
          ++ n.recipe.tag.toList ++ [0xFFFF#16] ++ List.replicate 117 0#16)).lookup b := fun b => by
    rw [clearedWords, lookup_overlay (by simp)]
    congr 2
    simp [List.replicate]
  rw [orderWords, List.append_assoc, lookup_append, hinner a, ← lookup_append,
    lookup_overlay (by simp [settingsWords_length]), splice_settings (by simp) (settingsWords_length n)]

end Sys2Proof.Machine
end

section
/-! PROOFS. Head events that give the tube an order (R38, R124, R144 to R148, R152, R153). -/

namespace Sys2Proof.Machine

open Safety

/-! ### The selection without an amendment (R146) -/

/-- The words with which the front of the queue becomes the current order (R145). -/
def promotedWords (promoted : Bool) (j : SlotNo) (q : List SlotNo) : List (Nat × Word) :=
  if promoted then [(slotAddr j 0, 2#16), (stCurrent, BitVec.ofNat 16 j.val)] ++ queueWords q else []

theorem slotAddr_range (j : SlotNo) {off : Nat} (h : off < 512) : 0x0200 ≤ slotAddr j off ∧ slotAddr j off < 0x0A00 := by
  have := j.isLt
  simp only [slotAddr, Config.slotBase, Config.slotWords]
  omega

theorem lookup_queueWords {a : Nat} (h : a < 7 ∨ 11 ≤ a) (q : List SlotNo) : (queueWords q).lookup a = none := by
  rw [queueWords, lookup_wordsAt]
  refine if_neg fun hc => ?_
  simp only [List.length_map, List.length_cons, List.length_nil] at hc
  omega

theorem lookup_promoted (j : SlotNo) (q : List SlotNo) (a : Nat) :
    ([(stCurrent, BitVec.ofNat 16 j.val)] ++ (queueWords q ++ [(slotAddr j 0, 2#16)])).lookup a = (promotedWords true j q).lookup a := by
  have hrange := slotAddr_range j (off := 0) (by decide)
  simp only [promotedWords, if_true]
  rw [lookup_append, lookup_append, lookup_append, lookup_single, lookup_single]
  have hpair : ([(slotAddr j 0, 2#16), (stCurrent, BitVec.ofNat 16 j.val)] : List (Nat × Word))
      = [(slotAddr j 0, 2#16)] ++ [(stCurrent, BitVec.ofNat 16 j.val)] := rfl
  rw [hpair, lookup_append, lookup_single, lookup_single]
  by_cases hs : a = slotAddr j 0
  · have hc : a ≠ stCurrent := by simp only [stCurrent]; omega
    rw [if_pos hs, if_neg hc, lookup_queueWords (by omega)]
    rfl
  · rw [if_neg hs, Option.or_none, Option.none_or]

/-- The order that the selection makes current, no lot yielding (R145, R146). -/
theorem State.selected_gives {s : State} {j : SlotNo} {q : List SlotNo} {n : Snapshot}
    (h : (s.current = some j ∧ s.slots[j].state = .active ∧ s.queue = q ∧ (n.recipe.lotCount = 0 → q = []))
      ∨ (s.current = none ∧ s.queue = j :: q))
    (hn : s.slots[j].snapshot = some n) :
    s.selected = { s with
        mem := s.selected.mem, slots := vset s.slots j { s.slots[j] with state := .active }, queue := q, current := some j }
      ∧ Wrote s s.selected (promotedWords s.current.isNone j q) := by
  rcases h with ⟨hc, hactive, hq, hlot⟩ | ⟨hc, hq⟩
  · have hopen : s.openLot j = true → s.queue = [] := fun ho => by
      rw [State.openLot, hn] at ho
      rw [hq]
      exact hlot (by simpa using ho)
    have hsame : s.selected = s := by
      rw [State.selected, State.yieldLot_stays hc hopen, State.promote_stays hc]
    have hslot : ({ s.slots[j] with state := .active } : OrderSlot) = s.slots[j] := by rw [← hactive]
    rw [hsame, hslot, vset_same, ← hq]
    refine ⟨by rw [← hc], ?_⟩
    rw [hc]
    exact wrote_nil s s rfl
  · have hsame : s.selected = s.promote := by rw [State.selected, State.yieldLot_idle hc]
    obtain ⟨hp, hw⟩ := State.promote_gives hc hq
    rw [hsame, hc]
    exact ⟨hp, hw.congr fun a _ => (lookup_promoted j q a).symm⟩

/-- Slot `j` with a tube more under the order `n` (R144). -/
def takenSlot (x : OrderSlot) (n : Snapshot) : OrderSlot :=
  let taken := min (x.taken + 1) 65535
  { x with
    state := .active, taken := taken
    finalTube := x.finalTube || decide (0 < n.recipe.lotCount ∧ taken = n.recipe.lotCount) }

theorem takeTube_active {x : OrderSlot} {n : Snapshot} (h : x.snapshot = some n) :
    takeTube { x with state := .active } = takenSlot x n := by
  simp only [takeTube, takenSlot, h, Option.map_some, Option.getD_some, Bool.decide_and, Bool.beq_eq_decide_eq]
  rfl

/-- The order in use at a head event without an amendment (R144 to R146). -/
theorem State.selectOrder_gives {s : State} {j : SlotNo} {q : List SlotNo} {n : Snapshot}
    (h : (s.current = some j ∧ s.slots[j].state = .active ∧ s.queue = q ∧ (n.recipe.lotCount = 0 → q = []))
      ∨ (s.current = none ∧ s.queue = j :: q))
    (hn : s.slots[j].snapshot = some n) (ha : s.slots[j].amendment = none) :
    s.amendsAtHead = false
      ∧ s.selectOrder = { s with
          mem := s.selectOrder.mem, slots := vset s.slots j (takenSlot s.slots[j] n), queue := q, current := some j }
      ∧ Wrote s s.selectOrder
        (ifChanged (s.slots[j].taken ≠ min (s.slots[j].taken + 1) 65535) (slotAddr j 4)
            (BitVec.ofNat 16 (min (s.slots[j].taken + 1) 65535))
          ++ promotedWords s.current.isNone j q) := by
  obtain ⟨hp, hw⟩ := State.selected_gives h hn
  generalize hsel : s.selected = p at hp hw
  have hcurrent : p.current = some j := by rw [hp]
  have hslot : p.slots[j] = { s.slots[j] with state := .active } := by
    rw [show p.slots = vset s.slots j { s.slots[j] with state := .active } by rw [hp], vset_getFin, if_pos rfl]
  obtain ⟨hnone, hhead⟩ := State.headAmend_stays hcurrent (by rw [hslot]; exact ha)
  obtain ⟨huse, huseWords⟩ := State.useOrder_gives hcurrent
  have hselect : s.selectOrder = p.useOrder := by rw [State.selectOrder, hsel, hhead]
  rw [hslot] at huse huseWords
  rw [hselect]
  refine ⟨by rw [State.amendsAtHead, hsel, hnone]; rfl, ?_, hw.trans huseWords⟩
  generalize p.useOrder = v at huse
  rw [huse, hp]
  dsimp only
  rw [vset_vset, takeTube_active hn]

/-! ### The words of the tube, in the order of the statement -/

theorem lookup_gainWords {a : Nat} (h : a < 0x24 ∨ 0x28 ≤ a) (chans : Vector Channel 4) (g : Nat) :
    ((List.finRange 4).flatMap fun k => gainWord k chans[k] g).lookup a = none := by
  have hone : ∀ k : Head, (gainWord k chans[k] g).lookup a = none := fun k => by
    have := k.isLt
    rw [gainWord, lookup_ifChanged]
    refine if_neg fun hc => ?_
    obtain ⟨-, ha⟩ := hc
    simp only [stGain] at ha
    omega
  generalize List.finRange 4 = ks
  induction ks with
  | nil => rfl
  | cons k ks ih => rw [List.flatMap_cons, lookup_append, hone, ih]; rfl

theorem lookup_promotedWords {a : Nat} (h : 11 ≤ a) (promoted : Bool) {j : SlotNo} (hs : a ≠ slotAddr j 0) (q : List SlotNo) :
    (promotedWords promoted j q).lookup a = none := by
  unfold promotedWords
  split
  · have hc : a ≠ stCurrent := by simp only [stCurrent]; omega
    have hpair : ([(slotAddr j 0, 2#16), (stCurrent, BitVec.ofNat 16 j.val)] : List (Nat × Word))
        = [(slotAddr j 0, 2#16)] ++ [(stCurrent, BitVec.ofNat 16 j.val)] := rfl
    rw [lookup_append, hpair, lookup_append, lookup_single, lookup_single, if_neg hs, if_neg hc, lookup_queueWords (by omega)]
    rfl
  · rfl

/-- The words of a head event with an order may be given record first, then slot, then channels. -/
theorem lookup_headWords (r : RecNo) (j : SlotNo) (q : List SlotNo) (n : Snapshot) (chans : Vector Channel 4) (serial taken : Nat)
    (changed promoted : Bool) (v : Word) (a : Nat) :
    let G := (List.finRange 4).flatMap fun k => gainWord k chans[k] n.recipe.g0
    let U := ifChanged changed (slotAddr j 4) v
    let P := promotedWords promoted j q
    (G ++ (orderWords r j taken n ++ (U ++ (P ++ clearedWords r serial)))).lookup a
      = ((orderWords r j taken n ++ clearedWords r serial) ++ (U ++ (P ++ G))).lookup a := by
  intro G U P
  have hrec := recAddr_zero_le r
  have hslot0 := slotAddr_range j (off := 0) (by decide)
  have hslot4 := slotAddr_range j (off := 4) (by decide)
  simp only [lookup_append]
  by_cases ha : InRecord r a
  · obtain ⟨hlow, -⟩ := ha
    have hG : G.lookup a = none := lookup_gainWords (by omega) chans _
    have hU : U.lookup a = none := (lookup_ifChanged _ _ _ _).trans (if_neg fun hc => by omega)
    have hP : P.lookup a = none := lookup_promotedWords (by omega) _ (by omega) q
    rw [hG, hU, hP]
    simp only [Option.none_or, Option.or_none]
  · rw [lookup_orderWords ha, lookup_clearedWords ha]
    simp only [Option.none_or, Option.or_none]
    by_cases hgain : 0x24 ≤ a ∧ a < 0x28
    · have hU : U.lookup a = none := (lookup_ifChanged _ _ _ _).trans (if_neg fun hc => by omega)
      have hP : P.lookup a = none := lookup_promotedWords (by omega) _ (by omega) q
      rw [hU, hP]
      simp only [Option.none_or, Option.or_none]
    · have hG : G.lookup a = none := lookup_gainWords (by omega) chans _
      rw [hG]
      simp only [Option.none_or, Option.or_none]

/-! ### The tube -/

theorem loadedChannel_map (r : Recipe) (chans : Vector Channel 4) :
    (Vector.ofFn fun k : Head => loadedChannel r chans[k])
      = chans.map (fun c => { c with gain := r.g0, dac := r.threshold, polarity := r.polarity }) := by
  ext i hi
  rw [Vector.getElem_ofFn, Vector.getElem_map]
  rfl

theorem headFlags_eq (s : State) (n : Snapshot) :
    headFlags s n false = (if n.clamped then tfWindowClamped else 0#16)
      ||| (if decide (∃ k : Head, inMask n.recipe.headMask k = true ∧ s.heads[k].state = .fault) then tfHeadFault else 0#16)
      ||| (if s.firing = .suspended then tfPermitLost else 0#16) := by
  simp only [headFlags, State.faultIn_eq, flagIf, decide_eq_true_eq, Bool.false_eq_true, if_false, BitVec.or_zero]

/-- The record as a head event clears it (R124). -/
theorem State.cleared_gives (s : State) (r : RecNo) :
    s.cleared r = { s with mem := (s.cleared r).mem, nextSearch := r + 1 }
      ∧ Wrote s (s.cleared r) (clearedWords r s.serial ++ [(recAddr r 0, 0#16)]) := by
  obtain ⟨h, hw⟩ := ({ s with nextSearch := r + 1 } : State).clearRecord_gives r
  exact ⟨h, hw.of_mem rfl rfl⟩

/-- Settles O41. -/
theorem headEventOpensTubeWithOrder : Obligations.HeadEventOpensTubeWithOrder := by
  intro s d r j q n hg hd hr hfree hbusy horder hsnap hamend serial taken promoted fault
  have hfind : s.arrived.findRecord = some r := State.findRecord_first hd hr hfree hbusy
  have hexec := exec_headEvent hg
  rw [hfind] at hexec
  dsimp only at hexec
  rw [State.openRecord_eq] at hexec
  obtain ⟨hcleared, hclearedWords⟩ := s.arrived.cleared_gives r
  generalize s.arrived.cleared r = c at hexec hcleared hclearedWords
  have hcs : c.slots = s.slots ∧ c.current = s.current ∧ c.queue = s.queue ∧ c.chans = s.chans := by
    rw [hcleared]
    exact ⟨rfl, rfl, rfl, rfl⟩
  obtain ⟨hslots, hcurrent, hqueue, hchans⟩ := hcs
  obtain ⟨hplain, hselect, hselectWords⟩ := State.selectOrder_gives (s := c) (j := j) (q := q) (n := n)
    (by rw [hslots, hcurrent, hqueue]; exact horder) (by rw [hslots]; exact hsnap) (by rw [hslots]; exact hamend)
  rw [hslots, hcurrent] at hselectWords
  have hgive : c.giveOrder r = c.selectOrder.openWith r j n c.amendsAtHead := by
    refine State.giveOrder_eq rfl (by rw [hselect]) ?_ r
    have hslot : c.selectOrder.slots = vset c.slots j (takenSlot c.slots[j] n) := by rw [hselect]
    rw [hslot, vset_getFin, if_pos rfl, hslots]
    exact hsnap
  rw [hplain] at hgive
  rw [hgive] at hexec
  generalize c.selectOrder = v at hexec hselect hselectWords
  obtain ⟨hopen, hopenWords⟩ := v.openWith_gives r j n false
  obtain ⟨hbegun, hbegunWords⟩ := (v.openWith r j n false).begun_gives r
  have hvslot : v.slots[j].taken = taken := by
    have hslot : v.slots = vset c.slots j (takenSlot c.slots[j] n) := by rw [hselect]
    rw [hslot, vset_getFin, if_pos rfl, hslots]
    rfl
  have hvchans : v.chans = s.chans := by rw [hselect]; exact hchans
  rw [hvslot, hvchans] at hopenWords
  refine ⟨_, hexec, ?_, ?_⟩
  · refine hbegun.trans ?_
    generalize ((v.openWith r j n false).begun r).mem = m
    rw [hvchans, loadedChannel_map, headFlags_eq] at hopen
    generalize v.openWith r j n false = w at hopen
    rw [hopen, hselect, hslots, hcleared]
    rfl
  · have hall := ((hclearedWords.of_mem (s' := s) rfl rfl).trans hselectWords).trans (hopenWords.trans hbegunWords)
    refine hall.congr fun a _ => ?_
    have hsorted := lookup_headWords r j q n s.chans serial taken (s.slots[j].taken ≠ taken) promoted (BitVec.ofNat 16 taken) a
    have hrec := lookup_recordWords r serial j taken n a
    dsimp only at hsorted
    rw [lookup_append (orderWords r j taken n ++ clearedWords r serial), hrec, ← lookup_append] at hsorted
    have hshadowed := lookup_covered (v := 0#16) (Y := ((List.finRange 4).flatMap fun k => gainWord k s.chans[k] n.recipe.g0)
      ++ (orderWords r j taken n ++ (ifChanged (s.slots[j].taken ≠ taken) (slotAddr j 4) (BitVec.ofNat 16 taken)
        ++ (promotedWords promoted j q ++ clearedWords r serial)))) (begunWords_record r) a
    rw [lookup_append (begunWords r), lookup_append (begunWords r), hsorted, ← lookup_append, ← lookup_append] at hshadowed
    simp only [List.append_assoc] at hshadowed ⊢
    exact hshadowed.symm

end Sys2Proof.Machine
end

section
/-! PROOFS. Head events at which an open lot yields or an amendment is applied (R146, R148, R152, R153). -/

namespace Sys2Proof.Machine

open Safety

/-! ### What a head event with an order leaves to be read -/

theorem slotAddr_mem (k : SlotNo) {off : Nat} (h : off < 512) : slotAddr k off < Config.memWords := slotAddr_lt k off h

/-- The words of a list lie outside the order slots. -/
theorem lookup_gain_slot (k : SlotNo) {off : Nat} (h : off < 512) (chans : Vector Channel 4) (g : Nat) :
    ((List.finRange 4).flatMap fun i => gainWord i chans[i] g).lookup (slotAddr k off) = none := by
  have := slotAddr_range k h
  exact lookup_gainWords (by omega) chans g

theorem lookup_begun_slot (k : SlotNo) {off : Nat} (h : off < 512) (r : RecNo) : (begunWords r).lookup (slotAddr k off) = none := by
  have hslot := slotAddr_range k h
  have hrec := recAddr_zero_le r
  rw [List.lookup_eq_none_iff]
  simp only [begunWords, List.forall_mem_cons, stGauge, stPosition, stSpeed, stTracking, bne_iff_ne, ne_eq]
  refine ⟨by omega, by omega, by omega, by omega, by omega, by simp⟩

theorem not_inRecord_slot (k : SlotNo) {off : Nat} (h : off < 512) (r : RecNo) : ¬InRecord r (slotAddr k off) := by
  have hslot := slotAddr_range k h
  have hrec := recAddr_zero_le r
  rintro ⟨h1, -⟩
  omega

/-- What a head event keeps of the order manager as the selection leaves it, and what the tube is (R124, R146). -/
structure Opened (v t : State) (r : RecNo) (j : SlotNo) (n : Snapshot) (amended : Bool) : Prop where
  slots : t.slots = v.slots
  queue : t.queue = v.queue
  current : t.current = v.current
  cause : t.attnCause = v.attnCause
  chans : t.chans = Vector.ofFn fun k : Head => loadedChannel n.recipe v.chans[k]
  tube : t.tube = some (newTube (some r) (some j) v.serial .normal (headFlags v n amended) (some (newAccum 0 (flagIf amended sfAmended))))
  words : ∀ (k : SlotNo) (off : Nat), off < 512 → memRead t.mem (slotAddr k off) = memRead v.mem (slotAddr k off)

/-- A head event that finds a FREE record gives it the order that the selection leaves current. -/
theorem exec_headEvent_opens {s : State} (hg : s.gauge = .armed) (hfree : ∃ r : RecNo, s.records[r] = .free) :
    ∃ (c : State) (r : RecNo), c.slots = s.slots ∧ c.queue = s.queue ∧ c.current = s.current ∧ c.attnCause = s.attnCause
      ∧ ∀ (j : SlotNo) (n : Snapshot), c.selectOrder.current = some j → c.selectOrder.slots[j].snapshot = some n →
        ∃ t, exec .headEvent s = .next t ∧ Opened c.selectOrder t r j n c.amendsAtHead := by
  obtain ⟨r, hr⟩ := State.findRecord_isSome (s := s.arrived) hfree
  have hexec := exec_headEvent hg
  rw [hr] at hexec
  dsimp only at hexec
  rw [State.openRecord_eq] at hexec
  obtain ⟨hcleared, -⟩ := s.arrived.cleared_gives r
  generalize s.arrived.cleared r = c at hexec hcleared
  refine ⟨c, r, by rw [hcleared]; rfl, by rw [hcleared]; rfl, by rw [hcleared]; rfl, by rw [hcleared]; rfl, fun j n hc hn => ?_⟩
  rw [State.giveOrder_eq rfl hc hn] at hexec
  obtain ⟨hopen, hopenWords⟩ := c.selectOrder.openWith_gives r j n c.amendsAtHead
  obtain ⟨hbegun, hbegunWords⟩ := (c.selectOrder.openWith r j n c.amendsAtHead).begun_gives r
  refine ⟨_, hexec, ?_⟩
  have hall := hopenWords.trans hbegunWords
  generalize (c.selectOrder.openWith r j n c.amendsAtHead).begun r = t at hbegun hall
  generalize c.selectOrder.openWith r j n c.amendsAtHead = w at hopen hbegun
  rw [hopen] at hbegun
  refine ⟨by rw [hbegun], by rw [hbegun], by rw [hbegun], by rw [hbegun], by rw [hbegun], by rw [hbegun], fun k off h => ?_⟩
  refine hall.read _ (slotAddr_mem k h) ?_
  rw [lookup_append, lookup_append, lookup_begun_slot k h, lookup_gain_slot k h, lookup_orderWords (not_inRecord_slot k h r)]
  rfl

/-! ### An amendment at the head event (R152) -/

theorem or_cause_self (a c : Byte) : (a ||| c) &&& c = c := BitVec.eq_of_getElem_eq fun i hi => by simpa using Or.inr

theorem hasFlag_headFlags (s : State) (n : Snapshot) : hasFlag (headFlags s n true) tfAmended = true :=
  hasFlag_or_self _ tfAmended (by decide)

/-- The order that a head event amends and takes (R146, R152). -/
theorem State.selectOrder_amends {s : State} {i : SlotNo} {m : Snapshot} {y : Amendment} (hc : s.current = some i)
    (hm : s.slots[i].snapshot = some m) (hlot : m.recipe.lotCount = 0 → s.queue = []) (hy : s.slots[i].amendment = some y) :
    let v := s.selectOrder
    s.amendsAtHead = true ∧ v.current = some i ∧ v.queue = s.queue ∧ v.slots[i].snapshot = some (amendSnapshot m y)
      ∧ v.slots[i].amendment = none ∧ v.attnCause = s.attnCause ||| causeRequest ∧ memRead v.mem (slotAddr i 2) = 1#16
      ∧ memRead v.mem (slotAddr i 1) = 0#16 := by
  intro v
  have hopen : s.openLot i = true → s.queue = [] := fun ho => by
    rw [State.openLot, hm] at ho
    exact hlot (by simpa using ho)
  have hselected : s.selected = s := by rw [State.selected, State.yieldLot_stays hc hopen, State.promote_stays hc]
  obtain ⟨hsome, hhead, hheadWords⟩ := State.headAmend_gives hc hy
  have hv : v = s.headAmend.useOrder := by simp only [v, State.selectOrder, hselected]
  generalize s.headAmend = h at hhead hheadWords hv
  have hslots : h.slots = vset s.slots i (amendedSlot s.slots[i] y) := by rw [hhead]
  have hslot : h.slots[i] = amendedSlot s.slots[i] y := by rw [hslots, vset_getFin, if_pos rfl]
  obtain ⟨huse, huseWords⟩ := State.useOrder_gives (s := h) (j := i) (by rw [hhead]; exact hc)
  rw [← hv] at huse huseWords
  have hvslots : v.slots = vset h.slots i (takeTube h.slots[i]) := by rw [huse]
  have hvslot : v.slots[i] = takeTube (amendedSlot s.slots[i] y) := by rw [hvslots, vset_getFin, if_pos rfl, hslot]
  have hread : ∀ {off : Nat}, off < 4 → memRead v.mem (slotAddr i off) = memRead h.mem (slotAddr i off) := fun {off} hoff => by
    refine huseWords.read _ (slotAddr_mem i (by omega)) ?_
    rw [lookup_ifChanged]
    refine if_neg fun hc => ?_
    have := ((slotAddr_inj i i off 4 (by omega) (by decide)).1 hc.2).2
    omega
  have hapart : slotAddr i 2 ≠ slotAddr i 1 := fun hc => by
    have := ((slotAddr_inj i i 2 1 (by decide) (by decide)).1 hc).2
    omega
  refine ⟨by rw [State.amendsAtHead, hselected]; exact hsome, by rw [huse, hhead]; exact hc, by rw [huse, hhead], ?_, ?_,
    by rw [huse, hhead], ?_, ?_⟩
  · rw [hvslot]
    simp only [takeTube, amendedSlot, hm, Option.map_some]
  · rw [hvslot]
    rfl
  · rw [hread (by decide), hheadWords _ (slotAddr_mem i (by decide)), List.lookup_cons, beq_false_of_ne hapart, lookup_single, if_pos rfl]
    rfl
  · rw [hread (by decide), hheadWords _ (slotAddr_mem i (by decide)), List.lookup_cons, beq_self_eq_true]
    rfl

/-! ### An open lot that yields (R146, R148) -/

/-- What the head event's amendment leaves of an order: the state, the tubes taken, the other slots and the other words (R152). -/
theorem State.headAmend_keeps {s : State} {j : SlotNo} {n : Snapshot} (hc : s.current = some j) (hn : s.slots[j].snapshot = some n) :
    let h := s.headAmend
    h.current = some j ∧ h.queue = s.queue ∧ (∃ x, h.slots = vset s.slots j x ∧ x.state = s.slots[j].state ∧ x.taken = s.slots[j].taken
        ∧ ∃ n', x.snapshot = some n')
      ∧ (h.attnCause = s.attnCause ∨ h.attnCause = s.attnCause ||| causeRequest)
      ∧ ∃ ws, Wrote s h ws ∧ ∀ a, a ≠ slotAddr j 1 → a ≠ slotAddr j 2 → ws.lookup a = none := by
  intro h
  cases ha : s.slots[j].amendment with
  | none =>
    have hsame : h = s := (State.headAmend_stays hc ha).2
    rw [hsame]
    exact ⟨hc, rfl, ⟨s.slots[j], (vset_same _ _).symm, rfl, rfl, n, hn⟩, .inl rfl, [], wrote_nil s s rfl, fun _ _ _ => rfl⟩
  | some y =>
    obtain ⟨-, hhead, hwords⟩ := State.headAmend_gives hc ha
    refine ⟨by simp only [h]; rw [hhead]; exact hc, by simp only [h]; rw [hhead], ⟨amendedSlot s.slots[j] y, by simp only [h]; rw [hhead],
      rfl, rfl, amendSnapshot n y, by rw [amendedSlot, hn]; rfl⟩, .inr (by simp only [h]; rw [hhead]), _, hwords, fun a h1 h2 => ?_⟩
    rw [List.lookup_cons, beq_false_of_ne h1, lookup_single, if_neg h2]

/-- A word of a slot that a promotion leaves alone (R145). -/
theorem lookup_promotion_slot {k j : SlotNo} {off : Nat} (h : off < 512) (hne : slotAddr k off ≠ slotAddr j 0) (q : List SlotNo) :
    ([(stCurrent, BitVec.ofNat 16 j.val)] ++ (queueWords q ++ [(slotAddr j 0, 2#16)])).lookup (slotAddr k off) = none := by
  have := slotAddr_range k h
  rw [lookup_promoted]
  exact lookup_promotedWords (by omega) true hne q

theorem lookup_promotion_state (j : SlotNo) (q : List SlotNo) :
    ([(stCurrent, BitVec.ofNat 16 j.val)] ++ (queueWords q ++ [(slotAddr j 0, 2#16)])).lookup (slotAddr j 0) = some 2#16 := by
  rw [lookup_promoted]
  simp only [promotedWords, if_true]
  rw [lookup_append, List.lookup_cons, beq_self_eq_true]
  rfl

theorem slotAddr_ne_of_off (i : SlotNo) {a b : Nat} (ha : a < 512) (hb : b < 512) (h : a ≠ b) : slotAddr i a ≠ slotAddr i b :=
  fun he => h ((slotAddr_inj i i a b ha hb).1 he).2

/-- The state word of a spent slot among the words of its end (R148). -/
theorem lookup_spent_state (i : SlotNo) (dropped : Bool) :
    ((if dropped then [(slotAddr i 1, reqNone), (slotAddr i 2, ansDropped)] else [])
      ++ [(stCurrent, Config.noneWord), (slotAddr i 0, slotCode .spent)]).lookup (slotAddr i 0) = some 3#16 := by
  have hrange := slotAddr_range i (off := 0) (by decide)
  have hcurrent : slotAddr i 0 ≠ stCurrent := by simp only [stCurrent]; omega
  have hrequest : ((if dropped then [(slotAddr i 1, reqNone), (slotAddr i 2, ansDropped)] else []) : List (Nat × Word)).lookup
      (slotAddr i 0) = none := by
    split
    · rw [List.lookup_cons, beq_false_of_ne (slotAddr_ne_of_off i (by decide) (by decide) (by decide)), lookup_single,
        if_neg (slotAddr_ne_of_off i (by decide) (by decide) (by decide))]
    · rfl
  rw [lookup_append, hrequest, List.lookup_cons, beq_false_of_ne hcurrent, lookup_single, if_pos rfl]
  rfl

/-- The order that takes the place of an open lot (R146, R148, R153). -/
theorem State.selectOrder_yields {s : State} {i j : SlotNo} {m n : Snapshot} {q : List SlotNo} (hc : s.current = some i) (hij : i ≠ j)
    (hm : s.slots[i].snapshot = some m) (hlot : m.recipe.lotCount = 0) (hq : s.queue = j :: q) (hn : s.slots[j].snapshot = some n) :
    let v := s.selectOrder
    v.slots[i] = emptied s.slots[i] .spent ∧ v.current = some j ∧ v.queue = q ∧ v.slots[j].state = .active
      ∧ v.slots[j].taken = min (s.slots[j].taken + 1) 65535 ∧ (∃ n', v.slots[j].snapshot = some n')
      ∧ memRead v.mem (slotAddr i 0) = 3#16 ∧ memRead v.mem (slotAddr j 0) = 2#16
      ∧ (s.slots[i].amendment.isSome = true →
          memRead v.mem (slotAddr i 2) = 6#16 ∧ memRead v.mem (slotAddr i 1) = 0#16 ∧ v.attnCause &&& causeRequest = causeRequest) := by
  intro v
  have hyields : s.yieldLot = s.spendSlot i := by
    have hopen : s.openLot i = true := by rw [State.openLot, hm, Option.map_some, Option.getD_some, hlot]; rfl
    unfold State.yieldLot
    rw [hc]
    exact if_pos (by rw [hopen, hq]; rfl)
  obtain ⟨hspent, hnone, hcause, hspentWords⟩ := s.spendSlot_effect i
  have hqueue : (s.spendSlot i).queue = j :: q := by simp [hq]
  generalize s.spendSlot i = u at hyields hspent hnone hcause hspentWords hqueue
  have huj : u.slots[j] = s.slots[j] := by rw [hspent, vset_getFin, if_neg hij]
  have hui : u.slots[i] = emptied s.slots[i] .spent := by rw [hspent, vset_getFin, if_pos rfl]
  obtain ⟨hpromoted, hpromotedWords⟩ := State.promote_gives hnone hqueue
  have hselected : s.selected = u.promote := by rw [State.selected, hyields]
  generalize u.promote = p at hpromoted hpromotedWords hselected
  have hpslots : p.slots = vset u.slots j { u.slots[j] with state := .active } := by rw [hpromoted]
  have hpj : p.slots[j] = { s.slots[j] with state := .active } := by rw [hpslots, vset_getFin, if_pos rfl, huj]
  have hpi : p.slots[i] = emptied s.slots[i] .spent := by rw [hpslots, vset_getFin, if_neg (Ne.symm hij), hui]
  have hpcause : p.attnCause = u.attnCause := by rw [hpromoted]
  obtain ⟨hhc, hhq, ⟨x, hhs, hxstate, hxtaken, n', hxn⟩, hhcause, ws, hws, hwsNone⟩ := State.headAmend_keeps (s := p) (j := j) (n := n)
    (by rw [hpromoted]) (by rw [hpj]; exact hn)
  have hv : v = p.headAmend.useOrder := by simp only [v, State.selectOrder, hselected]
  generalize p.headAmend = h at hhc hhq hhs hhcause hws hv
  obtain ⟨huse, huseWords⟩ := State.useOrder_gives hhc
  rw [← hv] at huse huseWords
  have hhj : h.slots[j] = x := by rw [hhs, vset_getFin, if_pos rfl]
  have hvslots : v.slots = vset h.slots j (takeTube x) := by rw [huse, hhj]
  have hvj : v.slots[j] = takeTube x := by rw [hvslots, vset_getFin, if_pos rfl]
  have hvi : v.slots[i] = emptied s.slots[i] .spent := by
    rw [hvslots, vset_getFin, if_neg (Ne.symm hij), hhs, vset_getFin, if_neg (Ne.symm hij), hpi]
  have hread : ∀ (k : SlotNo) {off : Nat}, off < 3 → (k = j → off = 0) → memRead v.mem (slotAddr k off) = memRead p.mem (slotAddr k off) :=
    fun k off hoff hkj => by
      have hapart : ∀ o : Nat, o < 512 → o ≠ 0 → slotAddr k off ≠ slotAddr j o := fun o ho hne he => by
        obtain ⟨hk, ho'⟩ := (slotAddr_inj k j off o (by omega) ho).1 he
        exact hne (ho' ▸ hkj hk)
      have huseNone : memRead v.mem (slotAddr k off) = memRead h.mem (slotAddr k off) :=
        huseWords.read _ (slotAddr_mem k (by omega)) (by
          rw [lookup_ifChanged]
          exact if_neg fun hc => hapart 4 (by decide) (by decide) hc.2)
      exact huseNone.trans (hws.read _ (slotAddr_mem k (by omega)) (hwsNone _ (hapart 1 (by decide) (by decide))
        (hapart 2 (by decide) (by decide))))
  have hreadI : ∀ {off : Nat}, off < 3 → memRead v.mem (slotAddr i off) = memRead u.mem (slotAddr i off) := fun {off} hoff => by
    rw [hread i hoff fun hk => absurd hk hij]
    refine hpromotedWords.read _ (slotAddr_mem i (by omega)) (lookup_promotion_slot (by omega) (fun he => ?_) q)
    exact hij ((slotAddr_inj i j off 0 (by omega) (by decide)).1 he).1
  refine ⟨hvi, by rw [huse]; exact hhc, by rw [huse, hhq, hpromoted], ?_, ?_, ⟨n', ?_⟩, ?_, ?_, fun hsome => ⟨?_, ?_, ?_⟩⟩
  · rw [hvj]
    exact hxstate.trans (by rw [hpj])
  · rw [hvj]
    exact congrArg (fun k => min (k + 1) 65535) (hxtaken.trans (by rw [hpj]))
  · rw [hvj]
    exact hxn
  · rw [hreadI (by decide), hspentWords _ (slotAddr_mem i (by decide)), lookup_spent_state]
    rfl
  · rw [hread j (by decide) fun _ => rfl, hpromotedWords _ (slotAddr_mem j (by decide)), lookup_promotion_state]
    rfl
  · rw [hreadI (by decide), hspentWords _ (slotAddr_mem i (by decide)), if_pos hsome]
    rw [lookup_append, List.lookup_cons, beq_false_of_ne (slotAddr_ne_of_off i (by decide) (by decide) (by decide)), lookup_single,
      if_pos rfl]
    rfl
  · rw [hreadI (by decide), hspentWords _ (slotAddr_mem i (by decide)), if_pos hsome]
    rw [lookup_append, List.lookup_cons, beq_self_eq_true]
    rfl
  · have hpc : v.attnCause = h.attnCause := by rw [huse]
    have hself := or_cause_self s.attnCause causeRequest
    rw [if_pos hsome] at hcause
    rcases hhcause with hh | hh
    · rw [hpc, hh, hpcause, hcause]
      exact hself
    · rw [hpc, hh]
      exact or_cause_self _ _

/-- Settles O42. -/
theorem headEventYieldsOpenLotAndAppliesAmendment : Obligations.HeadEventYieldsOpenLotAndAppliesAmendment := by
  intro s i j m n q hg hfree hc hm hn
  obtain ⟨c, r, hslots, hqueue, hcurrent, hcause, hopens⟩ := exec_headEvent_opens hg hfree
  refine ⟨fun ⟨hij, hlot, hq⟩ => ?_, fun y ⟨hij, hlot, hy⟩ => ?_⟩
  · obtain ⟨hvi, hvc, hvq, hvstate, hvtaken, ⟨n', hvn⟩, hread1, hread2, hdropped⟩ :=
      State.selectOrder_yields (s := c) (hcurrent.trans hc) hij
      (by rw [hslots]; exact hm) hlot (hqueue.trans hq) (by rw [hslots]; exact hn)
    obtain ⟨t, hexec, ht⟩ := hopens j n' hvc hvn
    rw [hslots] at hvi hvtaken hdropped
    refine ⟨t, _, hexec, by rw [ht.slots, hvi]; rfl, by rw [ht.slots, hvi]; rfl, by rw [ht.slots, hvi]; rfl, ht.current.trans hvc,
      ht.queue.trans hvq, by rw [ht.slots]; exact hvstate, by rw [ht.slots]; exact hvtaken, ht.tube, rfl,
      (ht.words i 0 (by decide)).trans hread1, (ht.words j 0 (by decide)).trans hread2, fun hsome => ?_⟩
    obtain ⟨h2, h1, hattn⟩ := hdropped hsome
    exact ⟨(ht.words i 2 (by decide)).trans h2, (ht.words i 1 (by decide)).trans h1, by rw [ht.cause]; exact hattn⟩
  · obtain ⟨hamends, hvc, hvq, hvn, hva, hvcause, hread2, hread1⟩ := State.selectOrder_amends (s := c) (y := y) (hcurrent.trans hc)
      (by rw [hslots]; exact hm) (fun h => hqueue.trans (hlot h)) (by rw [hslots]; exact hy)
    obtain ⟨t, hexec, ht⟩ := hopens i _ hvc hvn
    rw [hamends] at ht
    refine ⟨t, _, _, hexec, by rw [ht.slots]; exact hvn, by rw [ht.slots]; exact hva, ht.current.trans hvc,
      ht.queue.trans (hvq.trans hqueue), ht.tube, rfl, hasFlag_headFlags _ _, rfl, rfl, fun k => ?_,
      (ht.words i 2 (by decide)).trans hread2, (ht.words i 1 (by decide)).trans hread1, by rw [ht.cause, hvcause]; exact or_cause_self _ _⟩
    rw [ht.chans]
    simp [loadedChannel, amendSnapshot, amendRecipe]

end Sys2Proof.Machine
end

section
/-! PROOFS. The close of a tube, step by step, and of a tube without sections (R14, R15, R125, R134 to R137, R148). -/

namespace Sys2Proof.Machine

open Safety

/-! ### The steps of the close (R135, R137, R148) -/

theorem completionWords_length (x : Tube) (z : Nat) : (completionWords x z).length = 41 := by
  have hsummary : (summaryWords x.accum).length = 6 := by
    unfold summaryWords
    split <;> rfl
  unfold completionWords
  dsimp only
  simp [words32, hsummary]

/-- The words of a record as the close writes them, the tube's counts and the status words after it (R135, R136). -/
def closedWords (r : RecNo) (x : Tube) (z done : Nat) (changed : Bool) : List (Nat × Word) :=
  ifChanged changed stCompleted (BitVec.ofNat 16 done)
    ++ ([(stLastSerial, BitVec.ofNat 16 x.serial)] ++ ([(recAddr r 0, 2#16)]
      ++ (wordsAt (recAddr r 88) (List.replicate 40 0#16) ++ wordsAt (recAddr r 13) (completionWords x z))))

theorem State.completeRecord_gives (s : State) (r : RecNo) (x : Tube) :
    s.completeRecord r x = { s with mem := (s.completeRecord r x).mem, records := vset s.records r .complete }
      ∧ Wrote s (s.completeRecord r x)
        ([(recAddr r 0, 2#16)] ++ (wordsAt (recAddr r 88) (List.replicate 40 0#16)
          ++ wordsAt (recAddr r 13) (completionWords x s.zTail))) := by
  have hself : ∀ (vs ws : List Word) (a b : Nat) (m : RecState),
      (((s.putList a vs).putList b ws).setRecState r m)
        = { s with mem := (((s.putList a vs).putList b ws).setRecState r m).mem, records := vset s.records r m } := fun _ _ _ _ _ => rfl
  refine ⟨hself _ _ _ _ _, ?_⟩
  have hwords := wrote_putList s (recAddr r 13) (completionWords x s.zTail)
    (recAddr_run r 13 _ (by rw [completionWords_length]; decide))
  have hzeros := wrote_putList (s.putList (recAddr r 13) (completionWords x s.zTail)) (recAddr r 88) (List.replicate 40 0#16)
    (recAddr_run r 88 40 (by decide))
  exact (hwords.trans hzeros).trans (State.setRecState_wrote _ r .complete)

theorem State.closeStatus_gives (s : State) (x : Tube) :
    s.closeStatus x = { s with
        mem := (s.closeStatus x).mem, tubesCompleted := sat16 s.tubesCompleted, attnCause := s.attnCause ||| causeTube }
      ∧ Wrote s (s.closeStatus x) (ifChanged (s.tubesCompleted ≠ sat16 s.tubesCompleted) stCompleted (toWord (sat16 s.tubesCompleted))
        ++ [(stLastSerial, toWord x.serial)]) := by
  have hserial := wrote_put ({ s with tubesCompleted := sat16 s.tubesCompleted } : State) stLastSerial (toWord x.serial) (by decide)
  exact ⟨rfl, (hserial.trans (wrote_putIf _ _ stCompleted _ (by decide))).of_mem rfl rfl⟩

/-- The record of the open tube, written (R135, R136). -/
theorem State.closeRecord_gives {s : State} {x : Tube} {r : RecNo} (ht : s.tube = some x) (hr : x.record = some r) :
    let done := min (s.tubesCompleted + 1) 65535
    s.closeRecord = { s with
        mem := s.closeRecord.mem, records := vset s.records r .complete, tubesCompleted := done
        attnCause := s.attnCause ||| causeTube }
      ∧ Wrote s s.closeRecord (closedWords r x (x.zTail.getD s.tracker.z) done (s.tubesCompleted ≠ done)) := by
  intro done
  have hclose : s.closeRecord = (s.completeRecord r x).closeStatus x := by
    unfold State.closeRecord
    rw [ht]
    dsimp only
    rw [hr]
  have hz : s.zTail = x.zTail.getD s.tracker.z := by rw [State.zTail, ht]; rfl
  obtain ⟨hrec, hrecWords⟩ := s.completeRecord_gives r x
  obtain ⟨hstatusState, hstatus⟩ := (s.completeRecord r x).closeStatus_gives x
  have hcompleted : (s.completeRecord r x).tubesCompleted = s.tubesCompleted := by rw [hrec]
  rw [hcompleted] at hstatus
  rw [hclose]
  constructor
  · generalize (s.completeRecord r x).closeStatus x = t at hstatusState
    rw [hstatusState, hcompleted]
    generalize s.completeRecord r x = u at hrec
    rw [hrec]
    rfl
  · have hall := hrecWords.trans hstatus
    rw [hz, List.append_assoc] at hall
    exact hall

/-- The words with which the gauge leaves CLOSING. -/
def leavingWords (halted waiting moving : Bool) : List (Nat × Word) :=
  [(stGauge, if halted then 1#16 else if waiting then 5#16 else 2#16)]
    ++ (ifChanged halted stSource 0#16 ++ ifChanged (halted && moving) stTracking 0#16)

theorem State.setGauge_unhalted {s : State} (h : s.haltPending = false) (g : GaugeState) :
    s.setGauge g = { s with mem := (s.setGauge g).mem, gauge := g, haltPending := false } := by
  rw [← h]
  rfl

/-- The gauge leaves CLOSING (R14, R15, R137). -/
theorem State.leaveClosing_gives (s : State) :
    s.leaveClosing = { s with
        mem := s.leaveClosing.mem, tube := none, haltPending := false
        gauge := if s.haltPending then .halted else if s.presence.level then .waitClear else .armed
        slot := if s.haltPending then none else s.slot
        resumePending := if s.haltPending then false else s.resumePending
        tracker := if s.haltPending then { s.tracker with
            state := .idle, stallLimit := none, episode := 0, fresh := false, encLevel := false, encRun := 0, encPhase := 0 }
          else s.tracker
        link := if s.haltPending then { s.link with rx := Receiver.off, asm := .awaitMarker, gapAt := none, source := .none }
          else s.link }
      ∧ Wrote s s.leaveClosing (leavingWords s.haltPending s.presence.level (s.tracker.state != .idle)) := by
  cases hh : s.haltPending with
  | true =>
    have hleave : s.leaveClosing = ({ s with tube := none } : State).enterHalted := by
      unfold State.leaveClosing
      dsimp only
      rw [hh]
      exact if_pos rfl
    have hstate := ({ s with tube := none } : State).enterHalted_eq
    have hwords := ({ s with tube := none } : State).enterHalted_wrote
    rw [hleave]
    refine ⟨hstate, (hwords.of_mem (s' := s) rfl rfl).congr fun a _ => ?_⟩
    have hmoving : (s.tracker.state != .idle) = decide (s.tracker.state ≠ .idle) := by
      cases s.tracker.state <;> rfl
    rw [leavingWords, Bool.true_and, hmoving]
    rfl
  | false =>
    have hleave : s.leaveClosing = ({ s with tube := none } : State).setGauge (if s.presence.level then .waitClear else .armed) := by
      unfold State.leaveClosing
      dsimp only
      rw [hh]
      exact if_neg Bool.false_ne_true
    have hwords := ({ s with tube := none } : State).setGauge_wrote (if s.presence.level then .waitClear else .armed)
    have hcode : gaugeCode (if s.presence.level then .waitClear else .armed) = if s.presence.level then 5#16 else 2#16 := by
      cases s.presence.level <;> rfl
    rw [hcode] at hwords
    rw [hleave]
    exact ⟨State.setGauge_unhalted (s := { s with tube := none }) hh _, hwords.of_mem (s' := s) rfl rfl⟩

/-! ### A tube without sections (R125, R135) -/

theorem State.closeIfDrained_drained {s : State} (hg : s.gauge = .closing) (hf : s.inFlight = none) : s.closeIfDrained = s.closeTube :=
  if_pos ⟨hg, hf⟩

theorem State.closeTube_missed {s : State} {x : Tube} (ht : s.tube = some x) (hr : x.record = none) : s.closeTube = s.leaveClosing := by
  have hno : s.hasRecord = false := by rw [State.hasRecord, ht, Option.bind_some, hr]; rfl
  rw [State.closeTube, hno]
  exact if_neg Bool.false_ne_true

/-- The close of a tube that has a record, but no order and no section (R135). -/
theorem State.closeTube_bare {s : State} {x : Tube} {r : RecNo} (ht : s.tube = some x) (hr : x.record = some r) (ho : x.order = none)
    (hopen : x.opened = none) (hheld : x.holdback = []) : s.closeTube = s.closeRecord.leaveClosing := by
  have hhas : s.hasRecord = true := by rw [State.hasRecord, ht, Option.bind_some, hr]; rfl
  have hlast : s.closeLast = s := by rw [State.closeLast, ht, Option.bind_some, hopen]
  have hwrite : s.writeHeld = s := by
    have hempty : s.held = [] := by rw [State.held, ht, Option.map_some, hheld]; rfl
    have hsame : s.modTube (fun t => { t with holdback := [] }) = s := by
      have hx : ({ x with holdback := [] } : Tube) = x := by rw [← hheld]
      rw [State.modTube, ht, Option.map_some, hx, ← ht]
    rw [State.writeHeld, hempty, hsame]
    rfl
  obtain ⟨hrec, -⟩ := State.closeRecord_gives ht hr
  have hlot : s.closeRecord.lotAccounting = s.closeRecord := by
    have hnone : s.closeRecord.orderInUse = none := by
      have htube : s.closeRecord.tube = s.tube := by rw [hrec]
      rw [State.orderInUse, htube, ht, Option.bind_some, ho]
    rw [State.lotAccounting, hnone]
  rw [State.closeTube, if_pos hhas, hlast, hwrite, hlot]

theorem completionWords_noOrder {x : Tube} (h : x.order = none) (z : Nat) :
    completionWords x z = ([outcomeCode x.outcome, x.flags, 0#16] ++ words32 z) ++ List.replicate 30 0#16 ++ summaryWords x.accum := by
  have htotals : closingTotals x = noTotals := by
    unfold closingTotals
    rw [h]
    rfl
  unfold completionWords
  rw [htotals]
  rfl

theorem completionWords_zero {x : Tube} (h : x.order = none) (z : Nat) {i : Nat} (hlow : 5 ≤ i) (hhigh : i < 35) :
    (completionWords x z).getD i 0#16 = 0#16 := by
  have hfront : ([outcomeCode x.outcome, x.flags, 0#16] ++ words32 z).length = 5 := rfl
  rw [completionWords_noOrder h, List.append_assoc, List.getD_append_right _ _ _ _ (by omega), hfront,
    List.getD_append _ _ _ _ (by simp; omega), List.getD_eq_getElem?_getD, List.getElem?_replicate]
  split <;> rfl

end Sys2Proof.Machine
end

section
/-! PROOFS. The close of a tube without sections (R14, R15, R125, R134 to R137). -/

namespace Sys2Proof.Machine

open Safety

theorem lookup_append_comm {xs ys : List (Nat × Word)} {a : Nat} (h : xs.lookup a = none ∨ ys.lookup a = none) :
    (xs ++ ys).lookup a = (ys ++ xs).lookup a := by
  rw [lookup_append, lookup_append]
  rcases h with h | h <;> rw [h, Option.none_or, Option.or_none]

/-- The words of a completed record may be given with the tubes-completed word last. -/
theorem lookup_closedWords (r : RecNo) (x : Tube) (z done : Nat) (changed : Bool) (a : Nat) :
    (closedWords r x z done changed).lookup a
      = ([(stLastSerial, BitVec.ofNat 16 x.serial), (recAddr r 0, 2#16)] ++ wordsAt (recAddr r 13) (completionWords x z)
          ++ wordsAt (recAddr r 88) (List.replicate 40 0#16) ++ ifChanged changed stCompleted (BitVec.ofNat 16 done)).lookup a := by
  have hrec := recAddr_zero_le r
  have hblocks : (wordsAt (recAddr r 88) (List.replicate 40 0#16) ++ wordsAt (recAddr r 13) (completionWords x z)).lookup a
      = (wordsAt (recAddr r 13) (completionWords x z) ++ wordsAt (recAddr r 88) (List.replicate 40 0#16)).lookup a := by
    refine lookup_append_comm ?_
    simp only [lookup_wordsAt, completionWords_length, List.length_replicate, recAddr_eq r 88, recAddr_eq r 13]
    by_cases h : recAddr r 0 + 88 ≤ a
    · exact .inr (if_neg (by omega))
    · exact .inl (if_neg (by omega))
  have hcount : (ifChanged changed stCompleted (BitVec.ofNat 16 done)).lookup a = none
      ∨ ([(stLastSerial, BitVec.ofNat 16 x.serial), (recAddr r 0, 2#16)] ++ wordsAt (recAddr r 13) (completionWords x z)
          ++ wordsAt (recAddr r 88) (List.replicate 40 0#16)).lookup a = none := by
    by_cases h : a = stCompleted
    · have hlow : a < recAddr r 0 := by rw [h]; simp only [stCompleted]; omega
      have hserial : a ≠ stLastSerial := by rw [h]; decide
      refine .inr ?_
      rw [lookup_append, lookup_append, List.lookup_cons, beq_false_of_ne hserial, lookup_single, if_neg (by omega),
        lookup_wordsAt_record (by rw [completionWords_length]; decide) (fun hin => absurd hin.1 (by omega)),
        lookup_wordsAt_record (by rw [List.length_replicate]) (fun hin => absurd hin.1 (by omega))]
      rfl
    · exact .inl ((lookup_ifChanged _ _ _ _).trans (if_neg fun hc => h hc.2))
  rw [← lookup_append_comm hcount, closedWords]
  have hpair : ([(stLastSerial, BitVec.ofNat 16 x.serial), (recAddr r 0, 2#16)] : List (Nat × Word))
      = [(stLastSerial, BitVec.ofNat 16 x.serial)] ++ [(recAddr r 0, 2#16)] := rfl
  simp only [hpair, lookup_append, Option.or_assoc] at hblocks ⊢
  rw [hblocks]

theorem recAddr_mem (r : RecNo) {off : Nat} (h : off < 128) : recAddr r off < Config.memWords := recAddr_lt r off h

/-- A word of the totals of a NO_ORDER tube (R125). -/
theorem lookup_closed_total {r : RecNo} {x : Tube} (h : x.order = none) (z done : Nat) (changed : Bool) {off : Nat} (hlow : 18 ≤ off)
    (hhigh : off < 48) : (closedWords r x z done changed).lookup (recAddr r off) = some 0#16 := by
  have hrec := recAddr_zero_le r
  have hserial : recAddr r off ≠ stLastSerial := by rw [recAddr_eq]; simp only [stLastSerial]; omega
  have hin : (wordsAt (recAddr r 13) (completionWords x z)).lookup (recAddr r off) = some 0#16 := by
    rw [lookup_wordsAt, completionWords_length, recAddr_eq r 13, recAddr_eq r off, if_pos (by omega)]
    have hoff : recAddr r 0 + off - (recAddr r 0 + 13) = off - 13 := by omega
    rw [hoff, completionWords_zero h z (by omega) (by omega)]
  rw [lookup_closedWords, lookup_append, lookup_append, lookup_append, List.lookup_cons, beq_false_of_ne hserial, lookup_single,
    if_neg (by rw [recAddr_eq]; omega), hin]
  rfl

theorem lookup_closed_state (r : RecNo) (x : Tube) (z done : Nat) (changed : Bool) :
    (closedWords r x z done changed).lookup (recAddr r 0) = some 2#16 := by
  have hrec := recAddr_zero_le r
  have hserial : recAddr r 0 ≠ stLastSerial := by simp only [stLastSerial]; omega
  rw [lookup_closedWords, lookup_append, lookup_append, lookup_append, List.lookup_cons, beq_false_of_ne hserial, lookup_single, if_pos rfl]
  rfl

theorem lookup_leavingWords {a : Nat} (h : 0x10 ≤ a) (halted waiting moving : Bool) :
    (leavingWords halted waiting moving).lookup a = none := by
  rw [leavingWords, lookup_append, lookup_append, lookup_single, lookup_ifChanged, lookup_ifChanged,
    if_neg (by simp only [stGauge]; omega), if_neg (by simp only [stSource]; omega), if_neg (by simp only [stTracking]; omega)]
  rfl

/-- What the close of a tube without sections does before the gauge leaves CLOSING (R135). -/
structure Drained (s u : State) (x : Tube) : Prop where
  leaves : s.closeTube = u.leaveClosing
  kept : u.haltPending = s.haltPending ∧ u.presence = s.presence ∧ u.tracker = s.tracker ∧ u.link = s.link ∧ u.heads = s.heads
    ∧ u.slots = s.slots ∧ u.queue = s.queue ∧ u.current = s.current ∧ u.pool = s.pool
  record : ∀ r, x.record = some r → u.records[r] = .complete ∧ memRead u.mem (recAddr r 0) = 2#16

theorem drained_bare {s : State} {x : Tube} (ht : s.tube = some x) (ho : x.order = none) (hopen : x.opened = none)
    (hheld : x.holdback = []) : ∃ u, Drained s u x := by
  cases hr : x.record with
  | none =>
    exact ⟨s, State.closeTube_missed ht hr, ⟨rfl, rfl, rfl, rfl, rfl, rfl, rfl, rfl, rfl⟩, fun r h => absurd (hr.symm.trans h) (by simp)⟩
  | some r =>
    obtain ⟨hrec, hwords⟩ := State.closeRecord_gives ht hr
    have hrecords : s.closeRecord.records = vset s.records r .complete := by rw [hrec]
    have hstate : memRead s.closeRecord.mem (recAddr r 0) = 2#16 := by
      rw [hwords _ (recAddr_mem r (by decide)), lookup_closed_state]
      rfl
    refine ⟨s.closeRecord, State.closeTube_bare ht hr ho hopen hheld, ?_, fun r' hr' => ?_⟩
    · generalize s.closeRecord = u at hrec
      rw [hrec]
      exact ⟨rfl, rfl, rfl, rfl, rfl, rfl, rfl, rfl, rfl⟩
    · obtain rfl := Option.some.inj (hr.symm.trans hr')
      exact ⟨by rw [hrecords, vset_getFin, if_pos rfl], hstate⟩

/-- Settles O45. -/
theorem closeOfTubeWithoutSections : Obligations.CloseOfTubeWithoutSections := by
  intro s x hg hf ht ho hopen hheld next z
  have hdrained := State.closeIfDrained_drained hg hf
  have hexec : exec .closeCompletion s = .next s.closeTube := congrArg Host.Outcome.next hdrained
  refine ⟨fun hh hr => ?_, ?_, fun hh => ?_⟩
  · have hmissed := State.closeTube_missed ht hr
    obtain ⟨hleave, hwords⟩ := s.leaveClosing_gives
    refine ⟨_, hexec, ?_, ?_⟩
    · rw [hmissed]
      refine hleave.trans ?_
      rw [hh]
      simp only [Bool.false_eq_true, if_false]
      rw [← hh]
    · rw [hmissed]
      rw [hh] at hwords
      exact hwords
  · intro r hh hr done
    have hbare := State.closeTube_bare ht hr ho hopen hheld
    obtain ⟨hrec, hrecWords⟩ := State.closeRecord_gives ht hr
    obtain ⟨hleave, hleaveWords⟩ := s.closeRecord.leaveClosing_gives
    have hhr : s.closeRecord.haltPending = false := by rw [hrec]; exact hh
    have hpr : s.closeRecord.presence = s.presence := by rw [hrec]
    rw [hhr, hpr] at hleaveWords
    have hall := hrecWords.trans hleaveWords
    refine ⟨_, hexec, ?_, ?_, fun off hlow hhigh => ?_⟩
    · rw [hbare]
      generalize s.closeRecord.leaveClosing.mem = m at hleave
      refine hleave.trans ?_
      rw [hhr, hpr]
      simp only [Bool.false_eq_true, if_false]
      generalize s.closeRecord = u at hrec
      rw [hrec, ← hh]
    · rw [hbare]
      refine hall.congr fun a _ => ?_
      rw [lookup_append _ (closedWords _ _ _ _ _), lookup_closedWords, ← lookup_append]
      rfl
    · rw [hbare, hall _ (recAddr_mem r (by omega)), lookup_append, lookup_closed_total ho _ _ _ hlow hhigh]
      have hrange := recAddr_zero_le r
      rw [lookup_leavingWords (by rw [recAddr_eq]; omega)]
      rfl
  · obtain ⟨u, hleaves, ⟨huh, -, hut, hul, huheads, huslots, huqueue, hucurrent, hupool⟩, hurec⟩ := drained_bare ht ho hopen hheld
    obtain ⟨hleave, hwords⟩ := u.leaveClosing_gives
    rw [huh, hh] at hleave hwords
    simp only [if_true] at hleave
    have hread : ∀ r, memRead u.leaveClosing.mem (recAddr r 0) = memRead u.mem (recAddr r 0) := fun r => by
      have hrange := recAddr_zero_le r
      exact hwords.read _ (recAddr_mem r (by decide)) (lookup_leavingWords (by omega) true u.presence.level (u.tracker.state != .idle))
    refine ⟨_, hexec, ?_⟩
    rw [hleaves]
    refine ⟨by rw [hleave], by rw [hleave], by rw [hleave], by rw [hleave], by rw [hleave], by rw [hleave], by rw [hleave], by rw [hleave],
      by rw [hleave, hul], by rw [hleave], by rw [hleave, hut], by rw [hleave, huheads], by rw [hleave, huslots], by rw [hleave, huqueue],
      by rw [hleave, hucurrent], by rw [hleave, hupool], ?_, ?_, fun r hr => ?_⟩
    · rw [hwords stGauge (by decide)]
      rfl
    · rw [hwords stSource (by decide)]
      rfl
    · obtain ⟨hcomplete, hstate⟩ := hurec r hr
      exact ⟨by rw [hleave]; exact hcomplete, (hread r).trans hstate⟩

end Sys2Proof.Machine
end

section
/-! PROOFS. The summary of a tube and the words of its record after its sections were written (R126, R133, R136, Table 11-7). -/

namespace Sys2Proof.Machine

open Safety

/-! ### The first of the greatest (R136) -/

/-- The first entry of a list whose first component is greatest. -/
def firstMost (l : List (Nat × Nat)) : Option (Nat × Nat) := l.find? fun e => e.1 == ((l.map Prod.fst).max?).getD 0

/-- The better of two entries, the first where they are equal. -/
def better (u v : Nat × Nat) : Nat × Nat := if u.1 < v.1 then v else u

theorem better_fst (u v : Nat × Nat) : (better u v).1 = max u.1 v.1 := by
  unfold better
  split <;> omega

theorem most_step (u v : Nat × Nat) (l : List (Nat × Nat)) :
    ((u :: v :: l).map Prod.fst).max? = ((better u v :: l).map Prod.fst).max? := by
  simp only [List.map_cons, List.max?_cons', List.foldl_cons, better_fst]

theorem le_most {l : List (Nat × Nat)} {e : Nat × Nat} (h : e ∈ l) : e.1 ≤ ((l.map Prod.fst).max?).getD 0 := by
  have hmem : e.1 ∈ l.map Prod.fst := List.mem_map_of_mem h
  obtain ⟨m, hmax⟩ := Option.isSome_iff_exists.1 (List.isSome_max?_of_mem hmem)
  rw [hmax]
  exact (List.max?_eq_some_iff.1 hmax).2 _ hmem

theorem firstMost_step (u v : Nat × Nat) (l : List (Nat × Nat)) : firstMost (u :: v :: l) = firstMost (better u v :: l) := by
  have hu : u.1 ≤ (((u :: v :: l).map Prod.fst).max?).getD 0 := le_most (by simp)
  have hv : v.1 ≤ (((u :: v :: l).map Prod.fst).max?).getD 0 := le_most (by simp)
  unfold firstMost
  rw [← most_step]
  generalize (((u :: v :: l).map Prod.fst).max?).getD 0 = m at hu hv
  simp only [List.find?_cons]
  unfold better
  by_cases h : u.1 < v.1
  · have hne : (u.1 == m) = false := beq_false_of_ne (by omega)
    rw [if_pos h, hne]
  · rw [if_neg h]
    by_cases he : u.1 = m
    · rw [beq_iff_eq.2 he]
    · have hne : (u.1 == m) = false := beq_false_of_ne he
      have hne' : (v.1 == m) = false := beq_false_of_ne (by omega)
      rw [hne, hne']

theorem firstMost_toList (o : Option (Nat × Nat)) : firstMost o.toList = o := by
  cases o with
  | none => rfl
  | some u => simp [firstMost]

theorem most_of_firstMost (l : List (Nat × Nat)) : ((firstMost l).map Prod.fst).getD 0 = ((l.map Prod.fst).max?).getD 0 := by
  cases hl : (l.map Prod.fst).max? with
  | none =>
    rw [List.max?_eq_none_iff, List.map_eq_nil_iff] at hl
    rw [hl]
    rfl
  | some m =>
    have hmem := (List.max?_eq_some_iff.1 hl).1
    obtain ⟨e, he, hfst⟩ := List.mem_map.1 hmem
    have hsome : (firstMost l).isSome = true := by
      rw [firstMost, List.find?_isSome, hl]
      exact ⟨e, he, by simpa using hfst⟩
    obtain ⟨f, hf⟩ := Option.isSome_iff_exists.1 hsome
    have := List.find?_some hf
    rw [hl] at this
    rw [hf]
    simpa using this

/-! ### The tube summary (R133, R136) -/

theorem countsInSummary_iff (x : SectionResult) :
    countsInSummary x = decide (x.flags &&& (sfExcludedHead ||| sfExcludedTail ||| sfNoData) = 0#16) := by
  have hdistrib : x.flags &&& (sfExcludedHead ||| sfExcludedTail ||| sfNoData)
      = (x.flags &&& sfExcludedHead) ||| (x.flags &&& sfExcludedTail) ||| (x.flags &&& sfNoData) := by
    ext i hi
    simp only [BitVec.getElem_and, BitVec.getElem_or, Bool.and_or_distrib_left]
  rw [hdistrib]
  simp only [countsInSummary, hasFlag, bne, ← Bool.not_and, Bool.not_not, Bool.beq_eq_decide_eq, BitVec.or_eq_zero_iff, Bool.decide_and]

theorem countedIn_cons (x : SectionResult) (xs : List SectionResult) :
    countedIn (x :: xs) = if countsInSummary x then x :: countedIn xs else countedIn xs := by
  rw [countsInSummary_iff]
  exact List.filter_cons

/-- A value joins the ends of a range. -/
theorem min_step (o : Option (Nat × Nat)) (lo hi : Nat) (l : List Nat) :
    (o.toList.map Prod.fst ++ lo :: l).min? = ((widen o lo hi).toList.map Prod.fst ++ l).min? := by
  cases o <;> rfl

theorem max_step (o : Option (Nat × Nat)) (lo hi : Nat) (l : List Nat) :
    (o.toList.map Prod.snd ++ hi :: l).max? = ((widen o lo hi).toList.map Prod.snd ++ l).max? := by
  cases o <;> rfl

/-- The best eccentricity after one section more (R133). -/
def bestAfter (o : Option (Nat × Nat)) (v : Nat × Nat) : Option (Nat × Nat) :=
  match o with
  | none => some v
  | some b => if b.1 < v.1 then some v else some b

theorem best_step (o : Option (Nat × Nat)) (v : Nat × Nat) (l : List (Nat × Nat)) :
    firstMost (o.toList ++ v :: l) = firstMost ((bestAfter o v).toList ++ l) := by
  cases o with
  | none => rfl
  | some b =>
    have hbest : bestAfter (some b) v = some (better b v) := by
      simp only [bestAfter, better]
      split <;> rfl
    rw [hbest]
    exact firstMost_step b v l

/-- The summary with its best entry found as the first of the greatest. -/
theorem summaryAfter_eq (a : TubeAccum) (xs : List SectionResult) :
    summaryAfter a xs =
      if a.count + (countedIn xs).length = 0 then [0#16, 0#16, 0#16, 0#16, 0xFFFF#16, 0#16]
      else
        [BitVec.ofNat 16 (((a.range.toList.map Prod.fst ++ (countedIn xs).map SectionResult.min).min?).getD 0),
         BitVec.ofNat 16 (((a.range.toList.map Prod.snd ++ (countedIn xs).map SectionResult.max).max?).getD 0),
         BitVec.ofNat 16 (nearestNat (a.sumT + ((countedIn xs).map SectionResult.sumT).sum)
             (a.sumN + ((countedIn xs).map SectionResult.n).sum)),
         BitVec.ofNat 16 (((firstMost (a.best.toList ++ (countedIn xs).map (fun y => (y.ecc, y.index)))).map Prod.fst).getD 0),
         BitVec.ofNat 16 (((firstMost (a.best.toList ++ (countedIn xs).map (fun y => (y.ecc, y.index)))).map Prod.snd).getD 0),
         BitVec.ofNat 16 (min (a.count + (countedIn xs).length) 65535)] := by
  unfold summaryAfter
  dsimp only
  rw [most_of_firstMost]
  rfl

theorem offer_eq (a : TubeAccum) (x : SectionResult) :
    offer a x = if countsInSummary x then
        { sumN := a.sumN + x.n, sumT := a.sumT + x.sumT, range := widen a.range x.min x.max
          best := bestAfter a.best (x.ecc, x.index), count := a.count + 1 }
      else a := by
  unfold offer bestAfter
  cases a.best <;> rfl

/-- One section offered, the others to come (R133). -/
theorem summaryAfter_cons (a : TubeAccum) (x : SectionResult) (xs : List SectionResult) :
    summaryAfter a (x :: xs) = summaryAfter (offer a x) xs := by
  rw [summaryAfter_eq, summaryAfter_eq, countedIn_cons, offer_eq]
  cases hc : countsInSummary x with
  | false => rfl
  | true =>
    have hcount : a.count + (countedIn xs).length.succ = a.count + 1 + (countedIn xs).length := by omega
    simp only [if_true, List.map_cons, List.sum_cons, List.length_cons, min_step _ x.min x.max, max_step _ x.min x.max, best_step,
      ← Nat.add_assoc, hcount]

theorem summaryAfter_nil (a : TubeAccum) : summaryAfter a [] = summaryWords a := by
  rw [summaryAfter_eq]
  unfold summaryWords
  simp only [countedIn, List.filter_nil, List.map_nil, List.append_nil, List.length_nil, Nat.add_zero, List.sum_nil, firstMost_toList]
  split
  · rfl
  · cases a.range <;> cases a.best <;> rfl

theorem summaryAfter_foldl (xs : List SectionResult) (a : TubeAccum) : summaryAfter a xs = summaryWords (xs.foldl offer a) := by
  induction xs generalizing a with
  | nil => exact summaryAfter_nil a
  | cons x xs ih => rw [summaryAfter_cons, ih, List.foldl_cons]

/-! ### The tube after its sections (R132) -/

theorem writtenTube_counts (ys : List SectionResult) (free : List BlockNo) (x : Tube) :
    (writtenTube free x ys).outcome = x.outcome ∧ (writtenTube free x ys).totals = x.totals
      ∧ (writtenTube free x ys).serial = x.serial ∧ (writtenTube free x ys).accum = ys.foldl offer x.accum := by
  induction ys generalizing free x with
  | nil => exact ⟨rfl, rfl, rfl, rfl⟩
  | cons y ys ih =>
    obtain ⟨h1, h2, h3, h4⟩ := ih free.tail (tubeAfter free x y)
    cases free <;> exact ⟨h1, h2, h3, h4⟩

/-- POOL_EXHAUSTED is given where the free list is shorter than the list of sections (R132). -/
theorem writtenTube_exhausted (ys : List SectionResult) (free : List BlockNo) (x : Tube) :
    (writtenTube free x ys).flags = if free.length < ys.length then x.flags ||| tfPoolExhausted else x.flags := by
  induction ys generalizing free x with
  | nil => rfl
  | cons y ys ih =>
    rw [writtenTube, ih]
    cases free with
    | nil =>
      have hagain : x.flags ||| tfPoolExhausted ||| tfPoolExhausted = x.flags ||| tfPoolExhausted := by
        rw [BitVec.or_assoc, BitVec.or_self]
      simp only [tubeAfter, List.tail_nil, List.length_nil, List.length_cons, Nat.zero_lt_succ, if_true, hagain]
      split <;> rfl
    | cons b rest =>
      simp only [tubeAfter, List.tail_cons, List.length_cons, Nat.add_lt_add_iff_right]
      rfl

/-- The words 13 to 53 of the record as the close writes them (R135, R136). -/
theorem completionWords_written {x : Tube} (ho : x.order.isSome = true) (z : Nat) (free : List BlockNo) (xs : List SectionResult) :
    completionWords (writtenTube free x xs) z = recordWordsAfter x z (decide (free.length < xs.length)) xs := by
  obtain ⟨houtcome, htotals, -, haccum⟩ := writtenTube_counts xs free x
  obtain ⟨-, horder, -⟩ := writtenTube_kept xs free x
  have hclosing : closingTotals (writtenTube free x xs) = x.totals := by
    rw [closingTotals, horder, ho, if_pos rfl, htotals]
  unfold completionWords recordWordsAfter
  rw [hclosing, houtcome, writtenTube_exhausted, haccum, summaryAfter_foldl]
  have hheads : x.totals.headMisfires.toList = [x.totals.headMisfires[0], x.totals.headMisfires[1], x.totals.headMisfires[2],
      x.totals.headMisfires[3]] := by
    refine List.ext_getElem (by simp) fun i hi _ => ?_
    have hlt : i < 4 := by simpa using hi
    match i, hlt with
    | 0, _ | 1, _ | 2, _ | 3, _ => simp
  have htwo : words32 = fun n => [BitVec.ofNat 16 (n % 65536), BitVec.ofNat 16 (n / 65536)] := funext fun n => by
    have hlow : BitVec.ofNat 16 (n % 65536) = BitVec.ofNat 16 n := BitVec.eq_of_toNat_eq (by simp)
    rw [words32, hlow]
    rfl
  have hcode : outcomeCode x.outcome = (match x.outcome with
      | .normal => 0#16
      | .aborted => 1#16
      | .overlength => 2#16
      | .noOrder => 3#16) := by
    cases x.outcome <;> rfl
  dsimp only
  rw [hheads, htwo, hcode]
  simp only [decide_eq_true_eq]
  rfl

end Sys2Proof.Machine
end

section
/-! PROOFS. The chain of the sections of a tube: their blocks, the links between them, and the blocks' owners (R132, R162). -/

namespace Sys2Proof.Machine

open Safety

/-- The address of the link to a section: in the block before, or the first-block word (R132). -/
def linkAddr (r : RecNo) (last : Option BlockNo) : Nat :=
  match last with
  | some p => blkAddr p 0
  | none => recAddr r 10

theorem sectionWords_block (b : BlockNo) (rest : List BlockNo) (r : RecNo) (x : Tube) (y : SectionResult) (ys : List SectionResult) :
    sectionWords (b :: rest) r x (y :: ys)
      = sectionWords rest r { x with lastBlock := some b, written := min (x.written + 1) 65535 } ys
        ++ ([(recAddr r 11, BitVec.ofNat 16 (min (x.written + 1) 65535)),
            (linkAddr r x.lastBlock, BitVec.ofNat 16 b.val)]
          ++ (wordsAt (blkAddr b 0) (blockWordsOf y) ++ [(stFreeCount, BitVec.ofNat 16 rest.length)])) := by
  simp only [sectionWords, List.append_assoc]
  rfl

theorem blkAddr_low (b : BlockNo) (off : Nat) : 0x1200 ≤ blkAddr b off := by
  simp only [blkAddr, Config.blockBase]
  omega

theorem recAddr_below (r : RecNo) {off : Nat} (h : off < 128) : recAddr r off < 0x1200 := by
  have := r.isLt
  simp only [recAddr, Config.recordBase, Config.recordWords]
  omega

theorem linkAddr_ne {r : RecNo} {last : Option BlockNo} {b : BlockNo} {off : Nat} (hoff : off < 64)
    (h : ∀ p, last = some p → p = b → off ≠ 0) : blkAddr b off ≠ linkAddr r last := by
  have hlow := blkAddr_low b off
  have hrec := recAddr_below r (off := 10) (by decide)
  unfold linkAddr
  cases last with
  | none => dsimp only; omega
  | some p =>
    intro he
    obtain ⟨hp, h0⟩ := (blkAddr_inj b p off 0 hoff (by decide)).1 he
    exact h p rfl hp.symm h0

/-- The words of the bookkeeping of one section lie outside the block `b`, but for the link to it. -/
theorem lookup_bookkeeping {r : RecNo} {last : Option BlockNo} {b : BlockNo} {off : Nat} (hoff : off < 64)
    (h : ∀ p, last = some p → p = b → off ≠ 0) (w v : Word) :
    ([(recAddr r 11, w), (linkAddr r last, v)] : List (Nat × Word)).lookup (blkAddr b off) = none := by
  have hlow := blkAddr_low b off
  have hrec := recAddr_below r (off := 11) (by decide)
  rw [List.lookup_cons, beq_false_of_ne (by omega), lookup_single, if_neg (linkAddr_ne hoff h)]

theorem lookup_block_same (b : BlockNo) (y : SectionResult) {off : Nat} (hoff : off < 64) (l : List (Nat × Word)) :
    (wordsAt (blkAddr b 0) (blockWordsOf y) ++ l).lookup (blkAddr b off) = some ((blockWordsOf y).getD off 0#16) := by
  have haddr : blkAddr b off = blkAddr b 0 + off := rfl
  rw [lookup_append, lookup_wordsAt, blockWordsOf_length, haddr, if_pos (by omega), Nat.add_sub_cancel_left]
  rfl

theorem lookup_block_other {b c : BlockNo} (h : b ≠ c) (y : SectionResult) {off : Nat} (hoff : off < 64) (w : Word) :
    (wordsAt (blkAddr c 0) (blockWordsOf y) ++ [(stFreeCount, w)]).lookup (blkAddr b off) = none := by
  have hlow := blkAddr_low b off
  have hcount : blkAddr b off ≠ stFreeCount := by simp only [stFreeCount]; omega
  have hout : ¬(blkAddr c 0 ≤ blkAddr b off ∧ blkAddr b off < blkAddr c 0 + 64) := fun ⟨h1, h2⟩ => by
    have hsame : blkAddr b off = blkAddr c (blkAddr b off - blkAddr c 0) := by
      have : blkAddr c (blkAddr b off - blkAddr c 0) = blkAddr c 0 + (blkAddr b off - blkAddr c 0) := rfl
      omega
    exact h ((blkAddr_inj b c off (blkAddr b off - blkAddr c 0) hoff (by omega)).1 hsame).1
  rw [lookup_append, lookup_wordsAt, blockWordsOf_length, if_neg hout, lookup_single, if_neg hcount]
  rfl

/-- Lost sections touch no block (R132). -/
theorem lookup_sections_lost (xs : List SectionResult) (r : RecNo) (x : Tube) (b : BlockNo) (off : Nat) :
    (sectionWords [] r x xs).lookup (blkAddr b off) = none := by
  have hlow := blkAddr_low b off
  have hrec := recAddr_below r (off := 12) (by decide)
  induction xs generalizing x with
  | nil => rfl
  | cons y ys ih =>
    rw [sectionWords, lookup_append, ih, lookup_ifChanged, if_neg fun hc => by omega]
    rfl

/-- A block that is not free is left alone, but for the link from it (R132). -/
theorem lookup_sections_other (xs : List SectionResult) {free : List BlockNo} {r : RecNo} {x : Tube} {b : BlockNo} (hb : b ∉ free)
    {off : Nat} (hoff : off < 64) (h : ∀ p, x.lastBlock = some p → p = b → off ≠ 0) :
    (sectionWords free r x xs).lookup (blkAddr b off) = none := by
  induction xs generalizing free x with
  | nil => rfl
  | cons y ys ih =>
    cases free with
    | nil => exact lookup_sections_lost _ r x b off
    | cons c rest =>
      obtain ⟨hc, hrest⟩ := not_or.1 (mt List.mem_cons.2 hb)
      rw [sectionWords_block, lookup_append, lookup_append, lookup_bookkeeping hoff h, lookup_block_other hc y hoff,
        ih (x := { x with lastBlock := some c, written := min (x.written + 1) 65535 }) hrest fun p hp he => absurd
          ((Option.some.inj hp).trans he) (Ne.symm hc)]
      rfl

/-- The last block of the tube is linked to the first free one (R132). -/
theorem lookup_sections_link {xs : List SectionResult} (hxs : xs ≠ []) {free : List BlockNo} {r : RecNo} {x : Tube} {b : BlockNo}
    (hlast : x.lastBlock = some b) (hb : b ∉ free) :
    (sectionWords free r x xs).lookup (blkAddr b 0) = (free.head?).map (fun q => BitVec.ofNat 16 q.val) := by
  cases xs with
  | nil => exact absurd rfl hxs
  | cons y ys =>
    cases free with
    | nil => exact lookup_sections_lost _ r x b 0
    | cons c rest =>
      obtain ⟨hc, hrest⟩ := not_or.1 (mt List.mem_cons.2 hb)
      have hlow := blkAddr_low b 0
      have hrec := recAddr_below r (off := 11) (by decide)
      rw [sectionWords_block, lookup_append, lookup_append, hlast,
        lookup_sections_other ys (x := { x with lastBlock := some c, written := min (x.written + 1) 65535 }) hrest (by decide)
          fun p hp he => absurd ((Option.some.inj hp).trans he) (Ne.symm hc)]
      rw [List.lookup_cons, beq_false_of_ne (by omega), lookup_single, linkAddr, if_pos rfl]
      rfl

theorem blockWordsOf_link (y : SectionResult) : (blockWordsOf y).getD 0 0#16 = 0xFFFF#16 := rfl

/-- The link word of the `i`-th section of the list, `free` being the free list (R132). -/
def linkWord (free : List BlockNo) (xs : List SectionResult) (i : Nat) : Word :=
  if i + 1 < xs.length then ((free[i + 1]?).map (fun q : BlockNo => BitVec.ofNat 16 q.val)).getD 0xFFFF#16 else 0xFFFF#16

/-- The first section of a list in its block: its words, and the link to the next section's block (R132). -/
theorem lookup_sections_first {free : List BlockNo} {r : RecNo} {x : Tube} {b : BlockNo} {y : SectionResult} {ys : List SectionResult}
    (hb : b ∉ free) (hlast : ∀ p, x.lastBlock = some p → p ≠ b) {off : Nat} (hoff : off < 64) :
    (sectionWords (b :: free) r x (y :: ys)).lookup (blkAddr b off)
      = some (if off = 0 then linkWord (b :: free) (y :: ys) 0 else (blockWordsOf y).getD off 0#16) := by
  rw [sectionWords_block, lookup_append, lookup_append, lookup_bookkeeping hoff fun p hp he => absurd he (hlast p hp),
    lookup_block_same b y hoff, Option.none_or]
  by_cases h0 : off = 0
  · subst h0
    rw [if_pos rfl, blockWordsOf_link]
    unfold linkWord
    cases ys with
    | nil => rfl
    | cons y' ys =>
      rw [lookup_sections_link (x := { x with lastBlock := some b, written := min (x.written + 1) 65535 }) (List.cons_ne_nil _ _) rfl hb,
        if_pos (by simp)]
      cases free <;> rfl
  · rw [if_neg h0, lookup_sections_other ys (x := { x with lastBlock := some b, written := min (x.written + 1) 65535 }) hb hoff
      fun _ _ _ => h0]
    rfl

/-- Each section of a list stands in its block, linked to the next one's (R132). -/
theorem lookup_sections_at (xs : List SectionResult) {free : List BlockNo} {r : RecNo} {x : Tube} (hnodup : free.Nodup)
    (hlast : ∀ p, x.lastBlock = some p → p ∉ free) {i : Nat} {b : BlockNo} {y : SectionResult} (hb : free[i]? = some b)
    (hy : xs[i]? = some y) {off : Nat} (hoff : off < 64) :
    (sectionWords free r x xs).lookup (blkAddr b off)
      = some (if off = 0 then linkWord free xs i else (blockWordsOf y).getD off 0#16) := by
  induction xs generalizing free x i with
  | nil => exact absurd hy (by simp)
  | cons y0 ys ih =>
    cases free with
    | nil => exact absurd hb (by simp)
    | cons b0 rest =>
      obtain ⟨hb0, hrest⟩ := List.nodup_cons.1 hnodup
      cases i with
      | zero =>
        obtain rfl : b0 = b := by simpa using hb
        obtain rfl : y0 = y := by simpa using hy
        exact lookup_sections_first hb0 (fun p hp he => hlast p hp (he ▸ List.mem_cons_self)) hoff
      | succ i =>
        have hin := ih (x := { x with lastBlock := some b0, written := min (x.written + 1) 65535 }) hrest
          (fun p hp => by obtain rfl := Option.some.inj hp; exact hb0) (by simpa using hb) (by simpa using hy)
        have hlink : linkWord (b0 :: rest) (y0 :: ys) (i + 1) = linkWord rest ys i := by
          simp [linkWord]
        rw [sectionWords_block, lookup_append, hin, hlink]
        rfl

/-- The blocks of the sections are the record's, the others keep their owner (R162). -/
theorem sectionsWritten_owner (xs : List SectionResult) (s : State) (r : RecNo) (x : Tube) (b : BlockNo) :
    (sectionsWritten s r x xs).pool.owner[b] = if b ∈ s.pool.free.take xs.length then some r else s.pool.owner[b] := by
  induction xs generalizing s x with
  | nil => simp [sectionsWritten]
  | cons y ys ih =>
    rw [sectionsWritten_cons, ih, (sectionsWritten_one_tube s r x y).2]
    cases hf : s.pool.free with
    | nil => simp [sectionsWritten, hf]
    | cons c rest =>
      simp only [sectionsWritten, hf, List.tail_cons, List.length_cons, List.take_succ_cons, List.mem_cons, vset_getFin]
      by_cases hb : b ∈ rest.take ys.length
      · rw [if_pos hb, if_pos (.inr hb)]
      · rw [if_neg hb]
        by_cases hc : c = b
        · rw [if_pos hc, if_pos (.inl hc.symm)]
        · rw [if_neg hc, if_neg fun h => h.elim (fun e => hc e.symm) hb]

end Sys2Proof.Machine
end

section
/-! PROOFS. The close of a tube with an order (R112, R129, R132, R135 to R137, R148). -/

namespace Sys2Proof.Machine

open Safety

/-! ### The last section (R112) -/

/-- The PARTIAL section of the accumulator `a` of a tube that ends at `z`, none at zero length (R112). -/
def lastSection (r : Recipe) (a : Accum) (z : Nat) : List SectionResult :=
  if a.index * r.lSec < z then [markHead r.lSec r.headSkip (completeAccum r.lSec r.occMin a z sfPartial)] else []

theorem State.closeLast_eq {s : State} {x : Tube} {n : Snapshot} {a : Accum} (ht : s.tube = some x) (hn : s.tubeOrder = some n)
    (ha : x.opened = some a) :
    s.closeLast = { s with tube := some { x with
      opened := none, holdback := x.holdback ++ lastSection n.recipe a (x.zTail.getD s.tracker.z) } } := by
  have hz : s.zTail = x.zTail.getD s.tracker.z := by rw [State.zTail, ht]; rfl
  have hl : s.lSec = n.recipe.lSec := by rw [State.lSec, hn]; rfl
  have hocc : s.occMin = n.recipe.occMin := by rw [State.occMin, hn]; rfl
  have hopen : s.modTube (fun t => { t with opened := none }) = { s with tube := some { x with opened := none } } := by
    rw [State.modTube, ht, Option.map_some]
  have horder : ({ s with tube := some { x with opened := none } } : State).tubeOrder = some n :=
    (State.tubeOrder_withTube ht rfl).trans hn
  unfold State.closeLast lastSection
  rw [ht, Option.bind_some, ha]
  dsimp only
  rw [hopen, hz, hl, hocc]
  split
  · unfold State.appendHeld State.modTube State.lSec State.headSkip
    rw [horder]
    rfl
  · rw [List.append_nil]

/-- The sections that the close writes, judged against the tail zone (R129). -/
def closingSections (r : Recipe) (x : Tube) (a : Accum) (z : Nat) : List SectionResult :=
  (x.holdback ++ lastSection r a z).map (markTail r.tailSkip z)

/-- Steps 1 to 3 of R135. -/
theorem State.writeHeld_gives {s : State} {x : Tube} {n : Snapshot} {a : Accum} {r : RecNo} (ht : s.tube = some x) (hr : x.record = some r)
    (hn : s.tubeOrder = some n) (ha : x.opened = some a) :
    let xs := closingSections n.recipe x a (x.zTail.getD s.tracker.z)
    let u := s.closeLast.writeHeld
    u = { sectionsWritten s r x xs with
        mem := u.mem, tube := some { writtenTube s.pool.free x xs with opened := none, closing := x.closing, holdback := [] } }
      ∧ Wrote s u (sectionWords s.pool.free r x xs) := by
  intro xs u
  have hlast := State.closeLast_eq ht hn ha
  generalize hy : ({ x with
    opened := none, holdback := x.holdback ++ lastSection n.recipe a (x.zTail.getD s.tracker.z) } : Tube) = y at hlast
  have hyorder : y.order = x.order := by rw [← hy]
  have hyz : y.zTail = x.zTail := by rw [← hy]
  have hu : u = ({ s with tube := some { y with holdback := [] } } : State).writeSections xs := by
    have horder : ({ s with tube := some y } : State).tubeOrder = some n := (State.tubeOrder_withTube ht hyorder).trans hn
    have hskip : ({ s with tube := some y } : State).tailSkip = n.recipe.tailSkip := by rw [State.tailSkip, horder]; rfl
    have hheld : ({ s with tube := some y } : State).held = x.holdback ++ lastSection n.recipe a (x.zTail.getD s.tracker.z) := by
      rw [← hy]
      rfl
    have htail : ({ s with tube := some y } : State).zTail = x.zTail.getD s.tracker.z := by
      rw [← hyz]
      rfl
    simp only [u, hlast, State.writeHeld, hskip, hheld, htail]
    rfl
  have hyr : ({ y with holdback := [] } : Tube).record = some r := by rw [← hy]; exact hr
  obtain ⟨hstate, hwords⟩ := State.writeSections_written xs ({ s with tube := some { y with holdback := [] } } : State) r
    { y with holdback := [] } rfl hyr
  rw [← hu] at hstate hwords
  have hwithout : ({ y with holdback := [] } : Tube) = { x with opened := none, closing := x.closing, holdback := [] } := by rw [← hy]
  constructor
  · rw [sectionsWritten_withTube, sectionsWritten_eq xs s r _ x, hwithout, writtenTube_sections] at hstate
    exact hstate
  · rw [hwithout, sectionWords_congr xs s.pool.free r { x with opened := none, closing := x.closing, holdback := [] } x
      rfl rfl rfl] at hwords
    exact hwords.of_mem rfl rfl

/-! ### Lot accounting (R148) -/

theorem or_cause_if (c : Bool) (a m : Byte) : (a ||| (if c then m else 0#8)) = if c then a ||| m else a := by
  cases c
  · exact BitVec.or_zero
  · rfl

/-- The words of the lot accounting (R148, R153). -/
def lotWords (spent dropped : Bool) (j : SlotNo) : List (Nat × Word) :=
  ifChanged spent stCurrent 0xFFFF#16 ++ (ifChanged spent (slotAddr j 0) 3#16
    ++ (ifChanged dropped (slotAddr j 1) 0#16 ++ ifChanged dropped (slotAddr j 2) 6#16))

theorem lookup_lotWords (amended : Bool) (j : SlotNo) (a : Nat) :
    (lotWords true amended j).lookup a
      = ((if amended then [(slotAddr j 1, reqNone), (slotAddr j 2, ansDropped)] else [])
          ++ [(stCurrent, Config.noneWord), (slotAddr j 0, slotCode .spent)]).lookup a := by
  have hrange := slotAddr_range j (off := 0) (by decide)
  have hrange1 := slotAddr_range j (off := 1) (by decide)
  have hrange2 := slotAddr_range j (off := 2) (by decide)
  have h01 := slotAddr_ne_of_off j (a := 0) (b := 1) (by decide) (by decide) (by decide)
  have h02 := slotAddr_ne_of_off j (a := 0) (b := 2) (by decide) (by decide) (by decide)
  cases amended with
  | false => rfl
  | true =>
    refine (lookup_append_comm (xs := [(slotAddr j 1, 0#16), (slotAddr j 2, 6#16)])
      (ys := [(stCurrent, 0xFFFF#16), (slotAddr j 0, 3#16)]) ?_).symm
    by_cases h : a = stCurrent ∨ a = slotAddr j 0
    · refine .inl ?_
      have hlow : a ≠ slotAddr j 1 ∧ a ≠ slotAddr j 2 := by
        rcases h with h | h
        · simp only [h, stCurrent]
          omega
        · rw [h]
          exact ⟨h01, h02⟩
      rw [List.lookup_cons, beq_false_of_ne hlow.1, lookup_single, if_neg hlow.2]
    · obtain ⟨hc, hs⟩ := not_or.1 h
      exact .inr (by rw [List.lookup_cons, beq_false_of_ne hc, lookup_single, if_neg hs])

theorem State.lotAccounting_gives {s : State} {j : SlotNo} (ho : s.orderInUse = some j) :
    let spent := s.slots[j].finalTube || s.slots[j].cancelPending
    let dropped := spent && s.slots[j].amendment.isSome
    s.lotAccounting = { s with
        mem := s.lotAccounting.mem, slots := if spent then vset s.slots j (emptied s.slots[j] .spent) else s.slots
        current := if spent then none else s.current
        attnCause := s.attnCause ||| (if dropped then causeRequest else 0#8) }
      ∧ Wrote s s.lotAccounting (lotWords spent dropped j) := by
  intro spent dropped
  have hlot : s.lotAccounting = if spent = true then s.spendSlot j else s := by rw [State.lotAccounting, ho]
  cases hs : spent with
  | true =>
    have hdropped : dropped = s.slots[j].amendment.isSome := by simp only [dropped, hs, Bool.true_and]
    rw [hlot, hs, if_pos rfl, hdropped, or_cause_if]
    obtain ⟨-, -, -, hwords⟩ := s.spendSlot_effect j
    exact ⟨s.spendSlot_eq j, hwords.congr fun a _ => lookup_lotWords _ j a⟩
  | false =>
    have hdropped : dropped = false := by simp only [dropped, hs, Bool.false_and]
    rw [hlot, hs, if_neg Bool.false_ne_true, hdropped]
    refine ⟨?_, wrote_nil s s rfl⟩
    simp only [Bool.false_eq_true, if_false, BitVec.or_zero]

end Sys2Proof.Machine
end

section
/-! PROOFS. The close of a tube with an order, as a whole (R112, R129, R132, R135 to R137, R148). -/

namespace Sys2Proof.Machine

open Safety

/-- The close of a tube that has a record, step by step (R135, R137). -/
theorem State.closeTube_recorded {s : State} {x : Tube} {r : RecNo} (ht : s.tube = some x) (hr : x.record = some r) :
    s.closeTube = s.closeLast.writeHeld.closeRecord.lotAccounting.leaveClosing :=
  if_pos (by rw [State.hasRecord, ht, Option.bind_some, hr]; rfl)

/-- The state of a tube with an order once its record stands and its lot is accounted for (R135, R148). -/
theorem State.closing_gives {s : State} {x : Tube} {n : Snapshot} {a : Accum} {r : RecNo} {j : SlotNo} (ht : s.tube = some x)
    (hr : x.record = some r) (ho : x.order = some j) (hn : s.slots[j].snapshot = some n) (ha : x.opened = some a) :
    let z := x.zTail.getD s.tracker.z
    let xs := closingSections n.recipe x a z
    let u := sectionsWritten s r x xs
    let done := min (s.tubesCompleted + 1) 65535
    let spent := s.slots[j].finalTube || s.slots[j].cancelPending
    let dropped := spent && s.slots[j].amendment.isSome
    let t := s.closeLast.writeHeld.closeRecord.lotAccounting
    t = { s with
        mem := t.mem, tube := t.tube, pool := u.pool, records := vset s.records r .complete, tubesCompleted := done
        attnCause := u.attnCause ||| causeTube ||| (if dropped then causeRequest else 0#8)
        slots := if spent then vset s.slots j (emptied s.slots[j] .spent) else s.slots
        current := if spent then none else s.current }
      ∧ Wrote s t (lotWords spent dropped j ++ (closedWords r (writtenTube s.pool.free x xs) z done (s.tubesCompleted ≠ done)
        ++ sectionWords s.pool.free r x xs)) := by
  intro z xs u done spent dropped t
  have horder : s.tubeOrder = some n := by
    simp only [State.tubeOrder, State.orderInUse, ht, Option.bind_some, ho, hn]
  obtain ⟨hheld, hheldWords⟩ := State.writeHeld_gives ht hr horder ha
  generalize hv : s.closeLast.writeHeld = v at hheld hheldWords
  have hself := sectionsWritten_self xs s r x
  obtain ⟨hkr, hko, hkz, -⟩ := writtenTube_kept xs s.pool.free x
  generalize hy : ({ writtenTube s.pool.free x xs with opened := none, closing := x.closing, holdback := [] } : Tube) = y at hheld
  have hvt : v.tube = some y := by rw [hheld]
  have hyr : y.record = some r := by rw [← hy]; exact hkr.trans hr
  have hyo : y.order = some j := by rw [← hy]; exact hko.trans ho
  have hyz : y.zTail = x.zTail := by rw [← hy]; exact hkz
  have hvs : v = { s with mem := v.mem, pool := u.pool, attnCause := u.attnCause, tube := some y } := by
    generalize v.mem = m at hheld
    rw [hheld]
    change ({ sectionsWritten s r x xs with mem := m, tube := some y } : State) = _
    rw [hself]
  have hvc : v.tubesCompleted = s.tubesCompleted ∧ v.tracker = s.tracker ∧ v.slots = s.slots := by
    rw [hvs]
    exact ⟨rfl, rfl, rfl⟩
  obtain ⟨hvdone, hvtracker, hvslots⟩ := hvc
  obtain ⟨hrec, hrecWords⟩ := State.closeRecord_gives hvt hyr
  rw [hvdone, hyz, hvtracker] at hrecWords
  rw [hvdone] at hrec
  have hsame : closedWords r y z done (s.tubesCompleted ≠ done)
      = closedWords r (writtenTube s.pool.free x xs) z done (s.tubesCompleted ≠ done) := by rw [← hy]; rfl
  generalize hw : v.closeRecord = w at hrec hrecWords
  have hwuse : w.orderInUse = some j := by rw [hrec, State.orderInUse]; dsimp only; rw [hvt, Option.bind_some, hyo]
  have hwslots : w.slots = s.slots := by rw [hrec]; exact hvslots
  obtain ⟨hlot, hlotWords⟩ := State.lotAccounting_gives hwuse
  rw [hwslots] at hlot hlotWords
  have ht' : t = w.lotAccounting := by simp only [t, hv, hw]
  rw [ht']
  refine ⟨?_, ?_⟩
  · generalize w.lotAccounting = l at hlot
    rw [hlot, hrec, hvs]
  · have hall := (hheldWords.trans hrecWords).trans hlotWords
    rw [← hsame]
    exact hall

/-- The words of the close lie outside the blocks, but for those of the sections. -/
theorem lookup_leaving_block (b : BlockNo) (off : Nat) (halted waiting moving spent dropped : Bool) (j : SlotNo) (r : RecNo) (x : Tube)
    (z done : Nat) (changed : Bool) :
    (leavingWords halted waiting moving ++ (lotWords spent dropped j ++ closedWords r x z done changed)).lookup (blkAddr b off) = none := by
  have hlow := blkAddr_low b off
  have hrec := recAddr_below r (off := 127) (by decide)
  have hrec0 : recAddr r 127 = recAddr r 0 + 127 := rfl
  have h0 := slotAddr_range j (off := 0) (by decide)
  have h1 := slotAddr_range j (off := 1) (by decide)
  have h2 := slotAddr_range j (off := 2) (by decide)
  have hout : ¬InRecord r (blkAddr b off) := fun h => by
    obtain ⟨-, h⟩ := h
    omega
  have hlot : (lotWords spent dropped j).lookup (blkAddr b off) = none := by
    simp only [lotWords, lookup_append, lookup_ifChanged, stCurrent]
    rw [if_neg (by omega), if_neg (by omega), if_neg (by omega), if_neg (by omega)]
    rfl
  have hclosed : (closedWords r x z done changed).lookup (blkAddr b off) = none := by
    simp only [closedWords, lookup_append, lookup_ifChanged, lookup_single, stCompleted, stLastSerial]
    rw [if_neg (by omega), if_neg (by omega), if_neg (by omega), lookup_wordsAt_record (by rw [List.length_replicate]) hout,
      lookup_wordsAt_record (by rw [completionWords_length]; decide) hout]
    rfl
  rw [lookup_append, lookup_append, lookup_leavingWords (by omega), hlot, hclosed]
  rfl

end Sys2Proof.Machine
end

section
/-! PROOFS. The close of a tube with an order settles its obligation (R132, R135 to R137). -/

namespace Sys2Proof.Machine

open Safety

theorem or_or_and_self (a m d : Byte) : (a ||| m ||| d) &&& m = m :=
  BitVec.eq_of_getElem_eq fun i hi => by
    simp only [BitVec.getElem_and, BitVec.getElem_or]
    cases m[i] <;> simp

/-- The words of the whole close, first the gauge's. -/
def closeWords (s : State) (x : Tube) (r : RecNo) (j : SlotNo) (xs : List SectionResult) (spent dropped : Bool) (z done : Nat) :
    List (Nat × Word) :=
  leavingWords s.haltPending s.presence.level (s.tracker.state != .idle)
    ++ (lotWords spent dropped j ++ (closedWords r (writtenTube s.pool.free x xs) z done (s.tubesCompleted ≠ done)
      ++ sectionWords s.pool.free r x xs))

/-- The order in which the statement lists these words. -/
theorem closeWords_eq (s : State) {x : Tube} (ho : x.order.isSome = true) (r : RecNo) (j : SlotNo) (xs : List SectionResult)
    (spent dropped : Bool) (z done : Nat) :
    closeWords s x r j xs spent dropped z done =
      [(stGauge, if s.haltPending then 1#16 else if s.presence.level then 5#16 else 2#16)]
        ++ ifChanged s.haltPending stSource 0#16
        ++ ifChanged (s.haltPending && s.tracker.state != .idle) stTracking 0#16
        ++ ifChanged spent stCurrent 0xFFFF#16 ++ ifChanged spent (slotAddr j 0) 3#16
        ++ ifChanged dropped (slotAddr j 1) 0#16 ++ ifChanged dropped (slotAddr j 2) 6#16
        ++ ifChanged (s.tubesCompleted ≠ done) stCompleted (BitVec.ofNat 16 done)
        ++ [(stLastSerial, BitVec.ofNat 16 x.serial), (recAddr r 0, 2#16)]
        ++ wordsAt (recAddr r 88) (List.replicate 40 0#16)
        ++ wordsAt (recAddr r 13) (recordWordsAfter x z (decide (s.pool.free.length < xs.length)) xs)
        ++ sectionWords s.pool.free r x xs := by
  obtain ⟨-, -, hserial, -⟩ := writtenTube_counts xs s.pool.free x
  rw [closeWords, leavingWords, lotWords, closedWords, completionWords_written ho, hserial]
  simp only [List.append_assoc, List.cons_append, List.nil_append]

/-- A block word after the close (R132). -/
theorem lookup_closeWords_block (s : State) (x : Tube) (r : RecNo) (j : SlotNo) (xs : List SectionResult) (spent dropped : Bool)
    (z done : Nat) (b : BlockNo) (off : Nat) :
    (closeWords s x r j xs spent dropped z done).lookup (blkAddr b off) = (sectionWords s.pool.free r x xs).lookup (blkAddr b off) := by
  have hnone := lookup_leaving_block b off s.haltPending s.presence.level (s.tracker.state != .idle) spent dropped j r
    (writtenTube s.pool.free x xs) z done (s.tubesCompleted ≠ done)
  rw [lookup_append, lookup_append] at hnone
  rw [closeWords, lookup_append, lookup_append, lookup_append, ← Option.or_assoc, ← Option.or_assoc]
  rw [← Option.or_assoc] at hnone
  rw [hnone]
  rfl

theorem lookup_closeWords_state (s : State) (x : Tube) (r : RecNo) (j : SlotNo) (xs : List SectionResult) (spent dropped : Bool)
    (z done : Nat) : (closeWords s x r j xs spent dropped z done).lookup (recAddr r 0) = some 2#16 := by
  have hrec := recAddr_zero_le r
  have h0 := slotAddr_range j (off := 0) (by decide)
  have h1 := slotAddr_range j (off := 1) (by decide)
  have h2 := slotAddr_range j (off := 2) (by decide)
  have hlot : (lotWords spent dropped j).lookup (recAddr r 0) = none := by
    simp only [lotWords, lookup_append, lookup_ifChanged, stCurrent]
    rw [if_neg (by omega), if_neg (by omega), if_neg (by omega), if_neg (by omega)]
    rfl
  rw [closeWords, lookup_append, lookup_append, lookup_append, lookup_leavingWords (by omega), hlot, lookup_closed_state]
  rfl

/-- Settles O46: the sections in their blocks, then the record, the lot and the gauge. -/
theorem closeWritesEverySectionInItsChain : Obligations.CloseWritesEverySectionInItsChain := by
  intro s x r j n a hpool hg hf ht hr ho hn ha _ hlast z r0 last xs spent
  obtain ⟨hnodup, howner⟩ := hpool
  have hexec : exec .closeCompletion s = .next s.closeTube := congrArg Host.Outcome.next (State.closeIfDrained_drained hg hf)
  obtain ⟨hclose, hcloseWords⟩ := State.closing_gives ht hr ho hn ha
  have hxs : closingSections n.recipe x a (x.zTail.getD s.tracker.z) = xs := rfl
  rw [hxs] at hclose hcloseWords
  have htube := State.closeTube_recorded ht hr
  generalize s.closeLast.writeHeld.closeRecord.lotAccounting = w at hclose hcloseWords htube
  obtain ⟨hleave, hleaveWords⟩ := w.leaveClosing_gives
  have hkept : w.haltPending = s.haltPending ∧ w.presence = s.presence ∧ w.tracker = s.tracker := by
    rw [hclose]
    exact ⟨rfl, rfl, rfl⟩
  obtain ⟨hwhalt, hwpresence, hwtracker⟩ := hkept
  rw [hwhalt, hwpresence, hwtracker] at hleaveWords
  have hall : Wrote s w.leaveClosing (closeWords s x r j xs spent (spent && s.slots[j].amendment.isSome) z
      (min (s.tubesCompleted + 1) 65535)) := hcloseWords.trans hleaveWords
  have hunlinked : ∀ p, x.lastBlock = some p → p ∉ s.pool.free := fun p hp hfree => by
    have := (howner p).1 hfree
    rw [hlast p hp] at this
    exact Option.some_ne_none r this
  generalize hv : w.leaveClosing = t at hleave hall htube
  rw [hwhalt, hwpresence, hclose] at hleave
  refine ⟨t, by rw [hexec, htube], by rw [hleave], by rw [hleave], by rw [hleave], ?_, fun b => ?_,
      fun i b y hb hy => ⟨?_, fun off hoff hoff' => ?_⟩,
    ?_, ?_, by rw [hleave]; rfl, by rw [hleave], ?_, ?_⟩
  · rw [hleave]
    exact sectionsWritten_free s r x xs
  · rw [hleave]
    exact sectionsWritten_owner xs s r x b
  · rw [hall _ (blkAddr_lt b 0 (by decide)), lookup_closeWords_block, lookup_sections_at xs hnodup hunlinked hb hy (by decide), if_pos rfl]
    rfl
  · rw [hall _ (blkAddr_lt b off hoff'), lookup_closeWords_block, lookup_sections_at xs hnodup hunlinked hb hy hoff',
      if_neg (by omega)]
    rfl
  · rw [hleave]
    exact or_or_and_self _ _ _
  · rw [hall _ (recAddr_mem r (by decide)), lookup_closeWords_state]
    rfl
  · have hgauge : t.gauge = if s.haltPending then .halted else if s.presence.level then .waitClear else .armed := by rw [hleave]
    have hrecords : t.records = vset s.records r .complete := by rw [hleave]
    have hslots : t.slots = if spent then vset s.slots j (emptied s.slots[j] .spent) else s.slots := by rw [hleave]
    have hcurrent : t.current = if spent then none else s.current := by rw [hleave]
    rw [hgauge, hrecords, hslots, hcurrent]
    exact hleave
  · rw [← closeWords_eq s (by rw [ho]; rfl)]
    exact hall

end Sys2Proof.Machine
end

section
/-! PROOFS. What the receiver signals of one ct do to the comparators, the peak detector and the crossings (R42 to R44, R49). -/

namespace Sys2Proof.Machine

open Safety

/-! ### The model's accessors are those of the statements -/

theorem State.codeInUse_eq (s : State) (k : Head) : s.codeInUse k = codeFor s k := by
  unfold State.codeInUse codeFor State.channelPhase State.inFlight
  rcases s.slot with _ | ⟨head, startAt, phase⟩
  · rfl
  · by_cases hk : head = k
    · cases phase <;> simp [hk, phaseShot, Option.filter]
    · cases phase <;> simp [hk, phaseShot, Option.filter]

theorem posOutput_eq (code : Nat) (on : Bool) (level : Int) :
    posOutput code on level = if on then decide ((code : Int) - 2 ≤ level) else decide ((code : Int) < level) := by
  cases on <;> rfl

theorem compare_codeFor (s : State) (k : Head) (level : Int) :
    compare (codeFor s k) s.chans[k] level = heard s k level := by
  have hneg : ∀ c : Nat, (level ≤ 2 - (c : Int)) = ((c : Int) - 2 ≤ -level) := fun c => by simp only [eq_iff_iff]; omega
  have hlow : ∀ c : Nat, (level < -(c : Int)) = ((c : Int) < -level) := fun c => by simp only [eq_iff_iff]; omega
  unfold compare heard negOutput
  simp only [posOutput_eq, hneg, hlow]

theorem State.tuAt_eq (s : State) (k : Head) (offset : Nat) : s.tuAt k offset = timeOn s k offset := by
  unfold State.tuAt timeOn State.channelPhase
  rcases s.slot with _ | ⟨head, startAt, phase⟩
  · rfl
  · by_cases hk : head = k
    · cases phase <;> simp [hk, Config.tuPerCt]
    · simp [hk]

theorem State.gateRuns_eq (s : State) (k : Head) : s.gateRuns k = gateWasRunning s k := by
  unfold State.gateRuns gateWasRunning
  rcases s.slot with _ | ⟨head, startAt, phase⟩
  · rfl
  · cases phase <;> simp [beq_eq_decide]

/-- Holding the larger of two readings, as a maximum (R49). -/
theorem holdPeak_excursion (c : Capture) (p : Polarity) (level : Int) :
    holdPeak c (excursion p level)
      = { c with peak := BitVec.ofNat 8 (max c.peak.toNat (min (if p = .pos then level else -level).toNat 255)) } := by
  have hx : excursion p level = BitVec.ofNat 8 (min (if p = .pos then level else -level).toNat 255) := by
    cases p <;> rfl
  rw [hx]
  generalize (if p = .pos then level else -level).toNat = b
  have hb : (BitVec.ofNat 8 (min b 255)).toNat = min b 255 := by simp
  unfold holdPeak
  rw [hb]
  split
  · next h => rw [Nat.max_eq_right h.le]
  · next h => rw [Nat.max_eq_left (not_lt.1 h), BitVec.ofNat_toNat, BitVec.setWidth_eq]

theorem followsAt_iff (n : Snapshot) (c : Capture) (t : Nat) :
    followsAt n c t = true ↔ c.sample = none ∧ ∀ e ∈ c.echoes.head?, t < e + 160 * n.recipe.peakDelay := by
  unfold followsAt sampleInstant
  cases c.echoes.head? <;> simp [Config.tuPerCt]

theorem State.eq_withSlot {s : State} {x : Option HeadSlot} (h : s.slot = x) : { s with slot := x } = s := h ▸ rfl

theorem State.followEcho_eq (s : State) (k : Head) (t : Nat) (level : Int) :
    s.followEcho k t level = { s with slot := slotHears s.slot k t level } := by
  unfold State.followEcho State.channelPhase slotHears
  rcases hslot : s.slot with _ | ⟨head, startAt, phase⟩
  · exact (State.eq_withSlot hslot).symm
  · by_cases hk : head = k
    · subst hk
      cases phase with
      | opened sh c =>
        simp only [if_true, Option.map_some, true_and]
        by_cases hf : followsAt sh.bound c t = true
        · rw [if_pos hf, if_pos ((followsAt_iff _ _ _).1 hf), holdPeak_excursion, State.setPhase, hslot]
          rfl
        · rw [if_neg hf, if_neg (mt (followsAt_iff _ _ _).2 hf)]
          exact (State.eq_withSlot hslot).symm
      | idle | quiet _ | awaitConf _ | blanking _ =>
        simp only [if_true, Option.map_some]
        exact (State.eq_withSlot hslot).symm
    · simp only [hk, if_false, Option.map_some, false_and]
      cases phase <;> exact (State.eq_withSlot hslot).symm

/-! ### One change of a signal -/

theorem State.takeLevel_eq (s : State) (q : EchoPoint) : s.takeLevel q = afterSignal s q := by
  unfold State.takeLevel afterSignal
  rw [State.followEcho_eq, State.codeInUse_eq, compare_codeFor, State.tuAt_eq]

/-- An output that goes from inactive to active makes its event (R43). -/
theorem dueIf_rise (a b : Bool) (i : Instr) : (dueIf (!a && b) i).toList = if a = false ∧ b = true then [i] else [] := by
  cases a <;> cases b <;> rfl

theorem crossingsOf_heard (s : State) (k : Head) (level : Int) (t : Nat) :
    crossingsOf k s.chans[k] (heard s k level) t = rises s k level t := by
  rw [crossingsOf, dueIf_rise, dueIf_rise, rises]

theorem State.echoPoint_eq (s : State) (q : EchoPoint) :
    s.echoPoint q = (afterSignal s q, rises s q.head q.level (timeOn s q.head q.offset)) := by
  have hc : (afterSignal s q).chans[q.head] = heard s q.head q.level := by
    simp only [afterSignal, vset_getFin, if_true]
  unfold State.echoPoint
  simp only [State.takeLevel_eq, hc, crossingsOf_heard, State.tuAt_eq]

/-- Several changes of one ct act one after another (R43). -/
theorem State.echoPoints_eq (s : State) (qs : List EchoPoint) : s.echoPoints qs = afterSignals s qs := by
  induction qs generalizing s with
  | nil => rfl
  | cons q qs ih => simp only [State.echoPoints, afterSignals, State.echoPoint_eq, ih]

/-! ### A level leaves the shot of the slot -/

/-- The slot `b` is the slot `a`, or differs from it in the reading of its peak detector alone. -/
def SlotHeard (a b : Option HeadSlot) : Prop :=
  b = a ∨ ∃ h sh c p, a = some h ∧ h.phase = .opened sh c ∧ b = some { h with phase := .opened sh { c with peak := p } }

/-- A level moves the peak detector alone (R49). -/
theorem slotHears_heard (a : Option HeadSlot) (k : Head) (t : Nat) (level : Int) : SlotHeard a (slotHears a k t level) := by
  rcases a with _ | ⟨head, startAt, phase⟩
  · exact .inl rfl
  · cases phase with
    | opened sh c =>
      simp only [slotHears, Option.map_some]
      split
      · exact .inr ⟨_, sh, c, _, rfl, rfl, rfl⟩
      · exact .inl rfl
    | idle | quiet _ | awaitConf _ | blanking _ => exact .inl rfl

/-- A level on another channel leaves the slot. -/
theorem slotHears_other {h : HeadSlot} {k : Head} (hk : h.head ≠ k) (t : Nat) (level : Int) :
    slotHears (some h) k t level = some h := by
  obtain ⟨head, startAt, phase⟩ := h
  have hk : head ≠ k := hk
  cases phase <;> simp [slotHears, hk]

theorem slotHears_head (h : HeadSlot) (k : Head) (t : Nat) (level : Int) :
    ∃ a : HeadSlot, a.head = h.head ∧ slotHears (some h) k t level = some a := by
  obtain hs | ⟨a, sh, c, p, ha, -, hs⟩ := slotHears_heard (some h) k t level
  · exact ⟨h, rfl, hs⟩
  · obtain rfl : h = a := Option.some.inj ha
    refine ⟨_, ?_, hs⟩
    rfl

theorem timeOn_of_heard {s u : State} (hs : SlotHeard s.slot u.slot) (hn : u.now = s.now) (k : Head) (offset : Nat) :
    timeOn u k offset = timeOn s k offset := by
  unfold timeOn
  rw [hn]
  obtain hu | ⟨h, sh, c, p, ha, hp, hu⟩ := hs
  · rw [hu]
  · simp only [hu, ha, hp]

theorem gateWasRunning_of_heard {s u : State} (hs : SlotHeard s.slot u.slot) (hn : u.now = s.now) (k : Head) :
    gateWasRunning u k = gateWasRunning s k := by
  unfold gateWasRunning
  rw [hn]
  obtain hu | ⟨h, sh, c, p, ha, hp, hu⟩ := hs
  · rw [hu]
  · simp only [hu, ha, hp]

theorem inFlight_of_heard {s u : State} (hs : SlotHeard s.slot u.slot) : u.inFlight = s.inFlight := by
  unfold State.inFlight
  obtain hu | ⟨h, sh, c, p, ha, hp, hu⟩ := hs
  · rw [hu]
  · simp only [hu, ha, hp, Option.bind_some, phaseShot]

theorem heard_of_heard {s u : State} (hs : SlotHeard s.slot u.slot) {k : Head} (hc : u.chans[k] = s.chans[k]) (level : Int) :
    heard u k level = heard s k level := by
  unfold heard codeFor
  rw [inFlight_of_heard hs, hc]

theorem rises_of_heard {s u : State} (hs : SlotHeard s.slot u.slot) {k : Head} (hc : u.chans[k] = s.chans[k]) (level : Int)
    (t : Nat) : rises u k level t = rises s k level t := by
  unfold rises
  rw [heard_of_heard hs hc, hc]

/-! ### The standing signals at the beginning of a ct -/

/-- The crossings of channel `k`'s standing signal (R44; log 33). -/
def standingRises (s : State) (k : Head) : List Instr :=
  if gateWasRunning s k then rises s k s.pins.echo[k] 0 else []

/-- The state with the channels of `ks` settled at their standing signals. -/
def settledOn (s : State) (ks : List Head) : State :=
  { s with
    chans := Vector.ofFn (fun k => if k ∈ ks then heard s k s.pins.echo[k] else s.chans[k])
    slot := s.slot.bind (fun h => if h.head ∈ ks then slotHears s.slot h.head (timeOn s h.head 0) s.pins.echo[h.head] else s.slot) }

theorem settledOn_chans (s : State) (ks : List Head) (k : Head) :
    (settledOn s ks).chans[k] = if k ∈ ks then heard s k s.pins.echo[k] else s.chans[k] := by
  simp [settledOn]

theorem settledOn_heard (s : State) (ks : List Head) : SlotHeard s.slot (settledOn s ks).slot := by
  unfold settledOn
  cases hslot : s.slot with
  | none => exact .inl rfl
  | some h =>
    by_cases hk : h.head ∈ ks
    · simp only [Option.bind_some, hk, if_true]
      exact slotHears_heard _ _ _ _
    · exact .inl (by simp [hk])

/-- A running quiet gate has the time 0 on its channel's time base. -/
theorem timeOn_of_gateWasRunning {s : State} {k : Head} (h : gateWasRunning s k = true) (offset : Nat) : timeOn s k offset = 0 := by
  unfold gateWasRunning at h
  unfold timeOn
  cases hslot : s.slot with
  | none => rfl
  | some a => cases hp : a.phase <;> simp_all

theorem State.standing_eq (s : State) (k : Head) :
    s.standing k = ({ s with
      chans := vset s.chans k (heard s k s.pins.echo[k])
      slot := slotHears s.slot k (timeOn s k 0) s.pins.echo[k] }, standingRises s k) := by
  unfold State.standing standingRises
  simp only [State.echoPoint_eq, State.gateRuns_eq, afterSignal, vset_same]
  by_cases hg : gateWasRunning s k = true
  · rw [if_pos hg, if_pos hg, timeOn_of_gateWasRunning hg]
  · rw [if_neg hg, if_neg hg]

/-- One more channel settles. -/
theorem settleChannel_settledOn (s : State) {ks : List Head} {k : Head} (hk : k ∉ ks) (found : List Instr) :
    settleChannel (settledOn s ks, found) k = (settledOn s (ks ++ [k]), found ++ standingRises s k) := by
  have hs := settledOn_heard s ks
  have hc : (settledOn s ks).chans[k] = s.chans[k] := by rw [settledOn_chans, if_neg hk]
  have hpins : (settledOn s ks).pins = s.pins := rfl
  have hfound : standingRises (settledOn s ks) k = standingRises s k := by
    unfold standingRises
    rw [gateWasRunning_of_heard hs rfl, rises_of_heard hs hc, hpins]
  have hchans : vset (settledOn s ks).chans k (heard s k s.pins.echo[k]) = (settledOn s (ks ++ [k])).chans := by
    ext j hj
    have hj' : (settledOn s ks).chans[j] = _ := settledOn_chans s ks ⟨j, hj⟩
    have hj'' : (settledOn s (ks ++ [k])).chans[j] = _ := settledOn_chans s (ks ++ [k]) ⟨j, hj⟩
    rw [hj'', vset_getElem, hj']
    by_cases h : k = ⟨j, hj⟩
    · subst h; simp
    · have h' : ¬(⟨j, hj⟩ : Head) = k := fun e => h e.symm
      have h'' : ¬k.val = j := fun e => h (Fin.ext e)
      simp [h', h'']
  have hslot : slotHears (settledOn s ks).slot k (timeOn s k 0) s.pins.echo[k] = (settledOn s (ks ++ [k])).slot := by
    unfold settledOn
    cases hsl : s.slot with
    | none => rfl
    | some h =>
      by_cases hh : h.head = k
      · have hnot : h.head ∉ ks := hh ▸ hk
        simp [hh, hk]
      · by_cases hm : h.head ∈ ks
        · obtain ⟨a, hha, ha⟩ := slotHears_head h h.head (timeOn s h.head 0) s.pins.echo[h.head]
          have hne : a.head ≠ k := hha ▸ hh
          simp only [Option.bind_some, hm, if_true, ha, slotHears_other hne, List.mem_append, true_or]
        · simp [hm, hh, slotHears_other hh]
  unfold settleChannel
  simp only [State.standing_eq, hfound, hpins, heard_of_heard hs hc, timeOn_of_heard hs rfl, hchans, hslot]
  rfl

theorem foldl_settleChannel (s : State) (ks : List Head) (hd : ks.Nodup) :
    ks.foldl settleChannel (s, []) = (settledOn s ks, ks.flatMap (standingRises s)) := by
  induction ks using List.reverseRecOn with
  | nil =>
    have hslot : s.slot.bind (fun _ => s.slot) = s.slot := by cases s.slot <;> rfl
    have hchans : Vector.ofFn (fun k : Head => s.chans[k]) = s.chans := by ext j hj; simp
    have : settledOn s [] = s := by
      simp only [settledOn, List.not_mem_nil, if_false, hslot, hchans]
    rw [this]
    rfl
  | append_singleton ks k ih =>
    obtain ⟨hks, -, hdisj⟩ := List.nodup_append.1 hd
    have hk : k ∉ ks := fun h => hdisj k h k (List.mem_singleton_self k) rfl
    rw [List.foldl_append, ih hks, List.foldl_cons, List.foldl_nil, settleChannel_settledOn s hk, List.flatMap_append]
    simp

theorem settledOn_all (s : State) : settledOn s (List.finRange 4) = standingSignals s := by
  simp only [settledOn, standingSignals, List.mem_finRange, if_true]

/-- The outputs settle at the standing signals, channel by channel (R42, R43; log 33). -/
theorem State.settleEchoes_eq (s : State) :
    s.settleEchoes = (standingSignals s, (List.finRange 4).flatMap (standingRises s)) := by
  rw [State.settleEchoes, foldl_settleChannel s _ (List.nodup_finRange 4), settledOn_all]

/-- The receiver signals over one ct (R42 to R44, R49). -/
theorem State.echoTick_eq (s : State) (qs : List EchoPoint) :
    s.echoTick qs = ((afterSignals (standingSignals s) qs).1,
      (List.finRange 4).flatMap (standingRises s) ++ (afterSignals (standingSignals s) qs).2) := by
  unfold State.echoTick
  simp only [State.settleEchoes_eq, State.echoPoints_eq]

end Sys2Proof.Machine
end

section
/-! PROOFS. One ct of the sampled inputs settles its obligation (R5, R42 to R44, R49, R55 to R57, R86, R120). -/

namespace Sys2Proof.Machine

open Safety

/-! ### Filters -/

/-- The encoder filter samples in this ct (R86). -/
def encSampled (f : EncFilter) (t : Tracker) : Bool := decide (encInterval f ≤ t.encPhase + 2)

/-- The filtered encoder level changes in this ct (R86). -/
def encFlips (f : EncFilter) (t : Tracker) (x : Bool) : Bool :=
  encSampled f t && x != t.encLevel && (f == .off || decide (2 ≤ t.encRun))

theorem encNeeded_reached (f : EncFilter) (n : Nat) : encNeeded f ≤ n + 1 ↔ (f == .off || decide (2 ≤ n)) = true := by
  cases f <;> simp [encNeeded]

theorem encTick_eq (f : EncFilter) (t : Tracker) (x : Bool) :
    encTick f t x = { t with
      encPhase := if encSampled f t then t.encPhase + 2 - encInterval f else t.encPhase + 2
      encLevel := if encFlips f t x then x else t.encLevel
      encRun := if !encSampled f t then t.encRun else if x = t.encLevel ∨ encFlips f t x = true then 0 else t.encRun + 1 } := by
  by_cases hs : encInterval f ≤ t.encPhase + 2
  · have hsampled : encSampled f t = true := decide_eq_true hs
    rw [encTick, if_pos hs, encSample]
    by_cases hx : x = t.encLevel
    · have hf : encFlips f t x = false := by simp [encFlips, hx]
      simp [hsampled, hx]
    · by_cases hn : encNeeded f ≤ t.encRun + 1
      · have hf : encFlips f t x = true := by
          rw [encFlips, hsampled, (encNeeded_reached f t.encRun).1 hn]
          simp [hx]
        simp [hsampled, hf, hx, hn]
      · have hf : encFlips f t x = false := by
          rw [encFlips, Bool.eq_false_iff.2 (mt (encNeeded_reached f t.encRun).2 hn), Bool.and_false]
        simp [hsampled, hf, hx, hn]
  · have hsampled : encSampled f t = false := decide_eq_false hs
    have hf : encFlips f t x = false := by simp [encFlips, hsampled]
    simp [encTick, hs, hsampled, hf]

/-- A rise of the filtered level is a change to the active level (R86). -/
theorem encTick_rises (f : EncFilter) (t : Tracker) (x : Bool) :
    (!t.encLevel && (encTick f t x).encLevel) = (encFlips f t x && x) := by
  rw [encTick_eq]
  cases hf : encFlips f t x with
  | false => simp
  | true =>
    have hx : x ≠ t.encLevel := by
      rintro rfl
      simp [encFlips] at hf
    cases x <;> cases hl : t.encLevel <;> simp_all

/-- The filtered presence level changes in this ct (R120). -/
def presenceEdge (c : Setup) (p : Presence) (x : Bool) : Bool := x != p.level && decide (debounceCt c ≤ p.run + 1)

theorem presenceSample_eq (c : Setup) (p : Presence) (x : Bool) :
    presenceSample c p x
      = ({ p with run := if x = p.level ∨ presenceEdge c p x = true then 0 else p.run + 1 }, presenceEdge c p x) := by
  unfold presenceSample presenceEdge
  by_cases hx : x = p.level
  · simp [hx]
  · by_cases hr : debounceCt c ≤ p.run + 1 <;> simp [hx, hr]

/-! ### Receiver -/

/-- The receiver reads a sample point of its frame in the ct that ends at `now` (R57). -/
def rxPoint (c : Setup) (now : Nat) (r : Receiver) : Bool :=
  (r.state == .data || r.state == .parity || r.state == .stop)
    && decide (r.t0 + (c.pyroDiv + 1) / 2 + (r.bits.length + 1) * (c.pyroDiv + 1) = now)

theorem stateAfter_succ (c : Setup) (n : Nat) :
    stateAfter c (n + 1) = if n < 7 then .data else if n = 7 ∧ c.pyroParity ≠ .none then .parity else .stop := by
  unfold stateAfter
  by_cases h7 : n < 7
  · rw [if_pos h7, if_pos (by omega)]
  · rw [if_neg h7, if_neg (by omega)]
    simp

theorem rxTick_eq (c : Setup) (now : Nat) (r : Receiver) (mark : Bool) :
    rxTick c now r mark = { r with
      prevMark := mark
      markRun := if r.state ≠ .settle then r.markRun else if mark then r.markRun + 1 else 0
      bits := if rxPoint c now r then r.bits ++ [mark] else r.bits
      state := if rxPoint c now r = false then r.state else if r.bits.length < 7 then .data
        else if r.bits.length = 7 ∧ c.pyroParity ≠ .none then .parity else .stop } := by
  obtain ⟨state, t0, bits, markRun, prevMark⟩ := r
  rw [← stateAfter_succ]
  by_cases hp : t0 + (c.pyroDiv + 1) / 2 + (bits.length + 1) * (c.pyroDiv + 1) = now
  · cases state <;> simp [rxTick, rxPoint, halfBit, bitTime, hp]
  · cases state <;> simp [rxTick, rxPoint, halfBit, bitTime, hp]

/-! ### One ct -/

/-- The events that the sampled inputs of a running part give at the end of a ct (R56, R86, R120). -/
def sampledEvents (s : State) (x : PinSample) : List Instr :=
  (if encFlips s.cfg.encFilter s.tracker x.enc && x.enc then
      [.realStep (min (s.now / 25 - s.tracker.stepAt / 25) 16777215)] else [])
    ++ (if presenceEdge s.cfg s.presence x.present then [edgeRow s.gauge x.present] else [])
    ++ (if s.link.rx.state = .ready ∧ s.link.rx.prevMark = true ∧ (x.pyro != s.cfg.pyroInverted) = false then [.startEdge] else [])

theorem dueIf_toList (b : Bool) (i : Instr) : (dueIf b i).toList = if b then [i] else [] := by cases b <;> rfl

theorem startsFrame_iff (r : Receiver) (mark : Bool) :
    startsFrame r mark = true ↔ r.state = .ready ∧ r.prevMark = true ∧ mark = false := by
  simp [startsFrame, and_assoc]

/-- The encoder filter touches its own level, run and phase alone. -/
theorem encTick_only (f : EncFilter) (t : Tracker) (x : Bool) :
    encTick f t x = { t with
      encLevel := (encTick f t x).encLevel, encRun := (encTick f t x).encRun, encPhase := (encTick f t x).encPhase } := by
  rw [encTick_eq]

theorem State.sampleInputs_eq (s : State) (x : PinSample) :
    s.sampleInputs x = ({ s with
      tracker := encTick s.cfg.encFilter s.tracker x.enc
      presence := (presenceSample s.cfg s.presence x.present).1
      link := { s.link with rx := rxTick s.cfg s.now s.link.rx (x.pyro != s.cfg.pyroInverted) } }, sampledEvents s x) := by
  have hpresent : (presenceSample s.cfg s.presence x.present).2 = presenceEdge s.cfg s.presence x.present := by
    rw [presenceSample_eq]
  have hstart : (if startsFrame s.link.rx (lineMark s.cfg x.pyro) = true then [Instr.startEdge] else [])
      = if s.link.rx.state = .ready ∧ s.link.rx.prevMark = true ∧ lineMark s.cfg x.pyro = false then [Instr.startEdge] else [] :=
    if_congr (startsFrame_iff _ _) rfl rfl
  unfold State.sampleInputs
  simp only [dueIf_toList, hpresent, encTick_rises, hstart, ← encTick_only]
  rfl

/-- The receiver signals touch the channels, the ECHO levels and the slot alone. -/
theorem afterSignals_only (s : State) (qs : List EchoPoint) : OnlyEchoes s (afterSignals (standingSignals s) qs).1 := by
  have h := s.echoTick_only qs
  rwa [State.echoTick_eq] at h

theorem State.clearWord_of_notInit {s : State} (h : s.gauge ≠ .init) : s.clearWord = s := by
  simp [State.clearWord, State.initRunning, h]

/-- One ct of a running part (R42 to R44, R49, R55 to R57, R86, R120). -/
theorem State.tick_of_runs {s : State} {x : PinSample} (hr : runs s.gauge = true) (hx : x = s.nextSample) :
    s.tick = { s with
      now := s.now + 1
      inputs := s.inputs.tail
      pins := { s.pins with
        present := x.present, enc := x.enc, pyro := x.pyro, echo := (afterSignals (standingSignals s) x.echo).1.pins.echo }
      tracker := encTick s.cfg.encFilter s.tracker x.enc
      presence := (presenceSample s.cfg s.presence x.present).1
      link := { s.link with rx := rxTick s.cfg (s.now + 1) s.link.rx (x.pyro != s.cfg.pyroInverted) }
      chans := (afterSignals (standingSignals s) x.echo).1.chans
      slot := (afterSignals (standingSignals s) x.echo).1.slot
      pending := (List.finRange 4).flatMap (standingRises s) ++ (afterSignals (standingSignals s) x.echo).2
        ++ sampledEvents { s with now := s.now + 1 } x } := by
  have hg : s.gauge ≠ .init := by
    rintro h
    rw [h] at hr
    cases hr
  have honly : OnlyEchoes s _ := afterSignals_only s x.echo
  unfold State.tick
  rw [if_pos hr, ← hx, State.echoTick_eq]
  generalize afterSignals (standingSignals s) x.echo = v at honly ⊢
  obtain ⟨v, found⟩ := v
  dsimp only at honly ⊢
  rw [State.clearWord_of_notInit (s := v.advance x) (by rw [honly]; exact hg), honly]
  rw [State.sampleInputs_eq]
  rfl

/-- One ct of a part in HALTED (R43, R54). -/
theorem State.tick_of_halted {s : State} {x : PinSample} (hh : s.gauge = .halted) (hx : x = s.nextSample) :
    s.tick = { s with
      now := s.now + 1
      inputs := s.inputs.tail
      pins := { s.pins with
        present := x.present, enc := x.enc, pyro := x.pyro, echo := (afterSignals (standingSignals s) x.echo).1.pins.echo }
      chans := (afterSignals (standingSignals s) x.echo).1.chans
      slot := (afterSignals (standingSignals s) x.echo).1.slot } := by
  have honly : OnlyEchoes s _ := afterSignals_only s x.echo
  unfold State.tick
  rw [if_neg (by rw [hh]; decide), ← hx, State.echoTick_eq]
  generalize (afterSignals (standingSignals s) x.echo).1 = v at honly ⊢
  dsimp only
  rw [State.clearWord_of_notInit (s := v.advance x) (by rw [honly]; exact hh ▸ by decide), honly]
  rfl

/-- One ct of INIT (R5). -/
theorem State.tick_of_init {s : State} (hi : s.gauge = .init) :
    s.tick = (State.advance (afterSignals (standingSignals s) s.nextSample.echo).1 s.nextSample).clearWord := by
  unfold State.tick
  rw [if_neg (by rw [hi]; decide), State.echoTick_eq]

/-- The clearing clears every word but those of the setup block in a soft one (R4, R5). -/
theorem cleared_iff {soft : Bool} {b : Nat} : cleared soft b = true ↔ ¬(soft = true ∧ 0x0100 ≤ b ∧ b ≤ 0x01FF) := by
  cases soft
  · simp [cleared]
  · have hb : b < 0x0200 ↔ b ≤ 0x01FF := by omega
    by_cases hlow : 0x0100 ≤ b <;> simp [cleared, Config.setupBase, Config.setupEnd, hb, hlow]

theorem memRead_memClearOne (m : Memory) (soft : Bool) (b a : Nat) :
    memRead (memClearOne m soft b) a = if a = b ∧ ¬(soft = true ∧ 0x0100 ≤ a ∧ a ≤ 0x01FF) then 0#16 else memRead m a := by
  unfold memClearOne
  by_cases h : cleared soft b = true
  · rw [if_pos h, memRead_memErase]
    exact if_congr ⟨fun e => ⟨e, e ▸ cleared_iff.1 h⟩, fun e => e.1⟩ rfl rfl
  · rw [if_neg h, if_neg]
    rintro ⟨rfl, e⟩
    exact h (cleared_iff.2 e)

theorem State.clearWord_of_running {s : State} (hr : s.initRunning = true) (hn : s.clearing.next < Config.memWords) :
    s.clearWord = { s with
      mem := memClearOne s.mem s.clearing.soft s.clearing.next
      clearing := { s.clearing with next := s.clearing.next + 1 } } := by
  rw [State.clearWord, hr, if_pos (by simpa using hn)]

/-- With no timer event due, the clearing of INIT has not come to its end (R5, R6). -/
theorem clearing_runs_of_notDue {s : State} (hd : s.due = none) (hr : s.initRunning = true) : s.clearing.next < Config.memWords := by
  by_contra h
  have hdue : s.dueInit = some .initComplete := by
    rw [State.dueInit, hr]
    simp [dueIf, not_lt.1 h]
  rw [State.due, hdue] at hd
  cases hd

/-- Channels that stand at their signals find nothing at the beginning of a ct. -/
theorem standingRises_of_settled {s : State} {k : Head} (h : heard s k s.pins.echo[k] = s.chans[k]) : standingRises s k = [] := by
  unfold standingRises rises
  rw [h]
  cases s.chans[k].cmpPos <;> cases s.chans[k].cmpNeg <;> simp

theorem standingSignals_heard (s : State) : SlotHeard s.slot (standingSignals s).slot :=
  settledOn_all s ▸ settledOn_heard s (List.finRange 4)

/-- Settles O59, from what one ct does in a running part, in HALTED and in INIT. -/
theorem sampledInputsAreFiltered : Obligations.SampledInputsAreFiltered := by
  refine ⟨fun s x hp hd hr hx => ?_, fun s x hp hd hh hx => ?_, fun s hp hd hi hra => ?_⟩
  · have hx : x = s.nextSample := hx
    have ht := State.tick_of_runs hr hx
    intro c e phase interval sampled flips p edge bit mark rx point events standing level0 slot0
    have hevents : sampledEvents { s with now := s.now + 1 } x = events := rfl
    refine ⟨s.tick, step_of_notDue hp hd, ?_, fun hq => ?_, fun q hq hset => ?_, ?_⟩
    · rw [ht, encTick_eq, presenceSample_eq, rxTick_eq]
      rfl
    · rw [ht, hq]
      refine ⟨rfl, fun k => ?_, rfl, ?_⟩
      · simp [afterSignals, standingSignals, level0, standing]
      · simp only [afterSignals, List.append_nil, hevents]
        rfl
    · have hchans : (standingSignals s).chans = s.chans := by
        ext j hj
        have := hset ⟨j, hj⟩
        simpa [standingSignals, level0, standing] using this
      have hch : (standingSignals s).chans[q.head] = s.chans[q.head] := by rw [hchans]
      have hs := standingSignals_heard s
      have hnone : (List.finRange 4).flatMap (standingRises s) = [] :=
        List.flatMap_eq_nil_iff.2 fun k _ => standingRises_of_settled (hset k)
      rw [ht, hq]
      refine ⟨rfl, ?_, ?_, ?_⟩
      · simp only [afterSignals, afterSignal, hchans, heard_of_heard hs hch]
      · simp only [afterSignals, afterSignal, timeOn_of_heard hs rfl]
        rfl
      · simp only [afterSignals, rises_of_heard hs hch, timeOn_of_heard hs rfl, hnone, List.nil_append, List.append_nil, hevents]
    · rw [ht]
      refine ⟨rfl, rfl, rfl, ?_⟩
      simp only [hevents]
      rfl
  · have hx : x = s.nextSample := hx
    rw [step_of_notDue hp hd, State.tick_of_halted hh hx]
  · have hr : s.initRunning = true := by simp [State.initRunning, hi, hra]
    have honly : OnlyEchoes s _ := afterSignals_only s s.nextSample.echo
    refine ⟨s.tick, step_of_notDue hp hd, ?_⟩
    rw [State.tick_of_init hi]
    generalize (afterSignals (standingSignals s) s.nextSample.echo).1 = v at honly ⊢
    have hv : (v.advance s.nextSample).initRunning = true := by rw [honly]; exact hr
    have hn : (v.advance s.nextSample).clearing = s.clearing := by rw [honly]; rfl
    have hm : (v.advance s.nextSample).mem = s.mem := by rw [honly]; rfl
    rw [State.clearWord_of_running hv (hn ▸ clearing_runs_of_notDue hd hr), hn, hm]
    refine ⟨rfl, ?_, ?_, fun a _ => memRead_memClearOne _ _ _ _⟩
    · rw [honly]; exact hi
    · rw [honly]; exact hp

end Sys2Proof.Machine
end

section
/-! PROOFS. What INIT keeps and what its completion leaves settles its obligation (R3 to R6). -/

namespace Sys2Proof.Machine

open Safety

/-! ### A part whose blocks stand at their reset values -/

/-- Every block stands at its reset values, but for the comparator outputs (R3 to R6). -/
def AtReset (s : State) : Prop := s = { State.reset with
  resetActive := s.resetActive, clearing := s.clearing, mem := s.mem, pins := s.pins, chans := s.chans, now := s.now,
  inputs := s.inputs, pending := s.pending }

section
variable {s : State} (h : AtReset s)
include h

theorem AtReset.gauge : s.gauge = .init := congrArg State.gauge h
theorem AtReset.slot : s.slot = none := congrArg State.slot h
theorem AtReset.tube : s.tube = none := congrArg State.tube h
theorem AtReset.tracker : s.tracker = State.reset.tracker := (congrArg State.tracker h :)
theorem AtReset.link : s.link = State.reset.link := (congrArg State.link h :)
theorem AtReset.pool : s.pool = State.reset.pool := (congrArg State.pool h :)

theorem AtReset.isolated : s.isolated = true := by simp [State.isolated, h.gauge]

end

/-! ### What a command does to a part in INIT, and how a part comes to be in INIT -/

/-- From `s` to `t` the part does not come to be in INIT, and a part in INIT with its blocks at their reset values moves its pins alone. -/
structure StaysInInit (s t : State) : Prop where
  outside : s.gauge ≠ .init → t.gauge ≠ .init
  inside : AtReset s → ∃ p, t = { s with pins := p }

/-- How a command moves the part in regard to INIT (R3 to R6). -/
inductive InitMove (s : State) : State → Prop
  | resets : InitMove s s.fullReset
  | begins (soft : Bool) : InitMove s (s.beginInit soft)
  | completes (h : s.initRunning = true) : InitMove s s.completeInit
  | stays (t : State) (h : StaysInInit s t) : InitMove s t

/-- A command that the gauge law's moves make of the part, and that changes nothing in INIT. -/
theorem InitMove.of_reaches {s t : State} (h : Reaches s t) (hi : AtReset s → t = s) : InitMove s t :=
  .stays t ⟨h.keeps (P := fun v => v.gauge ≠ .init) Move.gauge_ne_init, fun a => ⟨s.pins, hi a⟩⟩

theorem InitMove.refl (s : State) : InitMove s s := .of_reaches (.refl s) fun _ => rfl

theorem State.releaseReset_initMove (s : State) : InitMove s s.releaseReset := by
  unfold State.releaseReset
  split
  · exact .begins false
  · exact .refl s

theorem State.completeInit_initMove (s : State) : InitMove s s.completeInit := by
  by_cases h : s.initRunning = true
  · exact .completes h
  · rw [State.completeInit, if_neg h]
    exact .refl s

theorem State.controlWrite_initMove (s : State) (w : Word) : InitMove s (s.controlWrite w) := by
  unfold State.controlWrite
  split
  · exact .refl s
  · split
    · exact .begins true
    · split
      · exact .refl s
      · next hg =>
        dsimp only
        have resumed : SameView (s.runStop w) (if hasFlag w ctlResume then (s.runStop w).resumeCmd else s.runStop w) := by
          split
          · exact State.resumeCmd_sameView _
          · exact .refl _
        exact .of_reaches ((s.runStop_reaches w).trans (resumed.trans (State.clearHeads_sameView _ w)).reaches)
          fun a => absurd a.gauge hg

theorem State.regWrite_initMove (s : State) (r : PortReg) (w : Word) : InitMove s (s.regWrite r w) := by
  have guarded : ∀ t : State, t.gauge = s.gauge → InitMove s (if s.isolated then s else t) := fun t ht =>
    .stays _ ⟨fun hg => by split <;> simpa [ht] using hg, fun a => ⟨s.pins, if_pos a.isolated⟩⟩
  cases r with
  | ident => exact .refl s
  | control => exact s.controlWrite_initMove w
  | attnCause => exact guarded _ rfl
  | attnMask => exact guarded _ rfl

theorem State.slotWrite_initMove (s : State) (j : SlotNo) (v : Word) : InitMove s (s.slotWrite j v) :=
  .of_reaches (s.slotWrite_reaches j v) fun a => if_pos a.isolated

theorem State.recWrite_initMove (s : State) (r : RecNo) (v : Word) : InitMove s (s.recWrite r v) :=
  .of_reaches (s.recWrite_reaches r v) fun a => if_pos a.isolated

theorem State.hostWrite_initMove (s : State) (a v : Word) : InitMove s (s.hostWrite a v) := by
  refine .of_reaches (s.hostWrite_reaches a v) fun h => ?_
  unfold State.hostWrite
  split
  · exact if_pos h.isolated
  · exact if_pos h.isolated
  · exact if_pos h.isolated

theorem State.takeEdge_ne_init (s : State) (high : Bool) (h : s.gauge ≠ .init) : (s.takeEdge high).gauge ≠ .init := by
  unfold State.takeEdge
  split
  · unfold State.headEvent
    dsimp only
    split
    · exact GaugeState.noConfusion
    · exact GaugeState.noConfusion
  · next hg =>
    exact ((State.endMeasuring_reaches hg none).trans (State.closeIfDrained_reaches _)).keeps
      (P := fun v => v.gauge ≠ .init) Move.gauge_ne_init h
  · exact GaugeState.noConfusion
  · exact h

theorem State.filteredEdge_initMove (s : State) (high : Bool) : InitMove s (s.filteredEdge high) := by
  refine .stays _ ⟨fun hg => ?_, fun a => ⟨{ s.pins with present := high }, ?_⟩⟩
  · unfold State.filteredEdge
    dsimp only
    split
    · exact State.takeEdge_ne_init _ high hg
    · exact hg
  · rw [State.filteredEdge, if_neg (by rw [a.gauge]; decide)]

theorem State.losePermit_initMove (s : State) : InitMove s s.losePermit :=
  .stays _ ⟨s.losePermit_reaches.keeps (P := fun v => v.gauge ≠ .init) Move.gauge_ne_init,
    fun a => ⟨{ s.pins with permit := false }, if_pos a.gauge⟩⟩

theorem AtReset.channelPhase {s : State} (h : AtReset s) (k : Head) : s.channelPhase k = .idle := by
  rw [State.channelPhase, h.slot]

/-- Every command resets the part, completes INIT, or leaves it as to INIT. -/
theorem exec_initMove (i : Instr) (s : State) : ∃ t, exec i s = .next t ∧ InitMove s t := by
  cases i with
  | fullReset => exact ⟨_, rfl, .resets⟩
  | resetRelease => exact ⟨_, rfl, s.releaseReset_initMove⟩
  | initComplete => exact ⟨_, rfl, s.completeInit_initMove⟩
  | softReset w | run w | stop w | resume w | clearHk k w => exact ⟨_, rfl, s.controlWrite_initMove _⟩
  | attnCauseWrite w | attnMaskWrite w | ignoredRegisterWrite r w => exact ⟨_, rfl, s.regWrite_initMove _ _⟩
  | hostMemoryWrite a v => exact ⟨_, rfl, s.hostWrite_initMove a v⟩
  | post j | cancel j | amend j | withdrawal j | badRequest j v => exact ⟨_, rfl, s.slotWrite_initMove j _⟩
  | release r | recordBadRequest r v => exact ⟨_, rfl, s.recWrite_initMove r _⟩
  | cycleStart o peak =>
    exact ⟨_, rfl, .of_reaches (s.cycleStart_reaches o peak) fun a => if_neg (by rw [a.gauge]; simp [runs])⟩
  | slotStart peak => exact ⟨_, rfl, .of_reaches (s.nextSlot_reaches peak) fun a => by rw [State.nextSlot, a.slot]⟩
  | fireDecision => exact ⟨_, rfl, .of_reaches s.fireDecision_reaches fun a => by rw [State.fireDecision, a.slot]⟩
  | confEdge k => exact ⟨_, rfl, .of_reaches (s.confEdge_reaches k) fun a => if_pos a.gauge⟩
  | misfire => exact ⟨_, rfl, .of_reaches s.misfire_reaches fun a => by rw [State.misfire, a.slot]⟩
  | endOfBlanking => exact ⟨_, rfl, .of_reaches s.endBlanking_reaches fun a => by rw [State.endBlanking, a.slot]⟩
  | crossing k c t => exact ⟨_, rfl, .of_reaches (s.crossing_reaches k c t) fun a => by rw [State.crossing, a.channelPhase]⟩
  | holdOffEnd t => exact ⟨_, rfl, .of_reaches (s.holdOffEnd_reaches t) fun a => by rw [State.holdOffEnd, a.slot]⟩
  | amplitudeSample v => exact ⟨_, rfl, .of_reaches (s.sampleAmplitude_reaches v) fun a => by rw [State.sampleAmplitude, a.slot]⟩
  | windowEnd v => exact ⟨_, rfl, .of_reaches (s.windowEnd_reaches v) fun a => by rw [State.windowEnd, a.slot]⟩
  | permitLoss => exact ⟨_, rfl, s.losePermit_initMove⟩
  | lineSettled => exact ⟨_, rfl, .of_reaches s.lineSettled_sameView.reaches fun a => if_neg (by rw [a.link]; decide)⟩
  | pyroFrame f => exact ⟨_, rfl, .of_reaches (s.takeFrame_sameView f).reaches fun a => if_neg (by rw [a.link]; decide)⟩
  | gapTimerExpiry =>
    exact ⟨_, rfl, .of_reaches s.gapExpires_sameView.reaches fun a => by rw [State.gapExpires, a.link]; rfl⟩
  | ageIncrease => exact ⟨_, rfl, .of_reaches s.ageOne_sameView.reaches fun a => if_pos (by rw [a.link]; rfl)⟩
  | realStep us => exact ⟨_, rfl, .of_reaches (s.realStep_reaches us) fun a => by rw [State.realStep, a.tracker]; rfl⟩
  | stall => exact ⟨_, rfl, .of_reaches s.stall_reaches fun a => if_neg (by rw [a.tracker]; decide)⟩
  | syntheticStep => exact ⟨_, rfl, .of_reaches s.syntheticStep_reaches fun a => if_neg (by rw [a.tracker]; decide)⟩
  | headEvent | tailEvent | presenceClear | presenceRecorded high => exact ⟨_, rfl, s.filteredEdge_initMove _⟩
  | closingSectionCompletion =>
    exact ⟨_, rfl, .of_reaches s.settleClosing_fills.reaches fun a => by rw [State.settleClosing, a.tube]; rfl⟩
  | closeCompletion =>
    exact ⟨_, rfl, .of_reaches s.closeIfDrained_reaches fun a => if_neg (by rw [a.gauge]; simp)⟩
  | scanStart => exact ⟨_, rfl, .of_reaches s.serveQueue_reaches fun a => by rw [State.serveQueue, a.pool]; rfl⟩
  | scanStep => exact ⟨_, rfl, .of_reaches s.scanOne_reaches fun a => by rw [State.scanOne, a.pool]; rfl⟩
  | scanEnd => exact ⟨_, rfl, .of_reaches s.scanFinish_reaches fun a => by rw [State.scanFinish, a.pool]; rfl⟩
  | permitActive => exact ⟨_, rfl, .stays _ ⟨id, fun _ => ⟨{ s.pins with permit := true }, rfl⟩⟩⟩
  | startEdge => exact ⟨_, rfl, .of_reaches s.startEdge_sameView.reaches fun a => if_neg (by rw [a.link]; decide)⟩
  | midStartCheck mark => exact ⟨_, rfl, .of_reaches (s.midStart_sameView mark).reaches fun a => if_neg (by rw [a.link]; decide)⟩

/-! ### The invariant of INIT -/

theorem initOk_of_notInit {s : State} (h : s.gauge ≠ .init) : InitOk s := ⟨fun g => absurd g h, fun g => absurd g h⟩

theorem initOk_withPins {s : State} (h : InitOk s) (p : Pins) : InitOk { s with pins := p } :=
  ⟨fun g => by
    have hs := h.blocks g
    generalize s.mem = m at hs ⊢
    rw [hs], h.passed⟩

/-- Right after a reset or at the beginning of INIT no word has been passed (R3, R4). -/
theorem State.fullReset_initOk (s : State) : InitOk s.fullReset := ⟨fun _ => rfl, fun _ h => Bool.noConfusion h⟩

theorem State.beginInit_initOk (s : State) (soft : Bool) : InitOk (s.beginInit soft) :=
  ⟨fun _ => rfl, fun _ _ a _ ha => absurd ha (Nat.not_lt_zero a)⟩

theorem State.completeInit_gauge {s : State} (h : s.initRunning = true) : s.completeInit.gauge = .halted := by
  rw [State.completeInit, if_pos h]
  rfl

/-- A command keeps the invariant of INIT. -/
theorem InitMove.initOk {s t : State} (m : InitMove s t) (h : InitOk s) : InitOk t := by
  cases m with
  | resets => exact s.fullReset_initOk
  | begins soft => exact s.beginInit_initOk soft
  | completes hr => exact initOk_of_notInit (by rw [State.completeInit_gauge hr]; decide)
  | stays _ hm =>
    by_cases hg : s.gauge = .init
    · obtain ⟨p, rfl⟩ := hm.inside (h.blocks hg)
      exact initOk_withPins h p
    · exact initOk_of_notInit (hm.outside hg)

theorem initOk_of_exec {i : Instr} {s t : State} (h : InitOk s) (ht : exec i s = .next t) : InitOk t := by
  obtain ⟨u, hu, hm⟩ := exec_initMove i s
  rw [hu] at ht
  obtain rfl : u = t := Host.Outcome.next.inj ht
  exact hm.initOk h

/-- Without a slot in progress, the receiver signals leave the slot (R36). -/
theorem afterSignals_slot_none {s : State} (h : s.slot = none) (qs : List EchoPoint) : (afterSignals s qs).1.slot = none := by
  induction qs generalizing s with
  | nil => exact h
  | cons q qs ih => exact ih (by rw [afterSignal, h]; rfl)

/-- One ct of INIT: the comparators follow the signals, and the clearing passes one word (R5). -/
theorem tick_initOk {s : State} (h : InitOk s) (hd : s.due = none) : InitOk s.tick := by
  by_cases hg : s.gauge = .init
  · have hb : AtReset s := h.blocks hg
    have honly : OnlyEchoes s _ := afterSignals_only s s.nextSample.echo
    have hslot : (afterSignals (standingSignals s) s.nextSample.echo).1.slot = none :=
      afterSignals_slot_none (by rw [standingSignals, hb.slot]; rfl) _
    rw [State.tick_of_init hg]
    generalize (afterSignals (standingSignals s) s.nextSample.echo).1 = v at honly hslot ⊢
    obtain ⟨u, hu⟩ : ∃ u, v.advance s.nextSample = u := ⟨_, rfl⟩
    have hmem : u.mem = s.mem := by rw [← hu, honly]; rfl
    have hclearing : u.clearing = s.clearing := by rw [← hu, honly]; rfl
    have hactive : u.resetActive = s.resetActive := by rw [← hu, honly]; rfl
    have hreset : AtReset u := by
      rw [← hu, honly, hslot]
      generalize v.chans = c, v.pins.echo = e
      rw [hb]
      rfl
    rw [hu]
    cases hactive' : s.resetActive with
    | true =>
      have hstill : u.clearWord = u := by simp [State.clearWord, State.initRunning, hactive, hactive']
      rw [hstill]
      exact ⟨fun _ => hreset, fun _ hr => by rw [hactive, hactive'] at hr; cases hr⟩
    | false =>
      have hrun : u.initRunning = true := by simp [State.initRunning, hreset.gauge, hactive, hactive']
      have hsrun : s.initRunning = true := by simp [State.initRunning, hg, hactive']
      rw [State.clearWord_of_running hrun (hclearing ▸ clearing_runs_of_notDue hd hsrun)]
      refine ⟨fun _ => ?_, fun _ _ a ha hlt hkept => ?_⟩
      · generalize memClearOne u.mem u.clearing.soft u.clearing.next = m
        generalize hc : ({ u.clearing with next := u.clearing.next + 1 } : Clearing) = c
        rw [hreset]
      · have hlt : a < u.clearing.next + 1 := hlt
        have hkept : ¬(u.clearing.soft = true ∧ 0x0100 ≤ a ∧ a ≤ 0x01FF) := hkept
        rw [memRead_memClearOne]
        split
        · rfl
        · next hn =>
          have hne : a ≠ u.clearing.next := fun e => hn ⟨e, hkept⟩
          rw [hclearing] at hlt hkept hne
          rw [hmem]
          exact h.passed hg hactive' a ha (by omega) hkept
  · refine initOk_of_notInit ?_
    rw [s.tick_only]
    exact hg

/-- Every step keeps what INIT keeps. -/
theorem step_keeps_initOk {s t : State} (h : InitOk s) (ht : step s = .next t) : InitOk t := by
  cases hp : s.pending with
  | cons i rest =>
    have hexec : exec i { s with pending := rest } = .next t := by rw [← ht, step, hp]
    have hrest : InitOk { s with pending := rest } := by
      refine ⟨fun g => ?_, h.passed⟩
      have hs := h.blocks g
      generalize s.mem = m at hs ⊢
      rw [hs]
    exact initOk_of_exec hrest hexec
  | nil =>
    cases hd : s.due with
    | some i => exact initOk_of_exec h ((step_of_due hp hd).symm.trans ht)
    | none =>
      obtain rfl : s.tick = t := Host.Outcome.next.inj ((step_of_notDue hp hd).symm.trans ht)
      exact tick_initOk h hd

/-! ### The completion of INIT -/

/-- The words that the completion of INIT writes (R6). -/
theorem memRead_completion (u : State) (a : Nat) :
    memRead ((u.putResetWords).setGauge .halted).mem a =
      if a = stGauge then 1#16
      else if a = stFreeCount then 952#16
      else if a = stCurrent ∨ a = stSetupError ∨ (stQueue ≤ a ∧ a < stQueue + 4) then 0xFFFF#16
      else memRead u.mem a := by
  have hgauge : ∀ v : State, memRead (v.setGauge .halted).mem a = if a = stGauge then 1#16 else memRead v.mem a := fun v =>
    memRead_put _ stGauge a _ (by decide)
  rw [hgauge, State.putResetWords, memRead_put _ _ _ _ (by decide), memRead_putList _ _ _ _ (by decide),
    memRead_put _ _ _ _ (by decide), memRead_put _ _ _ _ (by decide), List.length_replicate]
  refine if_congr Iff.rfl rfl ?_
  by_cases herr : a = stSetupError
  · rw [if_pos herr, herr]
    rfl
  · by_cases hq : stQueue ≤ a ∧ a < stQueue + 4
    · have hfree : a ≠ stFreeCount := by simp only [stQueue] at hq; simp only [stFreeCount, ne_eq]; omega
      rw [if_neg herr, if_pos hq, if_neg hfree, if_pos (.inr (.inr hq)), List.getD_replicate _ (by omega)]
      rfl
    · by_cases hcur : a = stCurrent
      · rw [if_neg herr, if_neg hq, if_pos hcur, hcur]
        rfl
      · rw [if_neg herr, if_neg hq, if_neg hcur, if_neg (c := a = stCurrent ∨ _) (by simp only [herr, hcur, hq, or_self, not_false_iff])]
        rfl

theorem State.setGauge_resetWords (u : State) (g : GaugeState) :
    (u.putResetWords).setGauge g = { u with gauge := g, mem := ((u.putResetWords).setGauge g).mem } := by
  unfold State.setGauge State.putResetWords State.put State.putList
  rfl

theorem State.completeInit_gives {s : State} (hg : s.gauge = .init) (hr : s.resetActive = false) :
    s.completeInit = { State.reset with
      gauge := .halted, clearing := s.clearing, mem := s.completeInit.mem, pins := s.pins, now := s.now, inputs := s.inputs,
      pending := s.pending }
    ∧ ∀ a, memRead s.completeInit.mem a =
      if a = stGauge then 1#16
      else if a = stFreeCount then 952#16
      else if a = stCurrent ∨ a = stSetupError ∨ (stQueue ≤ a ∧ a < stQueue + 4) then 0xFFFF#16
      else if s.clearing.next ≤ a ∧ ¬(s.clearing.soft = true ∧ 0x0100 ≤ a ∧ a ≤ 0x01FF) then 0#16
      else memRead s.mem a := by
  have hrun : s.initRunning = true := by simp [State.initRunning, hg, hr]
  rw [State.completeInit, if_pos hrun]
  refine ⟨?_, fun a => ?_⟩
  · dsimp only
    generalize memClearFrom s.mem s.clearing.soft s.clearing.next = m
    rw [State.setGauge_resetWords]
    generalize ((State.putResetWords _).setGauge .halted).mem = m'
    rw [State.resetBlocks]
    dsimp only
    rw [hr]
    rfl
  · dsimp only
    rw [memRead_completion]
    refine if_congr Iff.rfl rfl (if_congr Iff.rfl rfl (if_congr Iff.rfl rfl ?_))
    exact (memRead_memClearFrom _ _ _ _).trans (if_congr (and_congr_right fun _ => cleared_iff) rfl rfl)

/-- Settles O6, with the invariant of INIT kept by every command and by every ct. -/
theorem initCompletesInHalted : Obligations.InitCompletesInHalted := by
  refine ⟨fun s hg hr => ?_, ⟨fun _ => rfl, fun _ _ a _ _ _ => rfl⟩, fun s t h ht => step_keeps_initOk h ht⟩
  obtain ⟨hstate, hmem⟩ := State.completeInit_gives hg hr
  refine ⟨s.completeInit, rfl, hstate, fun a _ => hmem a, fun hok a ha => ?_⟩
  rw [hmem a]
  refine if_congr Iff.rfl rfl (if_congr Iff.rfl rfl (if_congr Iff.rfl rfl ?_))
  by_cases hkept : s.clearing.soft = true ∧ 0x0100 ≤ a ∧ a ≤ 0x01FF
  · rw [if_pos hkept, if_neg fun h => h.2 hkept]
  · rw [if_neg hkept]
    by_cases hn : s.clearing.next ≤ a
    · rw [if_pos ⟨hn, hkept⟩]
    · rw [if_neg fun h => hn h.1]
      exact hok.passed hg hr a ha (not_le.1 hn) hkept

end Sys2Proof.Machine
end
